-- ==== Sys2Proof/Word.lean ====
section
/-! DEFINITION. The word types of the Brecopa 4800's lines and of its image (R198). -/

namespace Sys2Proof

/-- One byte on a line, in a frame or in the station data image. -/
abbrev Byte := BitVec 8

/-- The check sequence of supervisory frames, polls and answers (R198). -/
abbrev Crc16 := BitVec 16

/-- The check sequence of telegrams and of the station data image (R198). -/
abbrev Crc32 := BitVec 32

end Sys2Proof
end

