-- ==== Sys2Proof/Config.lean ====
section
/-! DEFINITION. The fixed capacities of the part (00_scope.md, "Capacities at a glance") and the one free value. -/

namespace Sys2Proof

/-- Sections are 0–239 (00_scope.md, Conventions). -/
def Config.maxSections : Nat := 240
/-- Points are 0–95. -/
def Config.maxPoints : Nat := 96
/-- Signals are 0–159. -/
def Config.maxSignals : Nat := 160
/-- Ports are 0–7. -/
def Config.maxPorts : Nat := 8
/-- Links are 0–3. -/
def Config.maxLinks : Nat := 4
/-- Instance slots are 0–47 (R55). -/
def Config.maxSlots : Nat := 48
/-- Control areas are 0–7. -/
def Config.maxAreas : Nat := 8
/-- Object controllers are 1–48. -/
def Config.maxControllers : Nat := 48
/-- Route numbers are 1–512. -/
def Config.maxRoutes : Nat := 512
/-- The load buffer and the stored image hold 65,536 bytes (R1). -/
def Config.imageBytes : Nat := 65536
/-- The route store holds 16 entries (R79). -/
def Config.storeEntries : Nat := 16
/-- A claim count holds 0–48 (R36). -/
def Config.maxClaims : Nat := 48
/-- An instance's flank claim list holds 0–32 entries (R83). -/
def Config.listClaims : Nat := 32
/-- A remote claim entry holds 0–8 local claims (R102). -/
def Config.localClaims : Nat := 8
/-- A link's remote claim table has 16 entries and its outgoing request list holds 0–16 (R139). -/
def Config.linkEntries : Nat := 16
/-- The command input queue holds 4 commands (R181). -/
def Config.inputDepth : Nat := 4
/-- The response queue holds 8 frames (R182). -/
def Config.responseDepth : Nat := 8

/-- FREE VALUE (log 6). R192: a reset pulse of 5 µs or longer but shorter than 10 µs "is either taken or ignored".
Whether the n-th such pulse is taken: nothing is known of it. -/
opaque Config.shortPulseTaken : Nat → Bool

end Sys2Proof
end

