-- ==== Sys2Proof/Syntax.lean ====
section
/-! DEFINITION. The commands of the part: one constructor of `Instr` for each row of spec/opcode_table.json, and the
readable supervisory commands (R189) that the input queue and the gates hold. -/

namespace Sys2Proof

/-- The source of a command (00_scope.md, Terms): the remote control centre or the local panel. -/
inductive Originator where
  | centre
  | panel
  deriving DecidableEq, Repr, Inhabited

/-- The inner command of a PREPARE or an EXECUTE (R173, R174) with its parameters as they were carried: one of the seven
two-step commands of R176, or any other code with its parameter bytes. Parameters are the numbers the bytes carry,
in range or not. -/
inductive Inner where
  | restoreSection (sec : Nat)
  | forcedRelease (slot route : Nat)
  | removeRestriction (cls idx restriction : Nat)
  | forceDirection (port : Nat)
  | clearRemoteClaims (link : Nat)
  | takeControl (area : Nat)
  | restart (kind : Nat)
  | other (code : Nat) (params : List Byte)
  deriving DecidableEq, Repr, Inhabited

/-- A readable command of the catalogue of R189, with its parameters as the numbers its payload carries. Enumerated
parameters are their code bytes (R198); a value outside its list is the owning rule's BAD_PARAMETER. -/
inductive Cmd where
  | loadBegin (len : Nat)
  | loadSegment (offset : Nat) (bytes : List Byte)
  | loadEnd (len : Nat) (crc : Crc32)
  | activate
  | setRoute (route store lifetime : Nat)
  | reclear (route : Nat)
  | cancelRoute (route : Nat)
  | forcedRelease (slot route : Nat)
  | movePoint (pt pos : Nat)
  | addRestriction (cls idx restriction value : Nat)
  | removeRestriction (cls idx restriction : Nat)
  | restoreSection (sec : Nat)
  | requestDirection (port : Nat)
  | forceDirection (port : Nat)
  | clearRemoteClaims (link : Nat)
  | giveControl (area holder : Nat)
  | takeControl (area : Nat)
  | prepare (inner : Inner)
  | execute (inner : Inner)
  | restart (kind : Nat)
  | status
  | getElement (cls idx : Nat)
  | getPort (port : Nat)
  | getLink (link : Nat)
  | getInstance (slot : Nat)
  | readTable (table start : Nat)
  deriving DecidableEq, Repr, Inhabited

/-- The commands of the block: one constructor per row of spec/opcode_table.json. `o` and `tag` are the originator and
the tag of a supervisory command's header (R180). An event of a timer, pass or write carries what the world decides
(the index, the CRC that was computed); an event of a line carries the bytes. -/
inductive Instr where
  | powerOn
  | powerLoss
  | resetLineLow (lowUs : Nat)
  | resetLineRelease
  | startCheckComplete
  | startingCrcComplete (crc : Crc32)
  | startupTimerExpiry
  | verifyTimerExpiry
  | verifyPassComplete (crc : Crc32)
  | loadBegin (o : Originator) (tag len : Nat)
  | loadSegment (o : Originator) (tag offset : Nat) (bytes : List Byte)
  | loadEnd (o : Originator) (tag len : Nat) (crc : Crc32)
  | loadEndChecksComplete
  | activate (o : Originator) (tag : Nat)
  | activateWriteComplete (crc : Crc32)
  | setRoute (o : Originator) (tag route store lifetime : Nat)
  | reclear (o : Originator) (tag route : Nat)
  | cancelRoute (o : Originator) (tag route : Nat)
  | forcedRelease (o : Originator) (tag slot route : Nat)
  | movePoint (o : Originator) (tag pt pos : Nat)
  | restoreSection (o : Originator) (tag sec : Nat)
  | addRestriction (o : Originator) (tag cls idx restriction value : Nat)
  | removeRestriction (o : Originator) (tag cls idx restriction : Nat)
  | requestDirection (o : Originator) (tag port : Nat)
  | forceDirection (o : Originator) (tag port : Nat)
  | clearRemoteClaims (o : Originator) (tag link : Nat)
  | giveControl (o : Originator) (tag area holder : Nat)
  | takeControl (o : Originator) (tag area : Nat)
  | prepare (o : Originator) (tag : Nat) (inner : Inner)
  | execute (o : Originator) (tag : Nat) (inner : Inner)
  | restart (o : Originator) (tag kind : Nat)
  | status (o : Originator) (tag : Nat)
  | getElement (o : Originator) (tag cls idx : Nat)
  | getPort (o : Originator) (tag port : Nat)
  | getLink (o : Originator) (tag link : Nat)
  | getInstance (o : Originator) (tag slot : Nat)
  | readTable (o : Originator) (tag table start : Nat)
  | supFrameComplete (bytes : List Byte)
  | supFrameLengthFault (length : Byte)
  | supInterbyteGap (received : List Byte) (following : Byte)
  | supDrainIdle
  | transmitLineFree
  | fieldAnswerReceived (bytes : List Byte)
  | fieldFrameInvalid (bytes : List Byte)
  | answerWaitExpiry (arriving : Bool)
  | fieldLineIdle
  | throwTimerExpiry (pt : Nat)
  | settingTimerExpiry (slot : Nat)
  | approachTimerExpiry (slot : Nat)
  | releaseTimerExpiry (slot : Nat)
  | overlapTimerExpiry (slot : Nat)
  | storeEntryExpiry (route : Nat)
  | twoStepWindowExpiry (o : Originator)
  | helloReceived (link : Nat) (bytes : List Byte)
  | statusTelegramReceived (link : Nat) (bytes : List Byte)
  | haltReceived (link : Nat) (bytes : List Byte)
  | telegramDiscarded (link : Nat) (bytes : List Byte)
  | sequenceJump (link : Nat) (bytes : List Byte)
  | linkTimeout (link : Nat)
  | telegramSendTimer (link : Nat)
  | telegramChangeSpacing (link : Nat)
  deriving DecidableEq, Repr, Inhabited

end Sys2Proof
end

