-- ==== Sys2Proof/WellFormed.lean ====
section
/-! DEFINITION. Well-formed commands: every operand fits the field that carries it (R198: one, two or four bytes), and an
event names an index of its class (00_scope.md, Conventions). `exec` does not need it: a value outside its range is
answered by the rule that owns it. -/

namespace Sys2Proof

/-- Fits one byte. -/
def fits8 (n : Nat) : Bool := n < 256
/-- Fits two bytes. -/
def fits16 (n : Nat) : Bool := n < 65536
/-- Fits four bytes. -/
def fits32 (n : Nat) : Bool := n < 4294967296

/-- The codes of the seven two-step commands (R176, numbered as R198 says). -/
def twoStepCodes : List Nat := [8, 11, 12, 14, 15, 17, 20]

/-- An inner command's parameters fit their fields; `other` is no two-step command. -/
def Inner.wf : Inner → Bool
  | .restoreSection i => fits8 i
  | .forcedRelease slot route => fits8 slot && fits16 route
  | .removeRestriction cls idx r => fits8 cls && fits8 idx && fits8 r
  | .forceDirection p => fits8 p
  | .clearRemoteClaims l => fits8 l
  | .takeControl a => fits8 a
  | .restart k => fits8 k
  | .other code params => fits8 code && !twoStepCodes.contains code && decide (params.length ≤ 239)

/-- Every operand of a command fits its field. -/
def Instr.wf : Instr → Bool
  | .powerOn => true
  | .powerLoss => true
  | .resetLineLow _ => true
  | .resetLineRelease => true
  | .startCheckComplete => true
  | .startingCrcComplete _ => true
  | .startupTimerExpiry => true
  | .verifyTimerExpiry => true
  | .verifyPassComplete _ => true
  | .loadBegin _ tag len => fits8 tag && fits32 len
  | .loadSegment _ tag offset bytes => fits8 tag && fits16 offset && decide (1 ≤ bytes.length ∧ bytes.length ≤ 200)
  | .loadEnd _ tag len _ => fits8 tag && fits32 len
  | .loadEndChecksComplete => true
  | .activate _ tag => fits8 tag
  | .activateWriteComplete _ => true
  | .setRoute _ tag route store lifetime => fits8 tag && fits16 route && fits8 store && fits16 lifetime
  | .reclear _ tag route => fits8 tag && fits16 route
  | .cancelRoute _ tag route => fits8 tag && fits16 route
  | .forcedRelease _ tag slot route => fits8 tag && fits8 slot && fits16 route
  | .movePoint _ tag pt pos => fits8 tag && fits8 pt && fits8 pos
  | .restoreSection _ tag sec => fits8 tag && fits8 sec
  | .addRestriction _ tag cls idx r value => fits8 tag && fits8 cls && fits8 idx && fits8 r && fits8 value
  | .removeRestriction _ tag cls idx r => fits8 tag && fits8 cls && fits8 idx && fits8 r
  | .requestDirection _ tag port => fits8 tag && fits8 port
  | .forceDirection _ tag port => fits8 tag && fits8 port
  | .clearRemoteClaims _ tag link => fits8 tag && fits8 link
  | .giveControl _ tag area holder => fits8 tag && fits8 area && fits8 holder
  | .takeControl _ tag area => fits8 tag && fits8 area
  | .prepare _ tag inner => fits8 tag && inner.wf
  | .execute _ tag inner => fits8 tag && inner.wf
  | .restart _ tag kind => fits8 tag && fits8 kind
  | .status _ tag => fits8 tag
  | .getElement _ tag cls idx => fits8 tag && fits8 cls && fits8 idx
  | .getPort _ tag port => fits8 tag && fits8 port
  | .getLink _ tag link => fits8 tag && fits8 link
  | .getInstance _ tag slot => fits8 tag && fits8 slot
  | .readTable _ tag table start => fits8 tag && fits8 table && fits16 start
  | .supFrameComplete bytes => decide (8 ≤ bytes.length)
  | .supFrameLengthFault length => decide (length.toNat < 4 ∨ 244 < length.toNat)
  | .supInterbyteGap received _ => decide (received ≠ [])
  | .supDrainIdle => true
  | .transmitLineFree => true
  | .fieldAnswerReceived bytes => decide (bytes.length = 22)
  | .fieldFrameInvalid _ => true
  | .answerWaitExpiry _ => true
  | .fieldLineIdle => true
  | .throwTimerExpiry pt => decide (pt < Config.maxPoints)
  | .settingTimerExpiry slot => decide (slot < Config.maxSlots)
  | .approachTimerExpiry slot => decide (slot < Config.maxSlots)
  | .releaseTimerExpiry slot => decide (slot < Config.maxSlots)
  | .overlapTimerExpiry slot => decide (slot < Config.maxSlots)
  | .storeEntryExpiry route => decide (1 ≤ route ∧ route ≤ Config.maxRoutes)
  | .twoStepWindowExpiry _ => true
  | .helloReceived link _ => decide (link < Config.maxLinks)
  | .statusTelegramReceived link _ => decide (link < Config.maxLinks)
  | .haltReceived link _ => decide (link < Config.maxLinks)
  | .telegramDiscarded link _ => decide (link < Config.maxLinks)
  | .sequenceJump link _ => decide (link < Config.maxLinks)
  | .linkTimeout link => decide (link < Config.maxLinks)
  | .telegramSendTimer link => decide (link < Config.maxLinks)
  | .telegramChangeSpacing link => decide (link < Config.maxLinks)

end Sys2Proof
end

