-- ==== Sys2Proof/Machine/Sparse.lean ====
section
/-! DEFINITION. Sparse data by number, in one canonical form: numbers strictly rising, and no entry equal to what an unlisted
number reads as. The load buffer (R13, R14) and the restriction sets (R38, R42) are held so. -/

namespace Sys2Proof.Machine

/-- The value at `i`: `d` where nothing is listed. -/
def Sparse.get {α : Type} (d : α) : List (Nat × α) → Nat → α
  | [], _ => d
  | (a, v) :: rest, i => if a = i then v else Sparse.get d rest i

/-- Writes `v` at `i` and keeps the canonical form: writing `d` removes the entry. -/
def Sparse.set {α : Type} [DecidableEq α] (d : α) : List (Nat × α) → Nat → α → List (Nat × α)
  | [], i, v => if v = d then [] else [(i, v)]
  | (a, w) :: rest, i, v =>
    if i < a then (if v = d then (a, w) :: rest else (i, v) :: (a, w) :: rest)
    else if i = a then (if v = d then rest else (a, v) :: rest)
    else (a, w) :: Sparse.set d rest i v

/-- Numbers rise from `lo` on, strictly, and no value is `d`. -/
def Sparse.wfFrom {α : Type} [DecidableEq α] (d : α) : Nat → List (Nat × α) → Bool
  | _, [] => true
  | lo, (a, v) :: rest => decide (lo ≤ a) && decide (v ≠ d) && Sparse.wfFrom d (a + 1) rest

/-- The canonical form. -/
def Sparse.wf {α : Type} [DecidableEq α] (d : α) (l : List (Nat × α)) : Bool := Sparse.wfFrom d 0 l

/-- What an unlisted byte of the load buffer reads as: LOAD_BEGIN sets every byte to 0 (R13), and "Bytes that no segment
has written keep the value 0" (R14). -/
def Memory.unlisted : Byte := 0

/-- One byte of the load buffer. -/
def Memory.read (m : List Host.Cell) (a : Nat) : Byte := Sparse.get Memory.unlisted m a

/-- Writes one byte of the load buffer. -/
def Memory.write (m : List Host.Cell) (a : Nat) (b : Byte) : List Host.Cell := Sparse.set Memory.unlisted m a b

/-- The load buffer's canonical form. -/
def Memory.wf (m : List Host.Cell) : Bool := Sparse.wf Memory.unlisted m

/-- Writes bytes from address `a` onward, in order (R14: a later byte replaces an earlier one). -/
def Memory.writeAll (m : List Host.Cell) (a : Nat) : List Byte → List Host.Cell
  | [] => m
  | b :: rest => Memory.writeAll (Memory.write m a b) (a + 1) rest

/-- The `n` bytes from address `a` on. -/
def Memory.readFrom : List Host.Cell → Nat → Nat → List Byte
  | _, _, 0 => []
  | [], _, n => List.replicate n Memory.unlisted
  | (b, v) :: rest, a, n + 1 =>
    if b = a then v :: Memory.readFrom rest (a + 1) n
    else if b < a then Memory.read rest a :: Memory.readFrom rest (a + 1) n
    else Memory.unlisted :: Memory.readFrom ((b, v) :: rest) (a + 1) n

end Sys2Proof.Machine
end

