-- ==== Sys2Proof/Machine/ImageData.lean ====
section
/-! DEFINITION. The station data image as decoded records (R2 to R12): what the other blocks read of the active image. -/

namespace Sys2Proof.Machine

/-- The two ends of a section (R5). -/
inductive SecEnd where
  | a
  | b
  deriving DecidableEq, Repr, Inhabited

/-- The three legs of a point (R5, R6). -/
inductive Leg where
  | tip
  | normal
  | reverse
  deriving DecidableEq, Repr, Inhabited

/-- The two positions of a point (R6). -/
inductive Pos where
  | normal
  | reverse
  deriving DecidableEq, Repr, Inhabited

/-- The classes of elements: section, point, signal. -/
inductive Cls where
  | sect
  | point
  | signal
  deriving DecidableEq, Repr, Inhabited

/-- An element by class and index. -/
structure ElemRef where
  cls : Cls
  idx : Nat
  deriving DecidableEq, Repr, Inhabited

/-- The connection of a section end (R5): JOINT, POINT_LEG, PORT, BUFFER_STOP. -/
inductive Conn where
  | joint (sec : Nat) (e : SecEnd)
  | leg (pt : Nat) (l : Leg)
  | port (p : Nat)
  | buffer
  deriving DecidableEq, Repr, Inhabited

/-- The holder of a control area (R10, R167). -/
inductive Holder where
  | centre
  | panel
  | none
  deriving DecidableEq, Repr, Inhabited

/-- The kinds of routes (R11). -/
inductive RouteKind where
  | main
  | shunt
  | exit
  deriving DecidableEq, Repr, Inhabited

/-- The states a remote overlap item or a RESERVE request can ask for (R11, R160). -/
inductive ReqState where
  | clear
  | normal
  | reverse
  | stop
  deriving DecidableEq, Repr, Inhabited

/-- A section record of the image (R5). -/
structure SecDef where
  length : Nat
  endA : Conn
  endB : Conn
  ctrl : Nat
  chan : Nat
  area : Nat
  deriving DecidableEq, Repr, Inhabited

/-- A point record of the image (R6). -/
structure PtDef where
  tip : Nat
  normal : Nat
  reverse : Nat
  fouling : Nat
  ctrl : Nat
  chan : Nat
  area : Nat
  deriving DecidableEq, Repr, Inhabited

/-- A signal record of the image (R7). -/
structure SigDef where
  sec : Nat
  e : SecEnd
  ctrl : Nat
  chan : Nat
  area : Nat
  deriving DecidableEq, Repr, Inhabited

/-- A port record of the image (R8). -/
structure PortDef where
  link : Nat
  sec : Nat
  e : SecEnd
  yields : Bool
  deriving DecidableEq, Repr, Inhabited

/-- A link record of the image (R9): the neighbour's station identity (0: unequipped) and the window. -/
structure LinkDef where
  neighbour : Nat
  window : List ElemRef
  deriving DecidableEq, Repr, Inhabited

/-- A path point of a route (R11): point, required position, fouling index into the path sections. -/
structure PathPoint where
  pt : Nat
  pos : Pos
  fouling : Nat
  deriving DecidableEq, Repr, Inhabited

/-- A remote overlap item of an EXIT route (R11). -/
structure RemoteItem where
  link : Nat
  cls : Cls
  idx : Nat
  state : ReqState
  deriving DecidableEq, Repr, Inhabited

/-- A route definition (R11). -/
structure RouteDef where
  number : Nat
  kind : RouteKind
  entry : Nat
  exit : Nat
  path : List Nat
  pathPoints : List PathPoint
  overlapSecs : List Nat
  overlapPoints : List (Nat × Pos)
  remoteItems : List RemoteItem
  overlapTime : Nat
  chain : List Nat
  speed : Nat
  decel : Nat
  sight : Nat
  reaction : Nat
  deriving DecidableEq, Repr, Inhabited

/-- The decoded image: header parameters as the fields stand (0 reads as the default, R2), then the records. -/
structure Image where
  identity : Nat
  settingField : Nat
  throwField : Nat
  missedField : Nat
  linkField : Nat
  windowField : Nat
  storeField : Nat
  controllers : List Nat
  sections : List SecDef
  points : List PtDef
  signals : List SigDef
  ports : List PortDef
  links : List LinkDef
  areas : List Holder
  routes : List RouteDef
  deriving DecidableEq, Repr, Inhabited

end Sys2Proof.Machine
end

