-- ==== Sys2Proof/Machine/State.lean ====
section
/-! DEFINITION. The state of the part, block by block (00_scope.md, "Block diagram"), as plain data, and the state after
reset. `log n` names notes/assumptions/n.md. -/

namespace Sys2Proof.Machine

/-! ### Mode Controller (R190 to R197) -/

/-- Whether the supply stands, the reset line is held low, the start check runs, or the mode is set (R190 to R192). -/
inductive Power where
  | off
  | held
  | checking
  | running
  deriving DecidableEq, Repr, Inhabited

/-- The five modes (R190). -/
inductive Mode where
  | unconfigured
  | loading
  | starting
  | operational
  | halted
  deriving DecidableEq, Repr, Inhabited

/-- The start cause (R190). -/
inductive StartCause where
  | cold
  | warmLine
  | warmCommand
  | activate
  deriving DecidableEq, Repr, Inhabited

/-- The halt reason (R190). -/
inductive HaltReason where
  | image
  | startingImage
  deriving DecidableEq, Repr, Inhabited

/-- The CRC computation over the active copy during STARTING (R18, R194). -/
inductive StartCrc where
  | idle
  | running
  | matched
  deriving DecidableEq, Repr, Inhabited

/-- The Mode Controller's state (R190). -/
structure Mdc where
  power : Power
  mode : Mode
  cause : StartCause
  halt : Option HaltReason
  startupMs : Option Nat
  startupExpired : Bool
  startCrc : StartCrc
  deriving DecidableEq, Repr, Inhabited

/-! ### Station Data Store (R1 to R20) -/

/-- The stored image (R1): the bytes and the CRC as last written by ACTIVATE. `damaged`: a write was cut off (R17) or did
not read back (R16), so that its CRC fails at the next start check (log 5). -/
structure Stored where
  bytes : List Byte
  crc : Crc32
  damaged : Bool
  deriving DecidableEq, Repr, Inhabited

/-- The active image (R1), decoded (log 42), with the image CRC. -/
structure Active where
  image : Image
  crc : Crc32
  deriving DecidableEq, Repr, Inhabited

/-- The load state (R1). -/
inductive LoadState where
  | closed
  | opened
  | accepted
  deriving DecidableEq, Repr, Inhabited

/-- The load record (R1, R13); the fields after the state are absent while CLOSED. -/
structure LoadRecord where
  state : LoadState
  declared : Nat
  owner : Option Originator
  origin : Option Mode
  crc : Option Crc32
  deriving DecidableEq, Repr, Inhabited

/-- The record classes of the structural checks, in the order of R15's walk. -/
inductive RecClass where
  | header
  | controller
  | sect
  | point
  | signal
  | port
  | link
  | area
  | route
  deriving DecidableEq, Repr, Inhabited

/-- A check result (R1, R15): code 0 with no record, or the failing check with its record. -/
structure CheckResult where
  code : Nat
  record : Option (RecClass × Nat)
  deriving DecidableEq, Repr, Inhabited

/-- The Station Data Store's state (R1, R19). -/
structure Sds where
  stored : Stored
  active : Option Active
  verifyCount : Nat
  verifyMs : Option Nat
  verifyPass : Bool
  load : LoadRecord
  buffer : List Host.Cell
  lastCheck : CheckResult
  deriving DecidableEq, Repr, Inhabited

/-! ### Element State Table (R21 to R42) -/

/-- Occupancy of a section (R21). -/
inductive Occ where
  | clear
  | occupied
  | disturbed
  deriving DecidableEq, Repr, Inhabited

/-- The last report of a section (R21). -/
inductive SecReport where
  | noReport
  | clear
  | occupied
  | disturbed
  deriving DecidableEq, Repr, Inhabited

/-- A lock owner (R21, R35): an instance slot, a port acceptance, or a remote claim entry (link, entry). -/
inductive Owner where
  | slot (i : Nat)
  | accept (p : Nat)
  | remote (link entry : Nat)
  deriving DecidableEq, Repr, Inhabited

/-- The lock kind of an instance's lock (R21). -/
inductive LockKind where
  | path
  | overlap
  deriving DecidableEq, Repr, Inhabited

/-- A section record (R21); its restrictions stand in `Est.secRestr`, by index. -/
structure SectionRec where
  occ : Occ
  sweep : Bool
  last : SecReport
  owner : Option Owner
  kind : Option LockKind
  claims : Nat
  unexpected : Bool
  vanished : Bool
  sequence : Bool
  deriving DecidableEq, Repr, Inhabited

/-- The restrictions of a section (R21, R38). -/
structure SecRestr where
  noRoute : Bool
  speed : Option Nat
  deriving DecidableEq, Repr, Inhabited

/-- Position of a point (R22). -/
inductive PtState where
  | normal
  | reverse
  | moving
  | lost
  deriving DecidableEq, Repr, Inhabited

/-- Last detection of a point (R22). -/
inductive PtReport where
  | normal
  | reverse
  | noDetection
  | noReport
  deriving DecidableEq, Repr, Inhabited

/-- A point record (R22); its restrictions stand in `Est.ptRestr`. -/
structure PointRec where
  pos : PtState
  commanded : Option Pos
  last : PtReport
  throwMs : Option Nat
  owner : Option Owner
  kind : Option LockKind
  lockedPos : Option Pos
  claimPos : Option Pos
  claims : Nat
  detectionLost : Bool
  deriving DecidableEq, Repr, Inhabited

/-- The restrictions of a point (R22, R38). -/
structure PtRestr where
  noRoute : Bool
  noMove : Bool
  noFlankMove : Bool
  deriving DecidableEq, Repr, Inhabited

/-- Commanded aspect of a signal (R23). -/
inductive Aspect where
  | stop
  | proceed
  | restricted
  deriving DecidableEq, Repr, Inhabited

/-- Reported aspect of a signal (R23). -/
inductive Reported where
  | stop
  | proceed
  | restricted
  | dark
  | unknown
  deriving DecidableEq, Repr, Inhabited

/-- A signal record (R23): `owner` is the slot of the instance that holds it as its entry signal. Its restrictions stand in
`Est.sigRestr`. -/
structure SignalRec where
  commanded : Aspect
  reported : Reported
  owner : Option Nat
  holds : Nat
  lamp : Bool
  deriving DecidableEq, Repr, Inhabited

/-- The restrictions of a signal (R23, R38). -/
structure SigRestr where
  noRoute : Bool
  noClear : Bool
  deriving DecidableEq, Repr, Inhabited

/-- The Element State Table (R21 to R23, R42): record `i` of a list is the element with index `i`; the restriction sets are
kept by index, with or without a record. -/
structure Est where
  sections : List SectionRec
  points : List PointRec
  signals : List SignalRec
  secRestr : List (Nat × SecRestr)
  ptRestr : List (Nat × PtRestr)
  sigRestr : List (Nat × SigRestr)
  deriving DecidableEq, Repr, Inhabited

/-! ### Field Link Unit (R43 to R54) -/

/-- Controller states (R43). -/
inductive CtrlState where
  | unknown
  | active
  | lost
  deriving DecidableEq, Repr, Inhabited

/-- A controller record (R43). -/
structure Ctrl where
  addr : Nat
  state : CtrlState
  missed : Nat
  deriving DecidableEq, Repr, Inhabited

/-- Where the poll stands (R44, R46): none outstanding, the answer wait open, or a late frame being discarded. -/
inductive PollState where
  | none
  | waiting
  | lateFrame
  deriving DecidableEq, Repr, Inhabited

/-- A channel command of a poll (R45). -/
inductive ChanCmd where
  | nothing
  | normal
  | reverse
  | none
  | stop
  | proceed
  | restricted
  deriving DecidableEq, Repr, Inhabited

/-- A poll frame (R45): the address and the sixteen channel commands. -/
structure Poll where
  addr : Nat
  cmds : List ChanCmd
  deriving DecidableEq, Repr, Inhabited

/-- The Field Link Unit's state (R43). -/
structure Flu where
  ctrls : List Ctrl
  pollPos : Option Nat
  poll : PollState
  lastPoll : Option Poll
  deriving DecidableEq, Repr, Inhabited

/-! ### Route Setting Unit, Passage Supervisor, Flank Unit (R55 to R138) -/

/-- Instance states (R55). -/
inductive SlotState where
  | free
  | setting
  | clearing
  | cleared
  | held
  | occupied
  | berthed
  | approachLocked
  | releaseTiming
  deriving DecidableEq, Repr, Inhabited

/-- The set of hold causes (R55, R73). -/
structure Holds where
  point : Bool
  sect : Bool
  flank : Bool
  neighbour : Bool
  lamp : Bool
  noClear : Bool
  controller : Bool
  halted : Bool
  deriving DecidableEq, Repr, Inhabited

/-- The cause of SETTING_FAILED (R55, R71). -/
inductive FailCause where
  | points
  | flank
  | neighbour
  | signal
  | fault
  deriving DecidableEq, Repr, Inhabited

/-- End reasons (R55). -/
inductive EndReason where
  | none
  | passed
  | cancelled
  | approachReleased
  | forced
  | settingFailed (cause : FailCause)
  deriving DecidableEq, Repr, Inhabited

/-- What a claim entry names (R82): its element, kind and, for POINT_POSITION, its position. -/
inductive ClaimOn where
  | point (i : Nat) (p : Pos)
  | signal (i : Nat)
  | sect (i : Nat)
  | port (p : Nat)
  deriving DecidableEq, Repr, Inhabited

/-- The protected point of an entry of an instance's list (R82): PATH or OVERLAP with an index. -/
inductive Prot where
  | path (i : Nat)
  | overlap (i : Nat)
  deriving DecidableEq, Repr, Inhabited

/-- A claim entry (R82). -/
structure Claim where
  what : ClaimOn
  prot : Option Prot
  lost : Bool
  been : Bool
  deriving DecidableEq, Repr, Inhabited

/-- The classes a request to a neighbour can name (12, "Neighbour telegrams": port, section, point or signal). -/
inductive TgtCls where
  | port
  | sect
  | point
  | signal
  deriving DecidableEq, Repr, Inhabited

/-- What a request of the request list asks for (R147, R158): PORT_FLANK or RESERVE, with target and required state. -/
structure Ask where
  flank : Bool
  cls : TgtCls
  idx : Nat
  state : Option ReqState
  deriving DecidableEq, Repr, Inhabited

/-- What a remote request of an instance asks for (R55): the acceptance on a port, or a request of the link's list. -/
inductive RemoteWhat where
  | acceptance (port : Nat)
  | ask (a : Ask)
  deriving DecidableEq, Repr, Inhabited

/-- Status of a remote request (R55). -/
inductive ReqStatus where
  | pending
  | granted
  | refused
  deriving DecidableEq, Repr, Inhabited

/-- The reason of a refusal (R147). -/
inductive Reason where
  | window
  | conflict
  | fault
  | search
  deriving DecidableEq, Repr, Inhabited

/-- A remote request of an instance (R55). -/
structure RemoteReq where
  what : RemoteWhat
  link : Nat
  tag : Nat
  status : ReqStatus
  reason : Option Reason
  deriving DecidableEq, Repr, Inhabited

/-- The approach figures (R104); `source` is none for ROUTE. -/
structure Figures where
  v : Nat
  source : Option Nat
  d : Nat
  q : Nat
  k : Nat
  reach : Nat
  short : Bool
  t : Nat
  deriving DecidableEq, Repr, Inhabited

/-- The marks of an instance (R55). -/
structure Marks where
  passedAtStop : Bool
  sequence : Bool
  vanished : Bool
  unexpected : Bool
  deriving DecidableEq, Repr, Inhabited

/-- An instance record (R55). -/
structure Slot where
  route : Option Nat
  kind : Option RouteKind
  originator : Option Originator
  state : SlotState
  holds : Holds
  reason : EndReason
  pendingPts : List Nat
  remote : List RemoteReq
  figures : Option Figures
  head : Option Nat
  release : Option Nat
  timerMs : Option Nat
  claims : List Claim
  marks : Marks
  deriving DecidableEq, Repr, Inhabited

/-- A route store entry (R79); the lifetime remaining in ms (log 1). -/
structure StoreEntry where
  route : Nat
  originator : Originator
  lifeMs : Nat
  deriving DecidableEq, Repr, Inhabited

/-- How a store entry left (R79). -/
inductive Removal where
  | expired
  | set
  | cancelled
  deriving DecidableEq, Repr, Inhabited

/-- The instance table and the route store (R55, R79). -/
structure Rsu where
  slots : List Slot
  store : List StoreEntry
  lastRemoval : Option (Nat × Removal)
  deriving DecidableEq, Repr, Inhabited

/-! ### Boundary Unit (R139 to R166) -/

/-- Link states (R139). -/
inductive LinkState where
  | down
  | hello
  | up
  | disturbed
  deriving DecidableEq, Repr, Inhabited

/-- Status of a remote claim entry, and of an answer (R158, R147). -/
inductive AnsStatus where
  | working
  | granted
  | refused (reason : Option Reason)
  deriving DecidableEq, Repr, Inhabited

/-- A remote claim entry (R158). `decided` is the model's mark: false for an entry created in STARTING (log 36). `lock` is
the element the entry locks, if any. -/
structure RemoteEntry where
  tag : Nat
  ask : Ask
  status : AnsStatus
  decided : Bool
  beenGranted : Bool
  lock : Option ElemRef
  claims : List Claim
  deriving DecidableEq, Repr, Inhabited

/-- An entry of the outgoing request list (R163). -/
structure OutReq where
  tag : Nat
  ask : Ask
  slot : Nat
  deriving DecidableEq, Repr, Inhabited

/-- Direction views as telegrams carry them (R147). -/
inductive NbView where
  | neutral
  | outMine
  | inYours
  | requesting
  deriving DecidableEq, Repr, Inhabited

/-- Answers to a direction request (R140). -/
inductive DirAns where
  | none
  | grant
  | refuse
  deriving DecidableEq, Repr, Inhabited

/-- Answers to an acceptance request (R140). -/
inductive AccAns where
  | none
  | granted
  | refused
  deriving DecidableEq, Repr, Inhabited

/-- One port of a HELLO's configuration digest (R144). -/
structure HelloPort where
  num : Nat
  yields : Bool
  view : NbView
  deriving DecidableEq, Repr, Inhabited

/-- A port entry of a STATUS (R147). -/
structure PortEntry where
  num : Nat
  view : NbView
  dir : DirAns
  acc : Option Nat
  ans : AccAns
  ansTag : Option Nat
  occ : Occ
  deriving DecidableEq, Repr, Inhabited

/-- An item of a STATUS's answer list (R147). -/
structure AnsItem where
  tag : Nat
  status : AnsStatus
  deriving DecidableEq, Repr, Inhabited

/-- The content of a telegram (R141, R147). -/
inductive TelBody where
  | hello (seen : Bool) (ports : List HelloPort)
  | status (ports : List PortEntry) (requests : List (Nat × Ask)) (answers : List AnsItem)
  | halt
  deriving DecidableEq, Repr, Inhabited

/-- A telegram sent: the station identity it carries (R2), content and alive sequence (R141). -/
structure SentTel where
  identity : Nat
  body : TelBody
  seq : Nat
  deriving DecidableEq, Repr, Inhabited

/-- A link record (R139). -/
structure Link where
  state : LinkState
  seen : Bool
  answered : Bool
  nbPorts : Option (List Nat)
  config : Bool
  lastSeq : Option Nat
  nextSeq : Nat
  timeoutMs : Option Nat
  sinceMs : Option Nat
  lastRefusal : Option ElemRef
  table : List (Option RemoteEntry)
  outgoing : List OutReq
  nextTag : Nat
  lastSent : Option SentTel
  deriving DecidableEq, Repr, Inhabited

/-- Direction views of a port (R140). -/
inductive View where
  | neutral
  | out
  | into
  | requesting
  deriving DecidableEq, Repr, Inhabited

/-- Incoming acceptance states (R140). -/
inductive Incoming where
  | none
  | refused
  | waiting
  | receiving
  | completed
  deriving DecidableEq, Repr, Inhabited

/-- The neighbour's boundary section as reported (R140). -/
inductive NbSec where
  | clear
  | occupied
  | disturbed
  | unknown
  deriving DecidableEq, Repr, Inhabited

/-- A port record (R140). -/
structure Port where
  view : View
  prev : Option View
  conflict : Bool
  dirAns : DirAns
  nbDirAns : DirAns
  outAcc : Option (Nat × Nat)
  nbAcc : AccAns
  nbAccTag : Option Nat
  inc : Incoming
  incTag : Option Nat
  withdrawn : Bool
  nbView : NbView
  nbSec : NbSec
  deriving DecidableEq, Repr, Inhabited

/-- The Boundary Unit's state (R139, R140). -/
structure Bdu where
  links : List Link
  ports : List Port
  deriving DecidableEq, Repr, Inhabited

/-! ### Supervisory Link Unit (R167, R172, R179 to R189) -/

/-- Receiver states (R179). -/
inductive Rx where
  | hunting
  | receiving
  | draining
  deriving DecidableEq, Repr, Inhabited

/-- A command of the input queue (R181). -/
structure QCmd where
  originator : Originator
  tag : Nat
  cmd : Cmd
  deriving DecidableEq, Repr, Inhabited

/-- A PREPARED gate (R172). -/
structure Gate where
  inner : Inner
  leftMs : Nat
  deriving DecidableEq, Repr, Inhabited

/-- Result codes, in the order of R189's table. -/
inductive Res where
  | done
  | accepted
  | stored
  | prepared
  | conflict
  | blocked
  | fault
  | direction
  | duplicate
  | unknown
  | notInControl
  | inUse
  | busy
  | notOperational
  | notPermitted
  | badParameter
  | twoStep
  | noPrepare
  | mismatch
  | rejected
  deriving DecidableEq, Repr, Inhabited

/-- A reference of the notice queue (R184). -/
inductive Ref where
  | sect (i : Nat)
  | point (i : Nat)
  | signal (i : Nat)
  | port (i : Nat)
  | link (i : Nat)
  | slot (i : Nat)
  | store
  | system
  deriving DecidableEq, Repr, Inhabited

/-- What the link notice and the reply to GET_LINK carry (R166). -/
structure LinkView where
  state : LinkState
  seen : Bool
  answered : Bool
  config : Bool
  lastSeq : Option Nat
  lastRefusal : Option ElemRef
  entries : Nat
  outgoing : Nat
  deriving DecidableEq, Repr, Inhabited

/-- The STATUS content (R187). -/
structure StatusView where
  mode : Mode
  cause : StartCause
  halt : Option HaltReason
  identity : Option Nat
  verifyCount : Nat
  lastCheck : CheckResult
  loadState : LoadState
  declared : Option Nat
  owner : Option Originator
  ctrls : List Ctrl
  holders : List Holder
  gateCentre : Option Gate
  gatePanel : Option Gate
  live : Nat
  stored : Nat
  deriving DecidableEq, Repr, Inhabited

/-- The record a notice or a query's reply carries (R185). An instance record shows each claim with whether it is intact
(R83); a remote claim entry shows its local claims so (R103). -/
inductive Record where
  | sect (r : SectionRec) (x : SecRestr)
  | point (r : PointRec) (x : PtRestr)
  | signal (r : SignalRec) (x : SigRestr)
  | port (r : Port)
  | link (r : LinkView)
  | slot (i : Nat) (r : Slot) (intact : List Bool)
  | store (entries : List StoreEntry) (last : Option (Nat × Removal))
  | system (r : StatusView)
  | route (r : RouteDef)
  | entry (i : Nat) (r : Option RemoteEntry) (intact : List Bool)
  | storeEntry (r : StoreEntry)
  deriving DecidableEq, Repr, Inhabited

/-- The content of a reply after its result code (R182), as the owning rule gives it. -/
inductive Content where
  | none
  | elem (e : ElemRef)
  | slotState (slot : Nat) (state : SlotState)
  | slotEnded (slot : Nat) (reason : EndReason)
  | check (r : CheckResult)
  | record (r : Record)
  | table (records : List Record) (next : Nat) (store : Option (Nat × Option (Nat × Removal)))
  deriving DecidableEq, Repr, Inhabited

/-- A fault set (R180, R181), in the order of the layout table of 12. -/
structure Faults where
  check : Bool
  length : Bool
  gap : Bool
  kind : Bool
  originator : Bool
  code : Bool
  parameters : Bool
  overrun : Bool
  deriving DecidableEq, Repr, Inhabited

/-- A frame to the host (R182, R185): a reply, a fault report (with tag, originator and code where it carries them), or
a notice. -/
inductive Frame where
  | reply (tag code : Nat) (o : Originator) (res : Res) (content : Content)
  | faultReport (faults : Faults) (header : Option (Nat × Nat × Nat))
  | notice (count : Nat) (ref : Ref) (record : Record)
  deriving DecidableEq, Repr, Inhabited

/-- The Supervisory Link Unit's state. -/
structure Slu where
  holders : List Holder
  gateCentre : Option Gate
  gatePanel : Option Gate
  rx : Rx
  inputQ : List QCmd
  inProgress : Option QCmd
  respQ : List Frame
  noticeQ : List Ref
  noticeCount : Nat
  line : Option Frame
  deriving DecidableEq, Repr, Inhabited

/-! ### The whole part -/

/-- The part's state: its blocks, the queue of waiting commands, and the model's two own fields (INVENTORY.md): `freeCount`
counts the free values used (log 35); `releaseDue` says that a release event of the act under way has not been taken by
a retry pass yet (R80). -/
structure State where
  mdc : Mdc
  sds : Sds
  est : Est
  flu : Flu
  rsu : Rsu
  bdu : Bdu
  slu : Slu
  releaseDue : Bool
  freeCount : Nat
  pending : List Instr
  deriving DecidableEq, Repr, Inhabited

/-- Faults: none. Nothing of the spec stops the part (INVENTORY.md, Faults); no meaning ends in a fault. Safe. -/
inductive Fault where
  deriving DecidableEq, Repr

/-- Refusals: only the host's, for a command without a meaning; no command is in that case. Safe. -/
inductive Refusal where
  /-- Raised by `exec`'s arm of a command that has no meaning yet: none. Safe. -/
  | notModelled (mnemonic : String)
  deriving DecidableEq, Repr

/-! ### Start values -/

/-- No hold cause. -/
def Holds.empty : Holds := ⟨false, false, false, false, false, false, false, false⟩

/-- No mark. -/
def Marks.empty : Marks := ⟨false, false, false, false⟩

/-- No fault. -/
def Faults.empty : Faults := ⟨false, false, false, false, false, false, false, false⟩

/-- A section after a start (R21). -/
def SectionRec.start : SectionRec := ⟨.disturbed, false, .noReport, none, none, 0, false, false, false⟩

/-- A point after a start (R22). -/
def PointRec.start : PointRec := ⟨.lost, none, .noReport, none, none, none, none, none, 0, false⟩

/-- A signal after a start (R23). -/
def SignalRec.start : SignalRec := ⟨.stop, .unknown, none, 0, false⟩

/-- No restriction on a section. -/
def SecRestr.empty : SecRestr := ⟨false, none⟩
/-- No restriction on a point. -/
def PtRestr.empty : PtRestr := ⟨false, false, false⟩
/-- No restriction on a signal. -/
def SigRestr.empty : SigRestr := ⟨false, false⟩

/-- A slot after a start (R55): FREE, end reason NONE, every other field empty or absent. -/
def Slot.start : Slot :=
  ⟨none, none, none, .free, Holds.empty, .none, [], [], none, none, none, none, [], Marks.empty⟩

/-- A link record after a start (R139). -/
def Link.start : Link :=
  ⟨.down, false, false, none, false, none, 0, none, none, none, List.replicate 16 none, [], 0, none⟩

/-- A port record after a start (R140). -/
def Port.start : Port :=
  ⟨.neutral, none, false, .none, .none, none, .none, none, .none, none, false, .neutral, .unknown⟩

/-- A closed load record (R1). -/
def LoadRecord.closed : LoadRecord := ⟨.closed, 0, none, none, none⟩

/-- The stored image of a new part: blank (log 8). -/
def Stored.blank : Stored := ⟨[], 0, false⟩

/-- The element state table without an image (R42). -/
def Est.empty : Est := ⟨[], [], [], [], [], []⟩

/-- The field link unit without controllers (R43). -/
def Flu.empty : Flu := ⟨[], none, .none, none⟩

/-- The instance table and the route store after a start (R55, R79). -/
def Rsu.start : Rsu := ⟨List.replicate 48 Slot.start, [], none⟩

/-- A state in which a cold start has begun and its start check has not ended (R191), with the given stored image,
queue and free-value counter. R167 and R191 give the holders by the check's outcome only: until the check has ended they are
NONE here, and a warm start that abandons the check keeps that (log 44, DESIGN CHOICE). -/
def State.coldStart (stored : Stored) (freeCount : Nat) (pending : List Instr) : State where
  mdc := ⟨.checking, .unconfigured, .cold, none, none, false, .idle⟩
  sds := ⟨stored, none, 0, none, false, LoadRecord.closed, [], ⟨0, none⟩⟩
  est := Est.empty
  flu := Flu.empty
  rsu := Rsu.start
  bdu := ⟨[], []⟩
  slu := ⟨List.replicate 8 .none, none, none, .draining, [], none, [], [.system], 0, none⟩
  releaseDue := false
  freeCount := freeCount
  pending := pending

/-- The machine right after reset: the supply has risen, the cold start has begun (R191, log 7). -/
def State.reset : State := State.coldStart Stored.blank 0 []

end Sys2Proof.Machine
end

