-- ==== Sys2Proof/Machine/Ops.lean ====
section
/-! DEFINITION. The shared operations on the state: reading records, writing records, locks, claims, movements, aspects,
notice references, replies. -/

namespace Sys2Proof.Machine

/-! ### The active image (R1, R2, R4) -/

/-- The image the blocks read where none is active: every index counts as not defined (R4). -/
def Image.blank : Image := ⟨0, 0, 0, 0, 0, 0, 0, [], [], [], [], [], [], [], []⟩

/-- The active image, blank where none is active. -/
def State.image (s : State) : Image :=
  match s.sds.active with
  | some a => a.image
  | none => Image.blank

/-- A header parameter resolved: "a field holding 0 reads as its default" (R2). -/
def resolved (field dflt : Nat) : Nat := if field = 0 then dflt else field

/-- Setting timeout in s (R2). -/
def State.settingTimeout (s : State) : Nat := resolved s.image.settingField 30
/-- Point throw limit in s (R2). -/
def State.throwLimit (s : State) : Nat := resolved s.image.throwField 8
/-- Missed polls before LOST (R2). -/
def State.missedLimit (s : State) : Nat := resolved s.image.missedField 5
/-- Link timeout in ms (R2). -/
def State.linkTimeoutMs (s : State) : Nat := resolved s.image.linkField 1500
/-- Two-step window in s (R2, R172): 15 s where no image is active. -/
def State.twoStepWindow (s : State) : Nat := resolved s.image.windowField 15
/-- Default store lifetime in s (R2). -/
def State.defaultLifetime (s : State) : Nat := resolved s.image.storeField 120

/-- The section definition with index `i`. -/
def State.secDef (s : State) (i : Nat) : SecDef := s.image.sections.getD i default
/-- The point definition with index `i`. -/
def State.ptDef (s : State) (i : Nat) : PtDef := s.image.points.getD i default
/-- The signal definition with index `i`. -/
def State.sigDef (s : State) (i : Nat) : SigDef := s.image.signals.getD i default
/-- The port definition with index `i`. -/
def State.portDef (s : State) (i : Nat) : PortDef := s.image.ports.getD i default
/-- The link definition with index `i`. -/
def State.linkDef (s : State) (i : Nat) : LinkDef := s.image.links.getD i default
/-- The route definition that carries number `n` (R4). -/
def State.routeDef? (s : State) (n : Nat) : Option RouteDef := s.image.routes.find? fun r => r.number = n

/-- Where no image is active every index counts as not defined (R4). -/
def State.defined (s : State) (e : ElemRef) : Bool :=
  match e.cls with
  | .sect => decide (e.idx < s.image.sections.length)
  | .point => decide (e.idx < s.image.points.length)
  | .signal => decide (e.idx < s.image.signals.length)

/-- The ports of a link in position order, the lower-numbered first (R140). -/
def State.portsOf (s : State) (l : Nat) : List Nat :=
  (List.range s.image.ports.length).filter fun p => (s.portDef p).link = l

/-- A link is equipped when its neighbour identity is not 0 (R4, R9). -/
def State.equipped (s : State) (l : Nat) : Bool := decide ((s.linkDef l).neighbour ≠ 0) && decide (l < s.bdu.links.length)

/-! ### Reading records -/

/-- The section record with index `i`. -/
def State.sec (s : State) (i : Nat) : SectionRec := s.est.sections.getD i SectionRec.start
/-- The point record with index `i`. -/
def State.pt (s : State) (i : Nat) : PointRec := s.est.points.getD i PointRec.start
/-- The signal record with index `i`. -/
def State.sig (s : State) (i : Nat) : SignalRec := s.est.signals.getD i SignalRec.start
/-- The restrictions of section `i`. -/
def State.secRestr (s : State) (i : Nat) : SecRestr := Sparse.get SecRestr.empty s.est.secRestr i
/-- The restrictions of point `i`. -/
def State.ptRestr (s : State) (i : Nat) : PtRestr := Sparse.get PtRestr.empty s.est.ptRestr i
/-- The restrictions of signal `i`. -/
def State.sigRestr (s : State) (i : Nat) : SigRestr := Sparse.get SigRestr.empty s.est.sigRestr i
/-- The instance record of slot `i`. -/
def State.slot (s : State) (i : Nat) : Slot := s.rsu.slots.getD i Slot.start
/-- The link record `l`. -/
def State.link (s : State) (l : Nat) : Link := s.bdu.links.getD l Link.start
/-- The port record `p`. -/
def State.port (s : State) (p : Nat) : Port := s.bdu.ports.getD p Port.start
/-- The route definition of the instance in slot `i`. -/
def State.slotRoute (s : State) (i : Nat) : RouteDef :=
  match (s.slot i).route with
  | some n => (s.routeDef? n).getD default
  | none => default
/-- The holder of an area (R167). -/
def State.holder (s : State) (a : Nat) : Holder := s.slu.holders.getD a .none
/-- The record of a controller address (R43). -/
def State.ctrl? (s : State) (addr : Nat) : Option Ctrl := s.flu.ctrls.find? fun c => c.addr = addr

/-- A live instance is one whose slot is in any state other than FREE (R55). -/
def State.live (s : State) (i : Nat) : Bool := decide ((s.slot i).state ≠ .free)

/-- The slot of the live instance of a route number, if it has one (R59 check 4, R77). -/
def State.liveSlot (s : State) (n : Nat) : Option Nat :=
  (List.range s.rsu.slots.length).find? fun i => s.live i && decide ((s.slot i).route = some n)

/-- The part is HALTED, or LOADING begun from HALTED (R197). -/
def State.haltedNow (s : State) : Bool :=
  decide (s.mdc.mode = .halted) || (decide (s.mdc.mode = .loading) && decide (s.sds.load.origin = some .halted))

/-- The part is OPERATIONAL. -/
def State.operational (s : State) : Bool := decide (s.mdc.mode = .operational)

/-! ### Writing records -/

/-- Changes the section record `i`. -/
def State.modSec (s : State) (i : Nat) (f : SectionRec → SectionRec) : State :=
  { s with est.sections := s.est.sections.modify i f }
/-- Changes the point record `i`. -/
def State.modPt (s : State) (i : Nat) (f : PointRec → PointRec) : State :=
  { s with est.points := s.est.points.modify i f }
/-- Changes the signal record `i`. -/
def State.modSig (s : State) (i : Nat) (f : SignalRec → SignalRec) : State :=
  { s with est.signals := s.est.signals.modify i f }
/-- Writes the restrictions of section `i`. -/
def State.setSecRestr (s : State) (i : Nat) (x : SecRestr) : State :=
  { s with est.secRestr := Sparse.set SecRestr.empty s.est.secRestr i x }
/-- Writes the restrictions of point `i`. -/
def State.setPtRestr (s : State) (i : Nat) (x : PtRestr) : State :=
  { s with est.ptRestr := Sparse.set PtRestr.empty s.est.ptRestr i x }
/-- Writes the restrictions of signal `i`. -/
def State.setSigRestr (s : State) (i : Nat) (x : SigRestr) : State :=
  { s with est.sigRestr := Sparse.set SigRestr.empty s.est.sigRestr i x }
/-- Changes the instance record of slot `i`. -/
def State.modSlot (s : State) (i : Nat) (f : Slot → Slot) : State :=
  { s with rsu.slots := s.rsu.slots.modify i f }
/-- Changes the link record `l`. -/
def State.modLink (s : State) (l : Nat) (f : Link → Link) : State :=
  { s with bdu.links := s.bdu.links.modify l f }
/-- Changes the port record `p`. -/
def State.modPort (s : State) (p : Nat) (f : Port → Port) : State :=
  { s with bdu.ports := s.bdu.ports.modify p f }
/-- Changes entry `e` of link `l`'s remote claim table. -/
def State.setEntry (s : State) (l e : Nat) (x : Option RemoteEntry) : State :=
  s.modLink l fun k => { k with table := k.table.set e x }
/-- Records a release event (R80): a lock released, a claim count falling to 0, or a movement ending. -/
def State.releaseEvent (s : State) : State := { s with releaseDue := true }

/-- Acts on each element of a list in turn. -/
def State.each {α : Type} (s : State) (l : List α) (f : State → α → State) : State := l.foldl f s

/-- Enqueues a reference unless it is in the queue already (R184). -/
def State.note (s : State) (r : Ref) : State :=
  if s.slu.noticeQ.contains r then s else { s with slu.noticeQ := s.slu.noticeQ ++ [r] }

/-! ### Locks (R35)

A release enqueues the element's reference by itself: what the same act locks or claims again has changed all the same (R41). -/

/-- Places or transfers a lock on a section: owner and kind recorded, the section's marks removed (R28, R35). -/
def State.lockSec (s : State) (i : Nat) (o : Owner) (k : Option LockKind) : State :=
  s.modSec i fun r => { r with owner := some o, kind := k, unexpected := false, vanished := false, sequence := false }

/-- Places or transfers a lock on a point with its locked position (R35). -/
def State.lockPt (s : State) (i : Nat) (o : Owner) (k : Option LockKind) (p : Pos) : State :=
  s.modPt i fun r => { r with owner := some o, kind := k, lockedPos := some p }

/-- Locks a signal to a slot as that instance's entry signal (R23, R35). -/
def State.lockSig (s : State) (i slot : Nat) : State := s.modSig i fun r => { r with owner := some slot }

/-- Releases a section's lock where it has the given owner; a release event (R35). -/
def State.freeSec (s : State) (i : Nat) (o : Owner) : State :=
  if (s.sec i).owner = some o then
    ((s.modSec i fun r => { r with owner := none, kind := none }).releaseEvent).note (.sect i)
  else s

/-- Releases a point's lock where it has the given owner; a release event (R35). -/
def State.freePt (s : State) (i : Nat) (o : Owner) : State :=
  if (s.pt i).owner = some o then
    ((s.modPt i fun r => { r with owner := none, kind := none, lockedPos := none }).releaseEvent).note (.point i)
  else s

/-- Releases a signal's entry lock where the given slot holds it; a release event (R35). -/
def State.freeSig (s : State) (i slot : Nat) : State :=
  if (s.sig i).owner = some slot then ((s.modSig i fun r => { r with owner := none }).releaseEvent).note (.signal i) else s

/-! ### Claim counts (R36, R37) -/

/-- The count of the element a claim names; 0 for a port, which has none. -/
def State.claimCount (s : State) : ClaimOn → Nat
  | .point i _ => (s.pt i).claims
  | .signal i => (s.sig i).holds
  | .sect i => (s.sec i).claims
  | .port _ => 0

/-- Placing a claim adds one to its element's count; the entry that raises a point's count from 0 sets its flank claim
position (R36, R37). -/
def State.addCount (s : State) : ClaimOn → State
  | .point i p => s.modPt i fun r =>
      { r with claimPos := if r.claims = 0 then some p else r.claimPos, claims := r.claims + 1 }
  | .signal i => s.modSig i fun r => { r with holds := r.holds + 1 }
  | .sect i => s.modSec i fun r => { r with claims := r.claims + 1 }
  | .port _ => s

/-- Releasing a claim takes one from its element's count; at 0 a point's flank claim position returns to NONE (R36, R37).
The release event of a count falling to 0 is `State.dropCount`'s. -/
def State.takeCount (s : State) : ClaimOn → State
  | .point i _ => s.modPt i fun r =>
      { r with claimPos := if r.claims ≤ 1 then none else r.claimPos, claims := r.claims - 1 }
  | .signal i => s.modSig i fun r => { r with holds := r.holds - 1 }
  | .sect i => s.modSec i fun r => { r with claims := r.claims - 1 }
  | .port _ => s

/-- Enqueues the reference of the element a claim names. -/
def State.noteClaimed (s : State) : ClaimOn → State
  | .point i _ => s.note (.point i)
  | .signal i => s.note (.signal i)
  | .sect i => s.note (.sect i)
  | .port _ => s

/-- Releases a claim: a count that falls to 0 is a release event (R36). -/
def State.dropCount (s : State) (c : ClaimOn) : State :=
  (if s.claimCount c = 1 then (s.takeCount c).releaseEvent else s.takeCount c).noteClaimed c

/-! ### Point movements and aspects (R30, R31, R33) -/

/-- The position as a state at rest. -/
def Pos.rest : Pos → PtState
  | .normal => .normal
  | .reverse => .reverse

/-- The other position. -/
def Pos.other : Pos → Pos
  | .normal => .reverse
  | .reverse => .normal

/-- The other end. -/
def SecEnd.other : SecEnd → SecEnd
  | .a => .b
  | .b => .a

/-- A point movement begins (R30): position MOVING, commanded position P, throw timer at the point throw limit. -/
def State.beginMove (s : State) (i : Nat) (p : Pos) : State :=
  let ms := s.throwLimit * 1000
  s.modPt i fun r => { r with pos := .moving, commanded := some p, throwMs := some ms }

/-- A movement begins where the point is at rest in the position other than `p` (R65 step 5, R96). -/
def State.moveIfOther (s : State) (i : Nat) (p : Pos) : State :=
  if (s.pt i).pos = p.other.rest then s.beginMove i p else s

/-- Commands an aspect (R33). -/
def State.setAspect (s : State) (i : Nat) (a : Aspect) : State := s.modSig i fun r => { r with commanded := a }

/-! ### Notices, frames (R182, R184) -/

/-- Places a frame in the response queue (R182). -/
def State.respond (s : State) (f : Frame) : State := { s with slu.respQ := s.slu.respQ ++ [f] }

/-- Makes a fault report unless the response queue holds 8 frames, or 7 while a command is in progress (R182). -/
def State.faultReport (s : State) (f : Faults) (h : Option (Nat × Nat × Nat)) : State :=
  let n := s.slu.respQ.length
  if Config.responseDepth ≤ n ∨ (n = Config.responseDepth - 1 ∧ s.slu.inProgress.isSome) then s
  else s.respond (.faultReport f h)

/-- The gate of an originator (R172). -/
def State.gate (s : State) : Originator → Option Gate
  | .centre => s.slu.gateCentre
  | .panel => s.slu.gatePanel

/-- Writes the gate of an originator (R172). -/
def State.setGate (s : State) (o : Originator) (g : Option Gate) : State :=
  match o with
  | .centre => { s with slu.gateCentre := g }
  | .panel => { s with slu.gatePanel := g }

/-- The holder an originator is as. -/
def ownHolder : Originator → Holder
  | .centre => .centre
  | .panel => .panel

/-- The originator's code in a header (12), and in a REPLY's payload (log 22, DESIGN CHOICE). -/
def originatorCode : Originator → Nat
  | .centre => 1
  | .panel => 2

/-- The originator holds the area (R168). -/
def State.holds (s : State) (o : Originator) (area : Nat) : Bool := decide (s.holder area = ownHolder o)

end Sys2Proof.Machine
end

