-- ==== Sys2Proof/Machine/Clock.lean ====
section
/-! DEFINITION. One millisecond of time: what a step does on an empty queue (log 1). -/

namespace Sys2Proof.Machine

/-- A running timer falls by one millisecond; it stands at 0 until its expiry comes (log 1). -/
def fall (t : Option Nat) : Option Nat := t.map fun n => n - 1

/-- One millisecond of a point record (R22's throw timer). -/
def PointRec.tick (r : PointRec) : PointRec := { r with throwMs := fall r.throwMs }

/-- One millisecond of an instance record (R55's timer). -/
def Slot.tick (r : Slot) : Slot := { r with timerMs := fall r.timerMs }

/-- One millisecond of a store entry's lifetime (R79). -/
def StoreEntry.tick (r : StoreEntry) : StoreEntry := { r with lifeMs := r.lifeMs - 1 }

/-- One millisecond of a gate's window (R172). -/
def Gate.tick (g : Gate) : Gate := { g with leftMs := g.leftMs - 1 }

/-- One millisecond of a link's timeout timer and of the time since its last telegram (R139, R141). -/
def Link.tick (k : Link) : Link := { k with timeoutMs := fall k.timeoutMs, sinceMs := k.sinceMs.map (· + 1) }

/-- One millisecond passes: every running timer moves, nothing else changes (log 1). Without supply, in reset and during
the start check no timer runs (R191, R192). -/
def State.tick (s : State) : State :=
  if s.mdc.power ≠ .running then s else
  { s with
    mdc.startupMs := fall s.mdc.startupMs
    sds.verifyMs := fall s.sds.verifyMs
    est.points := s.est.points.map PointRec.tick
    rsu.slots := s.rsu.slots.map Slot.tick
    rsu.store := s.rsu.store.map StoreEntry.tick
    bdu.links := s.bdu.links.map Link.tick
    slu.gateCentre := s.slu.gateCentre.map Gate.tick
    slu.gatePanel := s.slu.gatePanel.map Gate.tick }

end Sys2Proof.Machine
end

