-- ==== Sys2Proof/Machine/Flags.lean ====
section
/-! DEFINITION. What follows from the records at each moment and is not stored: proven, intact, pending points, hold causes,
the test for clearing, the occupied approach. -/

namespace Sys2Proof.Machine

/-! ### Signals (R23) -/

/-- The reported aspect equals the commanded aspect (R23). -/
def SignalRec.proven (r : SignalRec) : Bool :=
  match r.commanded, r.reported with
  | .stop, .stop => true
  | .proceed, .proceed => true
  | .restricted, .restricted => true
  | _, _ => false

/-- Proven STOP: both aspects STOP (R23, R86). -/
def SignalRec.provenStop (r : SignalRec) : Bool := decide (r.commanded = .stop) && r.proven

/-- The controller of signal `i` is LOST (R60, R73). -/
def State.sigCtrlLost (s : State) (i : Nat) : Bool :=
  match s.ctrl? (s.sigDef i).ctrl with
  | some c => decide (c.state = .lost)
  | none => false

/-! ### Points and sections -/

/-- The point is at rest in `p`. -/
def State.atRest (s : State) (i : Nat) (p : Pos) : Bool := decide ((s.pt i).pos = p.rest)

/-- The section is CLEAR. -/
def State.secClear (s : State) (i : Nat) : Bool := decide ((s.sec i).occ = .clear)

/-! ### Links and remote requests -/

/-- The link is UP. -/
def State.linkUp (s : State) (l : Nat) : Bool := decide ((s.link l).state = .up)

/-- The request is GRANTED. -/
def RemoteReq.granted (r : RemoteReq) : Bool := decide (r.status = .granted)

/-- The request is the PORT_FLANK request on this port (R97). -/
def RemoteReq.flankOn (r : RemoteReq) (p : Nat) : Bool :=
  match r.what with
  | .ask a => a.flank && decide (a.idx = p)
  | .acceptance _ => false

/-- The shared PORT_FLANK request of the instance in slot `i` on port `p` is GRANTED (R97). -/
def State.flankGranted (s : State) (i p : Nat) : Bool := (s.slot i).remote.any fun r => r.flankOn p && r.granted

/-! ### Intact entries (R82) -/

/-- A claim naming an element asks what its element does (R82); for a port there is no element. -/
def State.elemIntact (s : State) : ClaimOn → Bool
  | .point i p => s.atRest i p
  | .signal i => (s.sig i).provenStop && !(s.sig i).lamp
  | .sect i => s.secClear i
  | .port _ => true

/-- An entry of slot `i`'s list is intact (R82): a PORT_FLANK entry while its shared request is GRANTED and the link UP. -/
def State.intact (s : State) (i : Nat) : ClaimOn → Bool
  | .port p => s.flankGranted i p && s.linkUp (s.portDef p).link
  | c => s.elemIntact c

/-- An entry of slot `i`'s list is proven (R69): as R82 has it, but of a PORT_FLANK entry the request GRANTED alone; R69 and R71
ask for its link beside it, with every remote request's. -/
def State.flankProven (s : State) (i : Nat) : ClaimOn → Bool
  | .port p => s.flankGranted i p
  | c => s.elemIntact c

/-! ### Routes -/

/-- The path and overlap points of a route with their required positions, path points first. -/
def RouteDef.points (d : RouteDef) : List (Nat × Pos) :=
  (d.pathPoints.map fun p => (p.pt, p.pos)) ++ d.overlapPoints

/-- The path and overlap sections of a route, path first. -/
def RouteDef.sections (d : RouteDef) : List Nat := d.path ++ d.overlapSecs

/-- A route belongs to the area of its entry signal (R11). -/
def State.routeArea (s : State) (d : RouteDef) : Nat := (s.sigDef d.entry).area

/-- The points POINT_POSITION entries name, with their positions. -/
def claimedPoints (cs : List Claim) : List (Nat × Pos) :=
  cs.filterMap fun c => match c.what with
    | .point i p => some (i, p)
    | _ => none

/-- The pending points of the instance in slot `i` (R55, R67): distinct, path points, overlap points, claim list. -/
def State.pendingOf (s : State) (i : Nat) : List Nat :=
  let need := (s.slotRoute i).points ++ claimedPoints (s.slot i).claims
  ((need.filter fun q => !s.atRest q.1 q.2).map Prod.fst).eraseDups

/-- A cause stands on the entry signal (R73: LAMP, NO_CLEAR, CONTROLLER). -/
def State.entryCause (s : State) (sig : Nat) : Bool :=
  (s.sig sig).lamp || (s.sigRestr sig).noClear || s.sigCtrlLost sig

/-- Every remote request of the instance is GRANTED and its link UP (R69, R73). -/
def State.neighboursGrant (s : State) (i : Nat) : Bool :=
  (s.slot i).remote.all fun r => r.granted && s.linkUp r.link

/-- The test of R69 whether an instance in SETTING may clear; its flank item is a test of intactness (R82, log 18). -/
def State.clearTest (s : State) (i : Nat) : Bool :=
  let d := s.slotRoute i
  (s.pendingOf i).isEmpty
    && ((s.slot i).claims.all fun c => s.intact i c.what)
    && s.neighboursGrant i
    && (d.sections.all fun k => s.secClear k)
    && !s.entryCause d.entry
    && s.operational

/-- The SECTION cause (R73): a path or overlap section DISTURBED, or OCCUPIED unless it is path section 0 in CLEARED. -/
def State.sectionCause (s : State) (i : Nat) (d : RouteDef) : Bool :=
  (d.sections.any fun k => decide ((s.sec k).occ = .disturbed))
    || ((d.sections.drop 1).any fun k => decide ((s.sec k).occ = .occupied))
    || (decide ((s.slot i).state ≠ .cleared)
        && ((d.sections.take 1).any fun k => decide ((s.sec k).occ = .occupied)))

/-- The hold causes that stand for the instance in slot `i` (R73); FLANK is a test of intactness (R82, R100, log 18). -/
def State.causes (s : State) (i : Nat) : Holds :=
  let d := s.slotRoute i
  { point := d.points.any fun q => !s.atRest q.1 q.2
    sect := s.sectionCause i d
    flank := (s.slot i).claims.any fun c => !s.intact i c.what
    neighbour := !s.neighboursGrant i
    lamp := (s.sig d.entry).lamp
    noClear := (s.sigRestr d.entry).noClear
    controller := s.sigCtrlLost d.entry
    halted := s.haltedNow }

/-- The part's answer to the neighbour's acceptance request on the port is GRANTED (R110, R156). -/
def Port.incGranted (p : Port) : Bool :=
  match p.inc with
  | .waiting => true
  | .receiving => true
  | .completed => true
  | _ => false

/-- The approach of an instance is occupied (R110). -/
def State.approachOccupied (s : State) (i : Nat) : Bool :=
  match (s.slot i).figures with
  | none => true
  | some f =>
    let secs := (s.slotRoute i).chain.take f.k
    f.short
      || (secs.any fun k => !s.secClear k)
      || ((List.range s.bdu.ports.length).any fun p => secs.contains (s.portDef p).sec && (s.port p).incGranted)

/-- A live instance of an EXIT route targets the port (R148). -/
def State.exitTargets (s : State) (p : Nat) : Bool :=
  (List.range s.rsu.slots.length).any fun i =>
    s.live i && decide ((s.slot i).kind = some .exit) && decide ((s.slotRoute i).exit = p)

/-- The direction conditions of a port (R148). -/
def State.directionConditions (s : State) (p : Nat) : Bool :=
  s.linkUp (s.portDef p).link && !s.exitTargets p && !(s.port p).incGranted && s.secClear (s.portDef p).sec

/-! ### Changes between two states of one act (R41, R122) -/

/-- The section changed into OCCUPIED in the act. -/
def becameOccupied (old s : State) (k : Nat) : Bool :=
  decide ((old.sec k).occ ≠ .occupied) && decide ((s.sec k).occ = .occupied)

/-- The section changed into CLEAR in the act. -/
def becameClear (old s : State) (k : Nat) : Bool :=
  decide ((old.sec k).occ ≠ .clear) && decide ((s.sec k).occ = .clear)

/-- The section completed a sweep in the act (R26). -/
def sweptClear (old s : State) (k : Nat) : Bool :=
  decide ((old.sec k).occ = .disturbed) && (old.sec k).sweep && decide ((s.sec k).occ = .clear)

/-- The occupancy of the section changed in the act. -/
def occChanged (old s : State) (k : Nat) : Bool := decide ((old.sec k).occ ≠ (s.sec k).occ)

/-- The neighbour's boundary section at a port changed to OCCUPIED in the act (R132). -/
def nbBecameOccupied (old s : State) (p : Nat) : Bool :=
  decide ((old.port p).nbSec ≠ .occupied) && decide ((s.port p).nbSec = .occupied)

/-- The neighbour's boundary section at a port changed in the act (R122). -/
def nbChanged (old s : State) (p : Nat) : Bool := decide ((old.port p).nbSec ≠ (s.port p).nbSec)

end Sys2Proof.Machine
end

