-- ==== Sys2Proof/Machine/Codec.lean ====
section
/-! DEFINITION. Byte order and the two check sequences (R198). -/

namespace Sys2Proof.Machine

/-- The byte that carries a small number. -/
def byteOf (n : Nat) : Byte := BitVec.ofNat 8 n

/-- A number of two bytes, most significant byte first (R198). -/
def be16 (n : Nat) : List Byte := [byteOf (n / 256), byteOf n]

/-- A number of four bytes, most significant byte first (R198). -/
def be32 (n : Nat) : List Byte := be16 (n / 65536) ++ be16 n

/-- The number at byte `i` (0 past the end). -/
def u8 (bs : List Byte) (i : Nat) : Nat := (bs.getD i 0).toNat

/-- The two-byte number at byte `i`, most significant byte first. -/
def u16 (bs : List Byte) (i : Nat) : Nat := u8 bs i * 256 + u8 bs (i + 1)

/-- The four-byte number at byte `i`, most significant byte first. -/
def u32 (bs : List Byte) (i : Nat) : Nat := u16 bs i * 65536 + u16 bs (i + 2)

/-- One bit of the CRC-16: polynomial 1021 hex, not reflected. -/
def crc16Bit (c : Crc16) : Crc16 :=
  if c &&& 0x8000#16 = 0#16 then c <<< 1 else (c <<< 1) ^^^ 0x1021#16

/-- One byte of the CRC-16. -/
def crc16Byte (c : Crc16) (b : Byte) : Crc16 :=
  Nat.repeat crc16Bit 8 (c ^^^ (b.setWidth 16 <<< 8))

/-- CRC-16 (R198): polynomial 1021 hex, preset FFFF hex, not reflected, no final inversion. -/
def crc16 (bs : List Byte) : Crc16 := bs.foldl crc16Byte 0xFFFF#16

/-- One bit of the CRC-32: polynomial 04C11DB7 hex in its reflected form. -/
def crc32Bit (c : Crc32) : Crc32 :=
  if c &&& 1#32 = 0#32 then c >>> 1 else (c >>> 1) ^^^ 0xEDB88320#32

/-- One byte of the CRC-32. -/
def crc32Byte (c : Crc32) (b : Byte) : Crc32 :=
  Nat.repeat crc32Bit 8 (c ^^^ b.setWidth 32)

/-- CRC-32 (R198): polynomial 04C11DB7 hex, preset FFFFFFFF hex, input and output reflected, final inversion. -/
def crc32 (bs : List Byte) : Crc32 := bs.foldl crc32Byte 0xFFFFFFFF#32 ^^^ 0xFFFFFFFF#32

/-- A CRC-16 on the line: high byte first (R198). -/
def crc16Bytes (c : Crc16) : List Byte := be16 c.toNat

/-- A CRC-32 at the end of a telegram: low byte first (R198). -/
def crc32Bytes (c : Crc32) : List Byte := (be32 c.toNat).reverse

end Sys2Proof.Machine
end

