-- ==== Sys2Proof/Machine/ImageRead.lean ====
section
/-! DEFINITION. Reading the station data image (R2 to R11, layouts of 12_frame_and_record_layouts.md): each record's reader
answers none where a field lies outside its range (check 3 of R15). -/

namespace Sys2Proof.Machine

/-! ### Ranges -/

/-- `n` where it lies from `lo` to `hi`. -/
def inRange (lo hi n : Nat) : Option Nat := if lo ≤ n ∧ n ≤ hi then some n else none

/-- `n` where it is below `bound`. -/
def below (bound n : Nat) : Option Nat := if n < bound then some n else none

/-- The value at a code's position in its list (R198). -/
def coded {α : Type} (l : List α) (n : Nat) : Option α := l[n]?

/-- Section ends: A, B. -/
def readEnd : Nat → Option SecEnd := coded [.a, .b]
/-- Point legs: TIP, NORMAL, REVERSE. -/
def readLeg : Nat → Option Leg := coded [.tip, .normal, .reverse]
/-- Positions: NORMAL, REVERSE. -/
def readPos : Nat → Option Pos := coded [.normal, .reverse]
/-- Element classes: section, point, signal. -/
def readCls : Nat → Option Cls := coded [.sect, .point, .signal]
/-- Holders: CENTRE, PANEL, NONE. -/
def readHolder : Nat → Option Holder := coded [.centre, .panel, .none]
/-- Route kinds: MAIN, SHUNT, EXIT. -/
def readKind : Nat → Option RouteKind := coded [.main, .shunt, .exit]
/-- Required states: CLEAR, NORMAL, REVERSE, STOP. -/
def readReqState : Nat → Option ReqState := coded [.clear, .normal, .reverse, .stop]

/-- The number of indices of a class (00_scope.md, Conventions). -/
def classBound : Cls → Nat
  | .sect => Config.maxSections
  | .point => Config.maxPoints
  | .signal => Config.maxSignals

/-- An index of a class in its class range. -/
def readElem (c i : Nat) : Option ElemRef := do
  let cls ← readCls c
  let idx ← below (classBound cls) i
  return ⟨cls, idx⟩

/-- A required state fits its class: section CLEAR, point NORMAL or REVERSE, signal STOP (R11). -/
def stateFits : Cls → ReqState → Bool
  | .sect, .clear => true
  | .point, .normal => true
  | .point, .reverse => true
  | .signal, .stop => true
  | _, _ => false

/-! ### Cutting bytes -/

/-- `n` records of `k` bytes each. -/
def chunks (k : Nat) : Nat → List Byte → List (List Byte)
  | 0, _ => []
  | n + 1, bs => bs.take k :: chunks k n (bs.drop k)

/-- A list in a route definition: one count byte and that many entries of `k` bytes (R198); none where it runs out. -/
def takeList (k : Nat) (bs : List Byte) : Option (List (List Byte) × List Byte) :=
  match bs with
  | [] => none
  | c :: rest =>
    let n := c.toNat * k
    if rest.length < n then none else some (chunks k c.toNat rest, rest.drop n)

/-! ### Records -/

/-- The counts of the header (R2). -/
structure Counts where
  controllers : Nat
  sections : Nat
  points : Nat
  signals : Nat
  ports : Nat
  routes : Nat
  deriving DecidableEq, Repr

/-- The counts as the header's bytes give them. -/
def readCounts (bs : List Byte) : Counts := ⟨u8 bs 12, u8 bs 13, u8 bs 14, u8 bs 15, u8 bs 16, u16 bs 17⟩

/-- A header parameter is 0 or lies in its range (R2). -/
def paramOk (lo hi n : Nat) : Bool := decide (n = 0) || decide (lo ≤ n ∧ n ≤ hi)

/-- The header's fields lie in their ranges (R2). -/
def headerRanges (bs : List Byte) : Bool :=
  let c := readCounts bs
  decide (19 ≤ bs.length)
    && paramOk 10 120 (u8 bs 4) && paramOk 3 15 (u8 bs 5) && paramOk 3 20 (u8 bs 6)
    && paramOk 500 5000 (u16 bs 7) && paramOk 5 30 (u8 bs 9) && paramOk 10 600 (u16 bs 10)
    && decide (c.controllers ≤ 48) && decide (1 ≤ c.sections) && decide (c.sections ≤ 240)
    && decide (c.points ≤ 96) && decide (c.signals ≤ 160) && decide (c.ports ≤ 8) && decide (c.routes ≤ 512)

/-- A controller address: 1–48 (R3). -/
def readController (bs : List Byte) : Option Nat := inRange 1 48 (u8 bs 0)

/-- A section end's connection: form, index, end or leg (R5). -/
def readConn (f i x : Nat) : Option Conn :=
  match f with
  | 0 => do return .joint (← below Config.maxSections i) (← readEnd x)
  | 1 => do return .leg (← below Config.maxPoints i) (← readLeg x)
  | 2 => do return .port (← below Config.maxPorts i)
  | 3 => some .buffer
  | _ => none

/-- A section record (R5). -/
def readSection (bs : List Byte) : Option SecDef := do
  let length ← inRange 10 3000 (u16 bs 0)
  let endA ← readConn (u8 bs 2) (u8 bs 3) (u8 bs 4)
  let endB ← readConn (u8 bs 5) (u8 bs 6) (u8 bs 7)
  let ctrl ← inRange 1 48 (u8 bs 8)
  let chan ← below 16 (u8 bs 9)
  let area ← below 8 (u8 bs 10)
  return ⟨length, endA, endB, ctrl, chan, area⟩

/-- A point record (R6). -/
def readPoint (bs : List Byte) : Option PtDef := do
  let tip ← below Config.maxSections (u8 bs 0)
  let normal ← below Config.maxSections (u8 bs 1)
  let reverse ← below Config.maxSections (u8 bs 2)
  let fouling ← below Config.maxSections (u8 bs 3)
  let ctrl ← inRange 1 48 (u8 bs 4)
  let chan ← below 16 (u8 bs 5)
  let area ← below 8 (u8 bs 6)
  return ⟨tip, normal, reverse, fouling, ctrl, chan, area⟩

/-- A signal record (R7). -/
def readSignal (bs : List Byte) : Option SigDef := do
  let sec ← below Config.maxSections (u8 bs 0)
  let e ← readEnd (u8 bs 1)
  let ctrl ← inRange 1 48 (u8 bs 2)
  let chan ← below 16 (u8 bs 3)
  let area ← below 8 (u8 bs 4)
  return ⟨sec, e, ctrl, chan, area⟩

/-- A port record (R8). -/
def readPort (bs : List Byte) : Option PortDef := do
  let link ← below Config.maxLinks (u8 bs 0)
  let sec ← below Config.maxSections (u8 bs 1)
  let e ← readEnd (u8 bs 2)
  let yields ← coded [false, true] (u8 bs 3)
  return ⟨link, sec, e, yields⟩

/-- A link record (R9): the neighbour 0–65,534, other than the part's own identity, and a window without repeats. Unused
slots are not read (log 26). -/
def readLink (own : Nat) (bs : List Byte) : Option LinkDef := do
  let neighbour ← below 65535 (u16 bs 0)
  let n ← below 17 (u8 bs 2)
  let window ← (chunks 2 n (bs.drop 3)).mapM fun w => readElem (u8 w 0) (u8 w 1)
  if decide window.Nodup && decide (neighbour = 0 ∨ neighbour ≠ own) then return ⟨neighbour, window⟩ else none

/-- A control area record (R10). -/
def readArea (bs : List Byte) : Option Holder := readHolder (u8 bs 0)

/-- A path point entry of a route (R11). -/
def readPathPoint (w : List Byte) : Option PathPoint := do
  return ⟨← below Config.maxPoints (u8 w 0), ← readPos (u8 w 1), u8 w 2⟩

/-- An overlap point entry of a route (R11). -/
def readOverlapPoint (w : List Byte) : Option (Nat × Pos) := do
  return (← below Config.maxPoints (u8 w 0), ← readPos (u8 w 1))

/-- A remote overlap item of a route (R11). -/
def readRemoteItem (w : List Byte) : Option RemoteItem := do
  let link ← below Config.maxLinks (u8 w 0)
  let e ← readElem (u8 w 1) (u8 w 2)
  let st ← readReqState (u8 w 3)
  if stateFits e.cls st then return ⟨link, e.cls, e.idx, st⟩ else none

/-- A section entry of a route list. -/
def readSecEntry (w : List Byte) : Option Nat := below Config.maxSections (u8 w 0)

/-- The exit of a route in its class range: a port for EXIT, a signal otherwise (R11). -/
def readExit (k : RouteKind) (n : Nat) : Option Nat :=
  match k with
  | .exit => below Config.maxPorts n
  | _ => below Config.maxSignals n

/-- The kind-dependent top of the speed range (R11). -/
def topSpeed : RouteKind → Nat
  | .shunt => 40
  | _ => 250

/-- The kind-dependent top of the overlap time (R11). -/
def topOverlapTime : RouteKind → Nat
  | .shunt => 0
  | _ => 180

/-- A route definition (R11); its record length counts the whole record. A record whose length differs from 12 plus its lists,
with bytes left over or a list that runs out, is none: it fails check 3 under its route number (log 24, DESIGN CHOICE: R15 names no
check for it). -/
def readRoute (bs : List Byte) : Option RouteDef := do
  let number ← inRange 1 Config.maxRoutes (u16 bs 0)
  let kind ← readKind (u8 bs 3)
  let entry ← below Config.maxSignals (u8 bs 4)
  let exit ← readExit kind (u8 bs 5)
  let overlapTime ← inRange 0 (topOverlapTime kind) (u8 bs 6)
  let speed ← inRange 10 (topSpeed kind) (u8 bs 7)
  let decel ← inRange 30 120 (u8 bs 8)
  let sight ← inRange 0 500 (u16 bs 9)
  let reaction ← inRange 0 30 (u8 bs 11)
  let (path, r1) ← takeList 1 (bs.drop 12)
  let (pathPoints, r2) ← takeList 3 r1
  let (overlapSecs, r3) ← takeList 1 r2
  let (overlapPoints, r4) ← takeList 2 r3
  let (remoteItems, r5) ← takeList 4 r4
  let (chain, r6) ← takeList 1 r5
  if r6 ≠ [] then none else
  return { number, kind, entry, exit, overlapTime, speed, decel, sight, reaction,
           path := ← path.mapM readSecEntry
           pathPoints := ← pathPoints.mapM readPathPoint
           overlapSecs := ← overlapSecs.mapM readSecEntry
           overlapPoints := ← overlapPoints.mapM readOverlapPoint
           remoteItems := ← remoteItems.mapM readRemoteItem
           chain := ← chain.mapM readSecEntry }

/-- The route definitions' bytes, record by record, and what stands after the last; none where a record runs beyond the
bytes. A record whose length byte does not even cover the number and itself keeps its number, fails check 3, and is the last
that is cut: where the next would begin is not known (log 24, DESIGN CHOICE). -/
def routeRecords : Nat → List Byte → Option (List (List Byte) × List Byte)
  | 0, bs => some ([], bs)
  | n + 1, bs =>
    let len := u8 bs 2
    if bs.length < 3 ∨ bs.length < len then none
    else if len < 3 then some ([bs.take 3], [])
    else do
      let (rs, rest) ← routeRecords n (bs.drop len)
      return (bs.take len :: rs, rest)

/-- The records of an image as bytes. -/
structure RawImage where
  header : List Byte
  controllers : List (List Byte)
  sections : List (List Byte)
  points : List (List Byte)
  signals : List (List Byte)
  ports : List (List Byte)
  links : List (List Byte)
  areas : List (List Byte)
  routes : List (List Byte)
  rest : List Byte
  deriving DecidableEq, Repr

/-- Cuts the image into records in the order of R15's walk; none where the counts put a record beyond its end. -/
def cutImage (bs : List Byte) : Option RawImage :=
  let c := readCounts bs
  let r0 := bs.drop 19
  let r1 := r0.drop c.controllers
  let r2 := r1.drop (c.sections * 11)
  let r3 := r2.drop (c.points * 7)
  let r4 := r3.drop (c.signals * 5)
  let r5 := r4.drop (c.ports * 4)
  let r6 := r5.drop 140
  let r7 := r6.drop 8
  if r6.length < 8 then none else do
    let (routes, rest) ← routeRecords c.routes r7
    return { header := bs.take 19, controllers := chunks 1 c.controllers r0, sections := chunks 11 c.sections r1,
             points := chunks 7 c.points r2, signals := chunks 5 c.signals r3, ports := chunks 4 c.ports r4,
             links := chunks 35 4 r5, areas := chunks 1 8 r6, routes, rest }

/-- The image that the records give (each record that reads; all of them once check 3 has passed). -/
def RawImage.image (r : RawImage) : Image :=
  { identity := u16 r.header 0
    settingField := u8 r.header 4
    throwField := u8 r.header 5
    missedField := u8 r.header 6
    linkField := u16 r.header 7
    windowField := u8 r.header 9
    storeField := u16 r.header 10
    controllers := r.controllers.filterMap readController
    sections := r.sections.filterMap readSection
    points := r.points.filterMap readPoint
    signals := r.signals.filterMap readSignal
    ports := r.ports.filterMap readPort
    links := r.links.filterMap (readLink (u16 r.header 0))
    areas := r.areas.filterMap readArea
    routes := r.routes.filterMap readRoute }

/-- The image the bytes give: blank where they cannot be cut. -/
def readImage (bs : List Byte) : Image :=
  match cutImage bs with
  | some r => r.image
  | none => ⟨0, 0, 0, 0, 0, 0, 0, [], [], [], [], [], [], [], []⟩

end Sys2Proof.Machine
end

