-- ==== Sys2Proof/Machine/ImageChecks.lean ====
section
/-! DEFINITION. The ten structural checks of the station data image (R12, R15). -/

namespace Sys2Proof.Machine

/-! ### Geometry (R12) -/

/-- The connection of a section's end. -/
def Image.conn (m : Image) (s : Nat) (e : SecEnd) : Conn :=
  let d := m.sections.getD s default
  match e with
  | .a => d.endA
  | .b => d.endB

/-- The section a point names at a leg. -/
def PtDef.at (d : PtDef) : Leg → Nat
  | .tip => d.tip
  | .normal => d.normal
  | .reverse => d.reverse

/-- The branch leg a position joins to the TIP (R6). -/
def Pos.leg : Pos → Leg
  | .normal => .normal
  | .reverse => .reverse

/-- Two section ends adjoin directly: each names the other by JOINT (R12). -/
def Image.joined (m : Image) (s : Nat) (e : SecEnd) (t : Nat) (f : SecEnd) : Bool :=
  decide (m.conn s e = .joint t f) && decide (m.conn t f = .joint s e)

/-- Two section ends adjoin through point `p` in position `x` (R12). -/
def Image.throughPoint (m : Image) (p : Nat) (x : Pos) (s : Nat) (e : SecEnd) (t : Nat) (f : SecEnd) : Bool :=
  (decide (m.conn s e = .leg p .tip) && decide (m.conn t f = .leg p x.leg))
    || (decide (m.conn s e = .leg p x.leg) && decide (m.conn t f = .leg p .tip))

/-- How two ends adjoin, with the listed points: none where they do not; some none directly; some of the point else. -/
def Image.adjoin (m : Image) (pts : List (Nat × Pos)) (s : Nat) (e : SecEnd) (t : Nat) (f : SecEnd) :
    Option (Option (Nat × Pos)) :=
  if m.joined s e t f then some none
  else (pts.find? fun q => m.throughPoint q.1 q.2 s e t f).map some

/-- Two ends adjoin directly or through any point in either position (R12, approach chain). -/
def Image.adjoinAny (m : Image) (s : Nat) (e : SecEnd) (t : Nat) (f : SecEnd) : Bool :=
  m.joined s e t f || ((List.range m.points.length).any fun p =>
    m.throughPoint p .normal s e t f || m.throughPoint p .reverse s e t f)

/-- Follows sections from the far end `e` of section `s`: each next section adjoins, entered by one end and left by the
other. Answers the points passed, the last section and its far end; none where the way breaks. -/
def Image.follow (m : Image) (pts : List (Nat × Pos)) : List Nat → Nat → SecEnd → Option (List (Nat × Pos) × Nat × SecEnd)
  | [], s, e => some ([], s, e)
  | t :: rest, s, e =>
    let way (f : SecEnd) (r : Option (List (Nat × Pos) × Nat × SecEnd)) :=
      (m.adjoin pts s e t f).bind fun via => r.map fun x => (via.toList ++ x.1, x.2)
    (way .a (m.follow pts rest t .b)).or (way .b (m.follow pts rest t .a))

/-- The path points of a route with their positions. -/
def RouteDef.pathPos (d : RouteDef) : List (Nat × Pos) := d.pathPoints.map fun p => (p.pt, p.pos)

/-- How the entry signal's end adjoins the rear end `e` of path section 0 (R12). -/
def Image.entryJoin (m : Image) (d : RouteDef) (e : SecEnd) : Option (Option (Nat × Pos)) :=
  let g := m.signals.getD d.entry default
  m.adjoin d.pathPos g.sec g.e (d.path.getD 0 0) e

/-- The point met between the entry signal's section and the rear end `e` of path section 0 (R12): by the signal's own end, else
by either end of that section, since what the path passes does not depend on where the signal stands (check 7 tests that). -/
def Image.entryPassed (m : Image) (d : RouteDef) (e : SecEnd) : List (Nat × Pos) :=
  let k := (m.signals.getD d.entry default).sec
  let t := d.path.getD 0 0
  ((((m.entryJoin d e).or (m.adjoin d.pathPos k .a t e)).or (m.adjoin d.pathPos k .b t e)).getD none).toList

/-- What the geometry of a route comes to: the rear end of path section 0, the far end of the last path section, and the
points its path and its overlap pass. -/
structure Geometry where
  rear : SecEnd
  far : SecEnd
  passed : List (Nat × Pos)
  overlapPassed : List (Nat × Pos)
  deriving DecidableEq, Repr

/-- The geometry with `rear` as the rear end of path section 0; none where the path or the overlap breaks. -/
def Image.geometryFrom (m : Image) (d : RouteDef) (rear : SecEnd) : Option Geometry := do
  let first ← d.path.head?
  let (passed, last, far) ← m.follow d.pathPos d.path.tail first rear.other
  let (beyond, _, _) ← m.follow d.overlapPoints d.overlapSecs last far
  return ⟨rear, far, m.entryPassed d rear ++ passed, beyond⟩

/-- The end `e` of path section 0 adjoins an end of the entry signal's section, directly or through any point, listed or not:
R12's adjoining asks for no listing (checks 6 and 7 do). -/
def Image.meetsEntry (m : Image) (d : RouteDef) (e : SecEnd) : Bool :=
  let k := (m.signals.getD d.entry default).sec
  m.adjoinAny k .a (d.path.getD 0 0) e || m.adjoinAny k .b (d.path.getD 0 0) e

/-- The rear ends to try: of a path of one section the end that adjoins the entry signal's section, where one alone does
(R12); of a longer path the one whose other end leads on; where both ends are left, one that adjoins the entry signal's end
first (log 25). -/
def Image.rears (m : Image) (d : RouteDef) : List SecEnd :=
  if d.path.length = 1 && m.meetsEntry d .a != m.meetsEntry d .b then (if m.meetsEntry d .a then [.a] else [.b])
  else if (m.entryJoin d .a).isNone && (m.entryJoin d .b).isSome then [.b, .a] else [.a, .b]

/-- The geometry of a route (R12). -/
def Image.geometry (m : Image) (d : RouteDef) : Option Geometry := (m.rears d).findSome? fun e => m.geometryFrom d e

/-! ### Check 3: ranges -/

/-- The place of a list's elements, with `k` the first index. -/
def numbered {α : Type} (l : List α) : List (Nat × α) := (List.range l.length).zip l

/-- The records of a class that the reader refuses. -/
def unread {α : Type} (c : RecClass) (read : List Byte → Option α) (l : List (List Byte)) : List (RecClass × Nat) :=
  ((numbered l).filter fun r => (read r.2).isNone).map fun r => (c, r.1)

/-- The members of a list that stand in it before already, by place: of two equal ones the later is the record that fails
(R15 does not say which, log 24: DESIGN CHOICE). -/
def repeats {α : Type} [DecidableEq α] : List α → Nat → List α → List Nat
  | _, _, [] => []
  | seen, n, x :: rest => if seen.contains x then n :: repeats seen (n + 1) rest else repeats (x :: seen) (n + 1) rest

/-- Puts a number in its place. -/
def insertNat (n : Nat) : List Nat → List Nat
  | [] => [n]
  | m :: rest => if n ≤ m then n :: m :: rest else m :: insertNat n rest

/-- Numbers in ascending order (R15: route definitions in ascending route number). -/
def ascending (l : List Nat) : List Nat := l.foldr insertNat []

/-- The route numbers whose records fail check 3, in ascending order: a field out of range, a number that appears twice, the last
record ending before the image's end (`short`). -/
def badRoutes (rs : List (List Byte)) (short : Bool) : List Nat :=
  let nums := rs.map fun r => u16 r 0
  ascending (((rs.filter fun r => (readRoute r).isNone).map fun r => u16 r 0)
    ++ ((repeats [] 0 (ascending nums)).filterMap fun k => (ascending nums)[k]?)
    ++ if short then nums.getLast?.toList else [])

/-- The control areas that fail check 3: a field out of range, or area 7 as the last record of an image that goes on. -/
def badAreas (areas : List (List Byte)) (short : Bool) : List (RecClass × Nat) :=
  unread .area readArea areas ++ if short then [(.area, 7)] else []

/-- Check 3 (R15): the first record that fails it. The index of a controller list entry is its place in the list, from 0, and not the
address it holds (log 24, DESIGN CHOICE: R15 says only 'record index'). -/
def failRanges (bs : List Byte) : Option (RecClass × Nat) :=
  if !headerRanges bs then some (.header, 0) else
  match cutImage bs with
  | none => some (.header, 0)
  | some r =>
    let twice := (repeats [] 0 (r.controllers.map fun b => u8 b 0)).map fun k => (RecClass.controller, k)
    let badCtrl := unread .controller readController r.controllers
    (((List.range r.controllers.length).map fun k => (RecClass.controller, k)).filter fun x =>
        badCtrl.contains x || twice.contains x)
      |>.append (unread .sect readSection r.sections)
      |>.append (unread .point readPoint r.points)
      |>.append (unread .signal readSignal r.signals)
      |>.append (unread .port readPort r.ports)
      |>.append (unread .link (readLink (u16 r.header 0)) r.links)
      |>.append (badAreas r.areas (r.routes.isEmpty && decide (r.rest ≠ [])))
      |>.append ((badRoutes r.routes (decide (r.rest ≠ []))).map fun n => (RecClass.route, n))
      |>.head?

/-! ### Checks 4 to 10 -/

/-- A record with whether it passes a check. -/
abbrev Verdict := RecClass × Nat × Bool

/-- The verdicts on a class of records. -/
def verdicts {α : Type} (c : RecClass) (l : List α) (ok : Nat → α → Bool) : List Verdict :=
  (numbered l).map fun r => (c, r.1, ok r.1 r.2)

/-- The routes in ascending number (R15). -/
def Image.routesInOrder (m : Image) : List RouteDef :=
  (ascending (m.routes.map RouteDef.number)).filterMap fun n => m.routes.find? fun d => d.number = n

/-- The verdicts on the routes. -/
def routeVerdicts (m : Image) (ok : RouteDef → Bool) : List Verdict :=
  m.routesInOrder.map fun d => (.route, d.number, ok d)

/-- The first record that fails. -/
def firstFail (l : List Verdict) : Option (RecClass × Nat) := (l.find? fun v => !v.2.2).map fun v => (v.1, v.2.1)

/-- A section is defined. -/
def Image.hasSec (m : Image) (i : Nat) : Bool := decide (i < m.sections.length)
/-- A point is defined. -/
def Image.hasPt (m : Image) (i : Nat) : Bool := decide (i < m.points.length)
/-- A signal is defined. -/
def Image.hasSig (m : Image) (i : Nat) : Bool := decide (i < m.signals.length)
/-- A port is defined. -/
def Image.hasPort (m : Image) (i : Nat) : Bool := decide (i < m.ports.length)
/-- A link is equipped. -/
def Image.linkEquipped (m : Image) (l : Nat) : Bool := decide ((m.links.getD l default).neighbour ≠ 0)

/-- A connection names what is defined. -/
def Image.connDefined (m : Image) : Conn → Bool
  | .joint s _ => m.hasSec s
  | .leg p _ => m.hasPt p
  | .port p => m.hasPort p
  | .buffer => true

/-- An element is defined. -/
def Image.hasElem (m : Image) (e : ElemRef) : Bool :=
  match e.cls with
  | .sect => m.hasSec e.idx
  | .point => m.hasPt e.idx
  | .signal => m.hasSig e.idx

/-- The exit of a route is defined (R11). -/
def Image.hasExit (m : Image) (d : RouteDef) : Bool :=
  match d.kind with
  | .exit => m.hasPort d.exit
  | _ => m.hasSig d.exit

/-- The remote overlap items of a route name equipped links, those of an EXIT route its exit port's link (R11, R15 check 4).
Of a MAIN or SHUNT route, which has no exit port to compare with, this check asks only that the link is equipped and leaves items there
to check 10 (log 24, DESIGN CHOICE: R15 does not say). -/
def Image.itemLinks (m : Image) (d : RouteDef) : Bool :=
  (d.remoteItems.all fun x => m.linkEquipped x.link)
    && (decide (d.kind ≠ .exit) || d.remoteItems.all fun x => decide (x.link = (m.ports.getD d.exit default).link))

/-- The controller channels of all elements, in the order of the walk. -/
def Image.channels (m : Image) : List (Nat × Nat) :=
  (m.sections.map fun d => (d.ctrl, d.chan)) ++ (m.points.map fun d => (d.ctrl, d.chan))
    ++ (m.signals.map fun d => (d.ctrl, d.chan))

/-- The channel at place `n` of the walk is on a listed controller and on no earlier record (R3): of two records that share a
channel the later fails (log 24, DESIGN CHOICE). -/
def Image.channelOk (m : Image) (n : Nat) : Bool :=
  let c := m.channels.getD n default
  m.controllers.contains c.1 && !(m.channels.take n).contains c

/-- The references of a route definition name what is defined (R11, R15 check 4). -/
def Image.routeRefs (m : Image) (d : RouteDef) : Bool :=
  m.hasSig d.entry && m.hasExit d && (d.path.all m.hasSec)
    && (d.pathPoints.all fun p => m.hasPt p.pt && decide (p.fouling < d.path.length))
    && (d.overlapSecs.all m.hasSec) && (d.overlapPoints.all fun p => m.hasPt p.1)
    && m.itemLinks d && (d.chain.all m.hasSec)

/-- Check 4: references. Of two records that share a channel or a section end the later fails (log 24, DESIGN CHOICE). -/
def failReferences (m : Image) : Option (RecClass × Nat) :=
  firstFail
    (verdicts .sect m.sections (fun i d => m.connDefined d.endA && m.connDefined d.endB && m.channelOk i)
    ++ verdicts .point m.points (fun i d => m.hasSec d.tip && m.hasSec d.normal && m.hasSec d.reverse && m.hasSec d.fouling
        && m.channelOk (m.sections.length + i))
    ++ verdicts .signal m.signals (fun i d => m.hasSec d.sec && m.channelOk (m.sections.length + m.points.length + i)
        && !((m.signals.take i).any fun g => decide (g.sec = d.sec ∧ g.e = d.e)))
    ++ verdicts .port m.ports (fun _ d => m.linkEquipped d.link && m.hasSec d.sec)
    ++ verdicts .link m.links (fun _ d => d.window.all m.hasElem)
    ++ routeVerdicts m m.routeRefs)

/-- A section end's connection agrees with what it names (R15 check 5). -/
def Image.connOk (m : Image) (s : Nat) (e : SecEnd) : Bool :=
  match m.conn s e with
  | .joint t f => decide (t ≠ s) && decide (m.conn t f = .joint s e)
  | .leg p l => decide ((m.points.getD p default).at l = s)
  | .port p => decide ((m.ports.getD p default).sec = s ∧ (m.ports.getD p default).e = e)
  | .buffer => true

/-- How many section ends name a leg of a point. -/
def Image.legUses (m : Image) (p : Nat) (l : Leg) : Nat :=
  ((List.range m.sections.length).filter fun s => decide (m.conn s .a = .leg p l)).length
    + ((List.range m.sections.length).filter fun s => decide (m.conn s .b = .leg p l)).length

/-- Check 5: connections. -/
def failConnections (m : Image) : Option (RecClass × Nat) :=
  firstFail
    (verdicts .sect m.sections (fun i _ => m.connOk i .a && m.connOk i .b)
    ++ verdicts .point m.points (fun i d => decide (m.legUses i .tip = 1) && decide (m.legUses i .normal = 1)
        && decide (m.legUses i .reverse = 1) && decide (d.tip ≠ d.normal ∧ d.tip ≠ d.reverse ∧ d.normal ≠ d.reverse))
    ++ verdicts .port m.ports (fun i d => decide (m.conn d.sec d.e = .port i)))

/-- A path point's fouling index names a path section the point joins (R12). -/
def Image.foulingOk (m : Image) (d : RouteDef) (p : PathPoint) : Bool :=
  let q := m.points.getD p.pt default
  let k := d.path.getD p.fouling 0
  decide (k = q.tip) || decide (k = q.at p.pos.leg)

/-- Check 6 on one route: path continuity. -/
def Image.continuous (m : Image) (d : RouteDef) : Bool :=
  match m.geometry d with
  | none => false
  | some g =>
    (d.pathPos.all fun q => g.passed.contains q) && (d.overlapPoints.all fun q => g.overlapPassed.contains q)
      && decide (d.path ++ d.overlapSecs).Nodup && decide ((d.pathPos ++ d.overlapPoints).map Prod.fst).Nodup
      && (d.pathPoints.all fun p => m.foulingOk d p)

/-- Check 6 on a route with an empty path, which check 10 names: what it asks of the overlap alone (log 25). -/
def Image.overlapAlone (m : Image) (d : RouteDef) : Bool :=
  let passes (e : SecEnd) : Bool := match d.overlapSecs with
    | [] => d.overlapPoints.isEmpty
    | k :: rest => (m.follow d.overlapPoints rest k e).any fun x => d.overlapPoints.all fun q => x.1.contains q
  d.pathPoints.isEmpty && (passes .a || passes .b) && decide d.overlapSecs.Nodup
    && decide (d.overlapPoints.map Prod.fst).Nodup

/-- Check 7 on one route: the entry signal stands outside the path at an end that adjoins section 0's rear end. -/
def Image.entryOk (m : Image) (d : RouteDef) : Bool :=
  match m.geometry d with
  | none => false
  | some g => !d.path.contains (m.signals.getD d.entry default).sec && (m.entryJoin d g.rear).isSome

/-- Check 8 on one route: the exit stands at the far end of the last path section. -/
def Image.exitOk (m : Image) (d : RouteDef) : Bool :=
  match m.geometry d with
  | none => false
  | some g =>
    let last := d.path.getLastD 0
    match d.kind with
    | .exit => decide (m.conn last g.far = .port d.exit)
    | _ => decide ((m.signals.getD d.exit default).sec = last ∧ (m.signals.getD d.exit default).e = g.far)

/-- The rest of an approach chain behind the end `e` of section `s` adjoins section by section (R12). -/
def Image.chainFrom (m : Image) : List Nat → Nat → SecEnd → Bool
  | [], _, _ => true
  | t :: rest, s, e =>
    (m.adjoinAny s e t .a && m.chainFrom rest t .b) || (m.adjoinAny s e t .b && m.chainFrom rest t .a)

/-- Check 9 on one route: the approach chain. -/
def Image.chainOk (m : Image) (d : RouteDef) : Bool :=
  let g := m.signals.getD d.entry default
  match d.chain with
  | [] => true
  | s :: rest => decide (s = g.sec) && m.chainFrom rest s g.e.other && decide d.chain.Nodup
      && !(d.chain.any fun k => d.path.contains k)

/-- Check 10 on one route: list lengths and lists against the kind. -/
def RouteDef.lengthsOk (d : RouteDef) : Bool :=
  decide (1 ≤ d.path.length ∧ d.path.length ≤ 16) && decide (d.pathPoints.length ≤ 12)
    && decide (d.overlapSecs.length ≤ 4) && decide (d.overlapPoints.length ≤ 4) && decide (d.remoteItems.length ≤ 4)
    && decide (d.chain.length ≤ 6)
    && (decide (d.kind = .main) || (d.overlapSecs.isEmpty && d.overlapPoints.isEmpty))
    && (decide (d.kind = .exit) || d.remoteItems.isEmpty)

/-- The number of ports on a link. -/
def Image.portCount (m : Image) (l : Nat) : Nat := (m.ports.filter fun p => p.link = l).length

/-- A check against the path, with what stands in its place where the path is empty, so that check 10 names it (log 25). -/
def onPath (ok alone : RouteDef → Bool) (d : RouteDef) : Bool := if d.path.isEmpty then alone d else ok d

/-- Check 10: list lengths. -/
def failLengths (m : Image) : Option (RecClass × Nat) :=
  firstFail
    (verdicts .link m.links (fun i d => decide (m.portCount i ≤ 2) && (decide (d.neighbour = 0) || decide (1 ≤ m.portCount i)))
    ++ routeVerdicts m RouteDef.lengthsOk)

/-- The station identity is 1–65,534 with its one's complement beside it (R15 check 2). Of an image that ends before them the
missing bytes read as 0 (log 24, DESIGN CHOICE). -/
def identityOk (bs : List Byte) : Bool :=
  decide (1 ≤ u16 bs 0 ∧ u16 bs 0 ≤ 65534) && decide (u16 bs 0 + u16 bs 2 = 65535)

/-- The checks in the order of their codes, each with the first record that fails it. R15 names no record for a CRC that differs:
check 1 carries the header, index 0, as check 2 does (log 24, DESIGN CHOICE). -/
def checkList (bs : List Byte) (crcOk : Bool) : List (Nat × Option (RecClass × Nat)) :=
  let m := readImage bs
  [(1, if crcOk then none else some (.header, 0)),
   (2, if identityOk bs then none else some (.header, 0)),
   (3, failRanges bs),
   (4, failReferences m),
   (5, failConnections m),
   (6, firstFail (routeVerdicts m (onPath m.continuous m.overlapAlone))),
   (7, firstFail (routeVerdicts m (onPath m.entryOk fun _ => true))),
   (8, firstFail (routeVerdicts m (onPath m.exitOk fun _ => true))),
   (9, firstFail (routeVerdicts m m.chainOk)),
   (10, failLengths m)]

/-- The first check that fails, with its record. -/
def firstFailing : List (Nat × Option (RecClass × Nat)) → CheckResult
  | [] => ⟨0, none⟩
  | (_, none) :: rest => firstFailing rest
  | (code, some r) :: _ => ⟨code, some r⟩

/-- The ten structural checks over the bytes, check 1 comparing their CRC-32 with `crc` (R15). -/
def structuralChecks (bs : List Byte) (crc : Crc32) : CheckResult := firstFailing (checkList bs (crc32 bs = crc))

/-- The ten checks over the stored image at a start (R18): the damaged image's CRC fails (log 5). -/
def Stored.check (st : Stored) : CheckResult :=
  firstFailing (checkList st.bytes (decide (crc32 st.bytes = st.crc) && !st.damaged))

end Sys2Proof.Machine
end

