-- ==== Sys2Proof/Machine/Flank.lean ====
section
/-! DEFINITION. The Flank Unit: the search (R84 to R95, R102), placing and releasing claims (R96 to R99, R103). -/

namespace Sys2Proof.Machine

/-! ### What a search reads (R84) -/

/-- The element a claim names; none for a port. -/
def ClaimOn.elem? : ClaimOn → Option ElemRef
  | .point i _ => some ⟨.point, i⟩
  | .signal i => some ⟨.signal, i⟩
  | .sect i => some ⟨.sect, i⟩
  | .port _ => none

/-- How many entries name the element. -/
def countOn (l : List ClaimOn) (e : ElemRef) : Nat := (l.filter fun c => c.elem? = some e).length

/-- The needs and absences a request's checks read beside the element records (R63, R84): the route's own sections, points
and entry signal, the donor's slot, and its claims that count as absent. `remote` is a search for a neighbour (R102). -/
structure Need where
  secs : List Nat
  points : List (Nat × Pos)
  entry : Option Nat
  donor : Option Nat
  absent : List ClaimOn
  limit : Nat
  remote : Bool
  deriving DecidableEq, Repr

/-- A lock counts as absent: the donor holds it with kind OVERLAP (R63). -/
def Need.lockAbsent (n : Need) (o : Option Owner) (k : Option LockKind) : Bool :=
  match n.donor with
  | some d => decide (o = some (.slot d)) && decide (k = some .overlap)
  | none => false

/-- The section has a lock owner that counts. -/
def State.secHeld (s : State) (n : Need) (i : Nat) : Bool :=
  (s.sec i).owner.isSome && !n.lockAbsent (s.sec i).owner (s.sec i).kind

/-- The point has a lock owner that counts. -/
def State.ptHeld (s : State) (n : Need) (i : Nat) : Bool :=
  (s.pt i).owner.isSome && !n.lockAbsent (s.pt i).owner (s.pt i).kind

/-- The count standing on an element, with the donor's overlap claims absent (R63). -/
def State.countLeft (s : State) (n : Need) (e : ElemRef) : Nat :=
  (match e.cls with
    | .sect => (s.sec e.idx).claims
    | .point => (s.pt e.idx).claims
    | .signal => (s.sig e.idx).holds) - countOn n.absent e

/-- The position the flank claims standing on a point hold it in. -/
def State.claimLeft (s : State) (n : Need) (i : Nat) : Option Pos :=
  if s.countLeft n ⟨.point, i⟩ = 0 then none else (s.pt i).claimPos

/-- No flank claim on the point stands for another position than `y`. -/
def State.claimAgrees (s : State) (n : Need) (i : Nat) (y : Pos) : Bool :=
  match s.claimLeft n i with
  | some x => decide (x = y)
  | none => true

/-- No lock on the point, the route's own need included, stands for another position than `y`. -/
def State.lockAgrees (s : State) (n : Need) (i : Nat) (y : Pos) : Bool :=
  (!s.ptHeld n i || decide ((s.pt i).lockedPos = some y)) && (n.points.all fun q => decide (q.1 ≠ i ∨ q.2 = y))

/-! ### The outcome of a search -/

/-- A search under way: the tentative list and the visits made, or a failure (R95). -/
inductive Search where
  | going (list : List Claim) (visits : Nat)
  | conflict
  | limit
  deriving DecidableEq, Repr

/-- Adds an entry to the tentative list unless the search of this route point has added it already (R86, R88, R89, R94);
at the limit the search ends at once (R95). -/
def addEntry (limit : Nat) (what : ClaimOn) (prot : Option Prot) (list : List Claim) (visits : Nat) : Search :=
  if list.any fun c => decide (c.what = what ∧ c.prot = prot) then .going list visits
  else if limit ≤ list.length then .limit
  else .going (list ++ [⟨what, prot, false, false⟩]) visits

/-- The tentative entries on an element. -/
def tentative (list : List Claim) (e : ElemRef) : Nat := countOn (list.map Claim.what) e

/-- A signal at the entry end of a section is usable (R86). -/
def State.signalUsable (s : State) (n : Need) (list : List Claim) (i : Nat) : Bool :=
  (s.sig i).provenStop && !(s.sig i).lamp && (s.sig i).owner.isNone && decide (n.entry ≠ some i)
    && decide (s.countLeft n ⟨.signal, i⟩ + tentative list ⟨.signal, i⟩ < Config.maxClaims)

/-- The tentative entries on a point all want position `y`. -/
def tentativeAgrees (list : List Claim) (i : Nat) (y : Pos) : Bool :=
  list.all fun c => match c.what with
    | .point j x => decide (j ≠ i ∨ x = y)
    | _ => true

/-- A movement of the point to `y` may be begun for flank protection (R89, R30). -/
def State.flankMovable (s : State) (n : Need) (i : Nat) : Bool :=
  !(s.ptRestr i).noMove && !(s.ptRestr i).noFlankMove && s.secClear (s.ptDef i).fouling
    && !s.ptHeld n i && !(n.points.any fun q => q.1 = i) && s.operational

/-- A trailed point is usable in position `y` (R89). -/
def State.pointUsable (s : State) (n : Need) (list : List Claim) (i : Nat) (y : Pos) : Bool :=
  decide ((s.pt i).pos ≠ .lost) && decide ((s.pt i).pos ≠ .moving)
    && s.lockAgrees n i y && s.claimAgrees n i y && tentativeAgrees list i y
    && decide (s.countLeft n ⟨.point, i⟩ + tentative list ⟨.point, i⟩ < Config.maxClaims)
    && (s.atRest i y || s.flankMovable n i)

/-- The traversed sections of a protected branch stand: none DISTURBED, the first CLEAR (R91). -/
def State.branchStands (s : State) (trav : List Nat) : Bool :=
  (trav.all fun k => decide ((s.sec k).occ ≠ .disturbed)) && (trav.take 1).all fun k => s.secClear k

/-- Ends a branch protected, with the entry it adds (R91). -/
def State.protect (s : State) (n : Need) (prot : Option Prot) (trav : List Nat) (what : Option ClaimOn)
    (list : List Claim) (visits : Nat) : Search :=
  if !s.branchStands trav then .conflict else
  match what with
  | some w => addEntry n.limit w prot list visits
  | none => .going list visits

/-- A section can take part in a fallback (R94). -/
def State.fallbackOk (s : State) (n : Need) (list : List Claim) (k : Nat) : Bool :=
  s.secClear k && !s.secHeld n k && !n.secs.contains k
    && decide (s.countLeft n ⟨.sect, k⟩ + tentative list ⟨.sect, k⟩ < Config.maxClaims)

/-- Adds a SECTION_CLEAR entry for each section in turn. -/
def addSections (limit : Nat) (prot : Option Prot) : List Nat → Search → Search
  | [], r => r
  | k :: rest, .going list visits => addSections limit prot rest (addEntry limit (.sect k) prot list visits)
  | _ :: _, r => r

/-- Ends a branch unprotected: the fallback over its traversed sections (R94). -/
def State.fallBack (s : State) (n : Need) (prot : Option Prot) (trav : List Nat) (list : List Claim) (visits : Nat) :
    Search :=
  if trav.all fun k => s.fallbackOk n list k then addSections n.limit prot trav (.going list visits) else .conflict

/-- The end of section `sec` that is attached at leg `l` of point `q`. -/
def Image.endAt (m : Image) (sec q : Nat) (l : Leg) : SecEnd :=
  if m.conn sec .a = .leg q l then .a else .b

/-- The signal standing at an end of a section, if any (R7). -/
def Image.signalAt (m : Image) (sec : Nat) (e : SecEnd) : Option Nat :=
  (List.range m.signals.length).find? fun g =>
    decide ((m.signals.getD g default).sec = sec ∧ (m.signals.getD g default).e = e)

/-- The position a trailed point must lie in to protect a branch that reached its leg `l` (R89). -/
def Leg.away : Leg → Pos
  | .normal => .reverse
  | _ => .normal

/-- Whether a branch that reaches port `p` ends protected by the neighbour (R88, R102). -/
def State.portProtects (s : State) (n : Need) (p : Nat) : Bool := !n.remote && s.linkUp (s.portDef p).link

/-- Enters section `sec` at its end `e` and explores the branch (R85 to R94): `fuel` is the depth still allowed, `trav` the
sections traversed so far. -/
def State.explore (s : State) (n : Need) (prot : Option Prot) :
    Nat → Nat → SecEnd → List Nat → List Claim → Nat → Search
  | 0, _, _, trav, list, visits => s.fallBack n prot trav list visits
  | fuel + 1, sec, e, trav, list, visits =>
    let m := s.image
    let here := trav ++ [sec]
    if 16 ≤ visits then s.fallBack n prot trav list visits
    else if n.secs.contains sec then .conflict
    else match (m.signalAt sec e).filter (s.signalUsable n list) with
    | some g => s.protect n prot here (some (.signal g)) list (visits + 1)
    | none =>
      match m.conn sec e.other with
      | .buffer => s.protect n prot here none list (visits + 1)
      | .joint t f => s.explore n prot fuel t f here list (visits + 1)
      | .port p =>
        if s.portProtects n p then s.protect n prot here (some (.port p)) list (visits + 1)
        else s.fallBack n prot here list (visits + 1)
      | .leg q .tip =>
        match s.explore n prot fuel (s.ptDef q).normal (m.endAt (s.ptDef q).normal q .normal) here list (visits + 1) with
        | .going list' visits' =>
          s.explore n prot fuel (s.ptDef q).reverse (m.endAt (s.ptDef q).reverse q .reverse) here list' visits'
        | r => r
      | .leg q l =>
        if s.pointUsable n list q l.away then s.protect n prot here (some (.point q l.away)) list (visits + 1)
        else s.explore n prot fuel (s.ptDef q).tip (m.endAt (s.ptDef q).tip q .tip) here list (visits + 1)

/-- The flank leg of a route point: the branch leg the route does not use (R85). -/
def Pos.flankLeg : Pos → Leg
  | .normal => .reverse
  | .reverse => .normal

/-- The search of one route point (R85), from the section at its flank leg, with the tentative list so far. -/
def State.searchPoint (s : State) (n : Need) (pt : Nat) (x : Pos) (prot : Prot) (list : List Claim) : Search :=
  let sec := (s.ptDef pt).at x.flankLeg
  s.explore n (some prot) 4 sec (s.image.endAt sec pt x.flankLeg) [] list 0

/-- The outcome of the flank item (R95): the tentative list, the route point whose search failed, or the claim limit. -/
inductive FlankResult where
  | success (list : List Claim)
  | conflict (pt : Nat)
  | limit
  deriving DecidableEq, Repr

/-- The searches of the route points in turn (R84). -/
def State.searchAll (s : State) (n : Need) : List (Nat × Pos × Prot) → List Claim → FlankResult
  | [], list => .success list
  | (pt, x, prot) :: rest, list =>
    match s.searchPoint n pt x prot list with
    | .going list' _ => s.searchAll n rest list'
    | .conflict => .conflict pt
    | .limit => .limit

/-- The route points of a route with what they are in an instance's list (R82): path points, then overlap points. -/
def RouteDef.protPoints (d : RouteDef) : List (Nat × Pos × Prot) :=
  ((numbered d.pathPoints).map fun p => (p.2.pt, p.2.pos, Prot.path p.1))
    ++ (numbered d.overlapPoints).map fun p => (p.2.1, p.2.2, Prot.overlap p.1)

/-- The search for a neighbour at port `p` (R102). -/
def State.searchPort (s : State) (p : Nat) : Search :=
  let n : Need := ⟨[], [], none, none, [], Config.localClaims, true⟩
  s.explore n none 4 (s.portDef p).sec (s.portDef p).e [] [] 0

/-! ### Placing (R96, R103) -/

/-- Places the counts of claim entries in order. -/
def State.placeCounts (s : State) (cs : List Claim) : State := s.each cs fun t c => t.addCount c.what

/-- Begins a movement for each POINT_POSITION entry whose point is at rest in the other position (R96). -/
def State.beginClaimMoves (s : State) (cs : List Claim) : State :=
  s.each cs fun t c => match c.what with
    | .point i p => t.moveIfOther i p
    | _ => t

/-- The entries as they stand once placed: no lost mark, been intact where intact at placing (R82). A PORT_FLANK entry's
request is PENDING then. -/
def State.placed (s : State) (cs : List Claim) : List Claim :=
  cs.map fun c => { c with lost := false, been := match c.what with
    | .port _ => false
    | w => s.elemIntact w }

/-! ### Withdrawing and posting remote requests (R97, R154, R163) -/

/-- Withdraws a remote request of slot `i` from the Boundary Unit (R154, R163). -/
def State.withdraw (s : State) (i : Nat) (r : RemoteReq) : State :=
  match r.what with
  | .acceptance p => s.modPort p fun q => if q.outAcc = some (r.tag, i) then { q with outAcc := none } else q
  | .ask _ => s.modLink r.link fun k =>
      { k with outgoing := k.outgoing.filter fun o => !(decide (o.tag = r.tag) && decide (o.slot = i)) }

/-- Withdraws the requests of slot `i` that a test names, and takes them from its list. -/
def State.withdrawWhere (s : State) (i : Nat) (f : RemoteReq → Bool) : State :=
  (s.each ((s.slot i).remote.filter f) fun t r => t.withdraw i r).modSlot i fun k =>
    { k with remote := k.remote.filter fun r => !f r }

/-- A request is a PORT_FLANK request whose port no entry of the list names any more (R97). -/
def idleFlank (cs : List Claim) (r : RemoteReq) : Bool :=
  match r.what with
  | .ask a => a.flank && !(cs.any fun c => decide (c.what = .port a.idx))
  | .acceptance _ => false

/-! ### Releasing (R98, R99) -/

/-- Releases the entries of slot `i`'s list that a test names (R98), with the PORT_FLANK requests whose last entry goes
(R97). -/
def State.releaseClaims (s : State) (i : Nat) (f : Claim → Bool) : State :=
  let gone := (s.slot i).claims.filter f
  let left := (s.slot i).claims.filter fun c => !f c
  if gone.isEmpty then s else
  ((s.each gone fun t c => t.dropCount c.what).modSlot i fun k => { k with claims := left }).withdrawWhere i (idleFlank left)

/-- An entry protects an overlap point. -/
def Claim.ofOverlap (c : Claim) : Bool :=
  match c.prot with
  | some (.overlap _) => true
  | _ => false

/-- An entry protects path point `k`. -/
def Claim.ofPath (k : Nat) (c : Claim) : Bool := decide (c.prot = some (.path k))

end Sys2Proof.Machine
end

