-- ==== Sys2Proof/Machine/Approach.lean ====
section
/-! DEFINITION. The approach figures (R104 to R109), the end of an instance (R57), the cancellation of a cleared route (R110,
R111). -/

namespace Sys2Proof.Machine

/-- A quotient rounded up (R107). -/
def ceilDiv (n d : Nat) : Nat := (n + d - 1) / d

/-- The speeds standing on the path sections of a route, in path order (R106). -/
def State.pathSpeeds (s : State) (d : RouteDef) : List (Nat × Nat) :=
  d.path.filterMap fun k => (s.secRestr k).speed.map fun v => (k, v)

/-- Stage 1: the effective speed (R106). -/
def State.effectiveSpeed (s : State) (d : RouteDef) : Nat := (s.pathSpeeds d).foldl (fun v x => min v x.2) d.speed

/-- Stage 1: the speed source, none for ROUTE (R106). -/
def State.speedSource (s : State) (d : RouteDef) : Option Nat :=
  if s.effectiveSpeed d = d.speed then none
  else ((s.pathSpeeds d).find? fun x => x.2 = s.effectiveSpeed d).map Prod.fst

/-- Stage 2: the braking distance (R107). -/
def brakingDistance (v decel : Nat) : Nat := ceilDiv (v * v * 10000) (2592 * decel)

/-- Stage 4: the extent, the reach covered and SHORT, from the chain's lengths (R108). -/
def extent (q : Nat) : List Nat → Nat → Nat → Nat × Nat × Bool
  | [], k, sum => (k, sum, decide (sum < q))
  | l :: rest, k, sum => if q ≤ sum then (k, sum, false) else extent q rest (k + 1) (sum + l)

/-- Stage 5: the release time, 20–240 s (R109). -/
def releaseTime (v decel reaction : Nat) : Nat := min 240 (max 20 (ceilDiv (v * 1000) (36 * decel) + reaction))

/-- The approach figures of a route as they come out at this moment (R105). -/
def State.figuresOf (s : State) (d : RouteDef) : Figures :=
  let v := s.effectiveSpeed d
  let dist := brakingDistance v d.decel
  let q := dist + d.sight
  let x := extent q (d.chain.map fun k => (s.secDef k).length) 0 0
  { v, source := s.speedSource d, d := dist, q, k := x.1, reach := x.2.1, short := x.2.2,
    t := releaseTime v d.decel d.reaction }

/-- The entry signal of the instance in slot `i` to STOP, where the slot still owns it (R57, log 17). -/
def State.stopEntry (s : State) (i : Nat) : State :=
  let g := (s.slotRoute i).entry
  if (s.sig g).owner = some i then s.setAspect g .stop else s

/-- Releases every lock whose owner is slot `i` (R57). -/
def State.freeLocks (s : State) (i : Nat) : State :=
  let s1 := s.each (List.range s.est.sections.length) fun t k => t.freeSec k (.slot i)
  let s2 := s1.each (List.range s1.est.points.length) fun t k => t.freePt k (.slot i)
  s2.each (List.range s2.est.signals.length) fun t k => t.freeSig k i

/-- A view kept OUT in a conflict becomes NEUTRAL with the end of the last EXIT instance that targets the port (R152). -/
def State.settleConflict (s : State) (p : Nat) : State :=
  if (s.port p).conflict && decide ((s.port p).view = .out) && !s.exitTargets p then
    s.modPort p fun q => { q with view := .neutral }
  else s

/-- The record of a slot whose instance has ended (R56, R57). -/
def Slot.ended (k : Slot) (r : EndReason) : Slot :=
  { k with state := .free, reason := r, holds := Holds.empty, pendingPts := [], remote := [], figures := none,
           head := none, release := none, timerMs := none, claims := [] }

/-- Ends the instance in slot `i` (R57). -/
def State.endSlot (s : State) (i : Nat) (r : EndReason) : State :=
  let k := s.slot i
  let exit := (s.slotRoute i).exit
  let s1 := (s.stopEntry i).freeLocks i
  let s2 := s1.each k.claims fun t c => t.dropCount c.what
  let s3 := s2.each k.remote fun t q => t.withdraw i q
  let s4 := s3.modSlot i fun x => x.ended r
  if k.kind = some .exit then s4.settleConflict exit else s4

/-- The aspect a route kind clears to (R69). -/
def clearAspect : Option RouteKind → Aspect
  | some .shunt => .restricted
  | _ => .proceed

/-- Clears the entry signal: the figures are computed, the aspect commanded, the state CLEARING (R69, R75). -/
def State.setClearing (s : State) (i : Nat) : State :=
  let d := s.slotRoute i
  let f := s.figuresOf d
  (s.modSlot i fun k => { k with figures := some f, state := .clearing }).setAspect d.entry (clearAspect (s.slot i).kind)

/-- The release time of the instance's frozen figures, in ms. -/
def Slot.releaseMs (k : Slot) : Nat :=
  match k.figures with
  | some f => f.t * 1000
  | none => 0

/-- The PSV takes a cancellation of a cleared route (R110, R111). -/
def State.cancelCleared (s : State) (i : Nat) : State :=
  let s1 := s.stopEntry i
  if s1.approachOccupied i then
    s1.modSlot i fun k => { k with state := .approachLocked, holds := Holds.empty, timerMs := some k.releaseMs }
  else s1.endSlot i .cancelled

/-- Entry into RELEASE_TIMING (R113). -/
def State.beginRelease (s : State) (i : Nat) : State :=
  s.modSlot i fun k => { k with state := .releaseTiming, holds := Holds.empty, timerMs := some k.releaseMs }

/-- Recomputes the pending points of the instance in slot `i` (R67). -/
def State.refreshPending (s : State) (i : Nat) : State :=
  let l := s.pendingOf i
  s.modSlot i fun k => { k with pendingPts := l }

/-- The instance in slot `i` goes HELD with every cause that stands (R73). -/
def State.hold (s : State) (i : Nat) : State :=
  let s1 := (s.setAspect (s.slotRoute i).entry .stop).modSlot i fun k => { k with state := .held, timerMs := none }
  let c := s1.causes i
  s1.modSlot i fun k => { k with holds := c }

end Sys2Proof.Machine
end

