-- ==== Sys2Proof/Machine/Route.lean ====
section
/-! DEFINITION. The route request: checks, acceptance, the store and its retry, and the commands on routes (R59 to R81, R113). -/

namespace Sys2Proof.Machine

/-- What a command's meaning comes to: the state, the result code, the content of the reply. -/
abbrev Answer := State × Res × Content

/-- A refusal that changes nothing. -/
def State.refuse (s : State) (r : Res) : Answer := (s, r, .none)

/-! ### The checks (R59 to R63) -/

/-- The donor of a route: a live instance in OCCUPIED or BERTHED whose exit signal is the entry signal (R63). -/
def State.donor (s : State) (d : RouteDef) : Option Nat :=
  (List.range s.rsu.slots.length).find? fun i =>
    (decide ((s.slot i).state = .occupied) || decide ((s.slot i).state = .berthed))
      && decide ((s.slot i).kind ≠ some .exit) && decide ((s.slotRoute i).exit = d.entry)

/-- The needs and absences of a route request (R63, R84). -/
def State.needOf (s : State) (d : RouteDef) : Need :=
  let don := s.donor d
  { secs := d.sections, points := d.points, entry := some d.entry, donor := don
    absent := match don with
      | some i => ((s.slot i).claims.filter Claim.ofOverlap).map Claim.what
      | none => []
    limit := Config.listClaims, remote := false }

/-- The first element of a route that a check finds failing, in the order of R59. -/
def firstElement (d : RouteDef) (sec : Nat → Bool) (pt : Nat × Pos → Bool) (entry : Bool) : Option ElemRef :=
  match d.sections.find? sec, d.points.find? pt with
  | some k, _ => some ⟨.sect, k⟩
  | none, some q => some ⟨.point, q.1⟩
  | none, none => if entry then some ⟨.signal, d.entry⟩ else none

/-- Check 5: the element a restriction stands on that forbids the route (R60). -/
def State.blockedBy (s : State) (d : RouteDef) : Option ElemRef :=
  firstElement d (fun k => (s.secRestr k).noRoute)
    (fun q => (s.ptRestr q.1).noRoute || (!s.atRest q.1 q.2 && (s.ptRestr q.1).noMove))
    ((s.sigRestr d.entry).noRoute || (s.sigRestr d.entry).noClear)

/-- Check 6: the faulty element (R60). -/
def State.faultyOf (s : State) (d : RouteDef) : Option ElemRef :=
  firstElement d (fun k => decide ((s.sec k).occ = .disturbed)) (fun q => decide ((s.pt q.1).pos = .lost))
    ((s.sig d.entry).lamp || s.sigCtrlLost d.entry)

/-- Check 7: an EXIT route's port is OUT with its link UP (R61). -/
def State.portUsable (s : State) (d : RouteDef) : Bool :=
  decide (d.kind ≠ .exit) || (decide ((s.port d.exit).view = .out) && s.linkUp (s.portDef d.exit).link)

/-- A path or overlap section is not free (R62). -/
def State.sectionTaken (s : State) (n : Need) (k : Nat) : Bool :=
  !s.secClear k || s.secHeld n k || decide (s.countLeft n ⟨.sect, k⟩ ≠ 0)

/-- A path or overlap point is not free (R62). -/
def State.pointTaken (s : State) (n : Need) (q : Nat × Pos) : Bool :=
  decide ((s.pt q.1).pos = .moving) || s.ptHeld n q.1 || !s.claimAgrees n q.1 q.2
    || (s.atRest q.1 q.2.other && !s.secClear (s.ptDef q.1).fouling)

/-- The element that is not free (R62). -/
def State.takenOf (s : State) (n : Need) (d : RouteDef) : Option ElemRef :=
  firstElement d (s.sectionTaken n) (s.pointTaken n)
    ((s.sig d.entry).owner.isSome || decide ((s.sig d.entry).holds ≠ 0))

/-- The lowest FREE slot (R56). -/
def State.freeSlot (s : State) : Option Nat := (List.range s.rsu.slots.length).find? fun i => !s.live i

/-- The distinct ports that PORT_FLANK entries name (R97). -/
def flankPorts (cs : List Claim) : List Nat :=
  (cs.filterMap fun c => match c.what with
    | .port p => some p
    | _ => none).eraseDups

/-- How many requests the route posts on a link (R62). -/
def State.postsOn (s : State) (d : RouteDef) (cs : List Claim) (l : Nat) : Nat :=
  (d.remoteItems.filter fun x => x.link = l).length + ((flankPorts cs).filter fun p => (s.portDef p).link = l).length

/-- Each link has room for the requests the route posts on it (R62). -/
def State.hasRoom (s : State) (d : RouteDef) (cs : List Claim) : Bool :=
  (List.range s.bdu.links.length).all fun l =>
    decide (s.postsOn d cs l = 0 ∨ (s.link l).outgoing.length + s.postsOn d cs l ≤ Config.linkEntries)

/-- What a request comes to: refused, or to be accepted into a slot with the claims found. -/
inductive Verdict8 where
  | refused (r : Res) (e : Option ElemRef)
  | accepted (slot : Nat) (claims : List Claim)
  deriving DecidableEq, Repr

/-- Check 8 (R62). -/
def State.check8 (s : State) (d : RouteDef) : Verdict8 :=
  let n := s.needOf d
  match s.freeSlot with
  | none => .refused .conflict none
  | some i =>
    match s.takenOf n d with
    | some e => .refused .conflict (some e)
    | none =>
      match s.searchAll n d.protPoints [] with
      | .limit => .refused .fault none
      | .conflict pt => .refused .conflict (some ⟨.point, pt⟩)
      | .success cs => if s.hasRoom d cs then .accepted i cs else .refused .conflict none

/-- The route number has a live instance, or a store entry unless the request is that entry (R59 check 4, R80). -/
def State.duplicate (s : State) (route : Nat) (retry : Bool) : Bool :=
  (s.liveSlot route).isSome || (!retry && s.rsu.store.any fun e => e.route = route)

/-- Checks 1 to 8 in their order (R59). -/
def State.routeChecks (s : State) (o : Originator) (route : Nat) (retry : Bool) : Verdict8 :=
  if !s.operational then .refused .notOperational none else
  match s.routeDef? route with
  | none => .refused .unknown none
  | some d =>
    if !s.holds o (s.routeArea d) then .refused .notInControl none
    else if s.duplicate route retry then .refused .duplicate none
    else match s.blockedBy d with
    | some e => .refused .blocked (some e)
    | none =>
      match s.faultyOf d with
      | some e => .refused .fault (some e)
      | none => if !s.portUsable d then .refused .direction none else s.check8 d

/-! ### Acceptance (R65, R66) -/

/-- The donor's overlap goes: what the new route does not use is released; the claims of its overlap points leave its list
without passing through a count of their own (R66, R99). -/
def State.takeOver (s : State) (don : Nat) (d : RouteDef) : State :=
  let prior := s.slotRoute don
  let free (t : State) : State :=
    (t.each (prior.overlapSecs.filter fun k => !d.sections.contains k && decide ((s.sec k).kind = some .overlap))
        fun t k => t.freeSec k (.slot don)).each
      ((prior.overlapPoints.map Prod.fst).filter fun k =>
        !(d.points.any fun q => q.1 = k) && decide ((s.pt k).kind = some .overlap))
        fun t k => t.freePt k (.slot don)
  let gone := (s.slot don).claims.filter Claim.ofOverlap
  let left := (s.slot don).claims.filter fun c => !c.ofOverlap
  (((free s).each gone fun t c => t.takeCount c.what).modSlot don fun k => { k with claims := left }).withdrawWhere don
    (idleFlank left)

/-- The element a claim names differs between two states in its count or its flank claim position. -/
def State.claimMoved (s t : State) : ClaimOn → Bool
  | .point i _ => decide ((s.pt i).claims ≠ (t.pt i).claims ∨ (s.pt i).claimPos ≠ (t.pt i).claimPos)
  | .signal i => decide ((s.sig i).holds ≠ (t.sig i).holds)
  | .sect i => decide ((s.sec i).claims ≠ (t.sec i).claims)
  | .port _ => false

/-- Enqueues the elements of the donor's claims that the takeover has left with another count or position than `old` had (R41,
R99): a later acceptance of the same act may claim them again. -/
def State.noteMoved (s old : State) (gone : List ClaimOn) : State :=
  s.each (gone.filter (old.claimMoved s)) State.noteClaimed

/-- The counts of the donor's claims that the act left at 0 are release events (R66, R99). -/
def State.takenToZero (s : State) (gone : List ClaimOn) : State :=
  if gone.any fun c => c.elem?.isSome && decide (s.claimCount c = 0) then s.releaseEvent else s

/-- Locks the elements of a route for slot `i` (R65 step 3). -/
def State.lockRoute (s : State) (i : Nat) (d : RouteDef) : State :=
  let s1 := s.each d.path fun t k => t.lockSec k (.slot i) (some .path)
  let s2 := s1.each d.overlapSecs fun t k => t.lockSec k (.slot i) (some .overlap)
  let s3 := s2.each d.pathPoints fun t p => t.lockPt p.pt (.slot i) (some .path) p.pos
  let s4 := s3.each d.overlapPoints fun t q => t.lockPt q.1 (.slot i) (some .overlap) q.2
  s4.lockSig d.entry i

/-- The tags of a link that its outgoing requests and acceptances hold (R163). -/
def State.tagsHeld (s : State) (l : Nat) : List Nat :=
  ((s.link l).outgoing.map OutReq.tag) ++ (s.portsOf l).filterMap fun p => (s.port p).outAcc.map Prod.fst

/-- The next tag of a link: the lowest free value from the counter upward, modulo 256 (R163). -/
def State.freshTag (s : State) (l : Nat) : Nat :=
  ((List.range 256).map fun k => ((s.link l).nextTag + k) % 256).find? (fun t => !(s.tagsHeld l).contains t)
    |>.getD (s.link l).nextTag

/-- Posts a request of slot `i` on its link (R154, R163): a tag is taken, the counter moves on, the request is entered in
the slot's remote requests with status PENDING. -/
def State.post (s : State) (i : Nat) (what : RemoteWhat) (l : Nat) : State :=
  let tag := s.freshTag l
  let s1 := s.modLink l fun k => { k with nextTag := (tag + 1) % 256 }
  let s2 := match what with
    | .acceptance p => s1.modPort p fun q => { q with outAcc := some (tag, i) }
    | .ask a => s1.modLink l fun k => { k with outgoing := k.outgoing ++ [OutReq.mk tag a i] }
  s2.modSlot i fun k => { k with remote := k.remote ++ [RemoteReq.mk what l tag .pending none] }

/-- A class of the image as a target class of a request. -/
def Cls.target : Cls → TgtCls
  | .sect => .sect
  | .point => .point
  | .signal => .signal

/-- What the instance of a route posts, in order: PORT_FLANK requests, the acceptance request, RESERVE requests (R65
step 6, log 32). -/
def State.postsOf (s : State) (d : RouteDef) (cs : List Claim) : List (RemoteWhat × Nat) :=
  ((flankPorts cs).map fun p => (RemoteWhat.ask ⟨true, .port, p, none⟩, (s.portDef p).link))
    ++ (if d.kind = .exit then [(RemoteWhat.acceptance d.exit, (s.portDef d.exit).link)] else [])
    ++ d.remoteItems.map fun x => (RemoteWhat.ask ⟨false, x.cls.target, x.idx, some x.state⟩, x.link)

/-- The test of R69 made on the instance in slot `i`, and its clearing where it passes. -/
def State.tryClear (s : State) (i : Nat) : State := if s.clearTest i then s.setClearing i else s

/-- The acceptance of a route request (R65). -/
def State.acceptRoute (s : State) (o : Originator) (d : RouteDef) (i : Nat) (cs : List Claim) : State :=
  let don := s.donor d
  let gone := (s.needOf d).absent
  let s1 := s.modSlot i fun _ =>
    { Slot.start with route := some d.number, kind := some d.kind, originator := some o, state := .setting }
  let s2 := match don with
    | some j => (s1.takeOver j d).note (.slot j)
    | none => s1
  let s3 := ((((s2.lockRoute i d).placeCounts cs).noteMoved s gone).takenToZero gone).beginClaimMoves cs
  let s4 := s3.each d.points fun t q => t.moveIfOther q.1 q.2
  let placed := s4.placed cs
  let s5 := s4.modSlot i fun k => { k with claims := placed }
  let s6 := s5.each (s.postsOf d cs) fun t x => t.post i x.1 x.2
  let ms := s.settingTimeout * 1000
  let s7 := s6.modSlot i fun k => { k with timerMs := some ms }
  ((s7.refreshPending i).tryClear i).note (.slot i)

/-! ### The store (R64, R79 to R81) -/

/-- The lifetime a stored request takes, in s (R64). -/
def State.lifetimeOf (s : State) (n : Nat) : Nat := if n = 0 then s.defaultLifetime else min 600 (max 10 n)

/-- Removes a route's entry from the store and records how it left (R79, R81). -/
def State.leaveStore (s : State) (route : Nat) (r : Removal) : State :=
  { s with rsu.store := s.rsu.store.filter (fun e => !decide (e.route = route)), rsu.lastRemoval := some (route, r) }

/-- The content of a refusal: the failing element where there is one; else the reply carries none, in the model no byte (R59; log 22,
DESIGN CHOICE). -/
def elemContent : Option ElemRef → Content
  | some e => .elem e
  | none => .none

/-- One entry of a retry pass (R80). -/
def State.retryEntry (s : State) (e : StoreEntry) : State :=
  match s.routeChecks e.originator e.route true, s.routeDef? e.route with
  | .accepted i cs, some d => ((s.acceptRoute e.originator d i cs).leaveStore e.route .set).note .store
  | _, _ => s

/-- One retry pass over the entries in store order (R80). -/
def State.retryPass (s : State) : State := s.each s.rsu.store State.retryEntry

/-! ### Commands -/

/-- A route number is 1–512 (R4). -/
def routeInRange (n : Nat) : Bool := decide (1 ≤ n ∧ n ≤ Config.maxRoutes)

/-- SET_ROUTE (R59, R64, R65). -/
def State.cmdSetRoute (s : State) (o : Originator) (route store lifetime : Nat) : Answer :=
  if !routeInRange route || decide (1 < store) || decide (65535 < lifetime) then s.refuse .badParameter else
  match s.routeChecks o route false, s.routeDef? route with
  | .accepted i cs, some d =>
    let t := s.acceptRoute o d i cs
    (t, .accepted, .slotState i (t.slot i).state)
  | .refused .conflict e, _ =>
    if store = 1 ∧ s.rsu.store.length < Config.storeEntries then
      ({ s with rsu.store := s.rsu.store ++ [⟨route, o, s.lifetimeOf lifetime * 1000⟩] }, .stored, .none)
    else (s, .conflict, elemContent e)
  | .refused r e, _ => (s, r, elemContent e)
  | .accepted _ _, none => s.refuse .unknown

/-- The checks RECLEAR and CANCEL_ROUTE share: index, mode, definition, area (R75, R77). -/
def State.routeRefusal (s : State) (o : Originator) (route : Nat) : Option Res :=
  if !routeInRange route then some .badParameter
  else if !s.operational then some .notOperational
  else match s.routeDef? route with
  | none => some .unknown
  | some d => if s.holds o (s.routeArea d) then none else some .notInControl

/-- RECLEAR (R75). -/
def State.cmdReclear (s : State) (o : Originator) (route : Nat) : Answer :=
  match s.routeRefusal o route, s.liveSlot route with
  | some r, _ => s.refuse r
  | none, none => s.refuse .unknown
  | none, some i =>
    if (s.slot i).state ≠ .held then s.refuse .notPermitted
    else if (s.slot i).holds ≠ Holds.empty then s.refuse .fault
    else
      let ms := s.settingTimeout * 1000
      (((s.setClearing i).modSlot i fun k => { k with timerMs := some ms }).refreshPending i, .done, .none)

/-- The content of a DONE reply to CANCEL_ROUTE or FORCED_RELEASE: the slot with its state, or FREE with the end reason
(R77, R113). -/
def State.slotContent (s : State) (i : Nat) : Content :=
  if s.live i then .slotState i (s.slot i).state else .slotEnded i (s.slot i).reason

/-- CANCEL_ROUTE on a live instance (R77). -/
def State.cancelLive (s : State) (i : Nat) : Answer :=
  let done (t : State) : Answer := (t, .done, t.slotContent i)
  match (s.slot i).state with
  | .setting => done (s.endSlot i .cancelled)
  | .clearing => done (s.cancelCleared i)
  | .cleared => done (s.cancelCleared i)
  | .held => done (s.cancelCleared i)
  | .occupied => s.refuse .inUse
  | .berthed => s.refuse .inUse
  | .approachLocked => s.refuse .busy
  | .releaseTiming => s.refuse .busy
  | .free => s.refuse .unknown

/-- CANCEL_ROUTE (R77). The DONE reply for a store entry carries no content: R77 gives content for an instance only (log 47,
DESIGN CHOICE). -/
def State.cmdCancelRoute (s : State) (o : Originator) (route : Nat) : Answer :=
  match s.routeRefusal o route, s.liveSlot route with
  | some r, _ => s.refuse r
  | none, some i => s.cancelLive i
  | none, none =>
    if s.rsu.store.any fun e => e.route = route then ((s.leaveStore route .cancelled).note .store, .done, .none)
    else s.refuse .unknown

/-- The checks of FORCED_RELEASE at PREPARE and at EXECUTE (R113). -/
def State.forcedRefusal (s : State) (o : Originator) (i route : Nat) : Option Res :=
  if decide (Config.maxSlots ≤ i) || !routeInRange route then some .badParameter
  else if !s.operational then some .notOperational
  else if !(s.live i && decide ((s.slot i).route = some route)) then some .unknown
  else if !s.holds o (s.routeArea (s.slotRoute i)) then some .notInControl
  else if (s.slot i).state = .releaseTiming then some .busy
  else none

/-- FORCED_RELEASE executed, its checks passed (R113). -/
def State.forcedRelease (s : State) (i : Nat) : State :=
  match (s.slot i).state with
  | .setting => s.endSlot i .forced
  | .clearing => (s.stopEntry i).beginRelease i
  | .cleared => (s.stopEntry i).beginRelease i
  | .held => (s.stopEntry i).beginRelease i
  | .occupied => s.beginRelease i
  | .berthed => s.beginRelease i
  | .approachLocked => s.beginRelease i
  | .releaseTiming => s
  | .free => s

end Sys2Proof.Machine
end

