-- ==== Sys2Proof/Machine/Passage.lean ====
section
/-! DEFINITION. What a change handed on does to an instance (R41): setting and clearing (R67 to R74), the train's entry
(R119 to R121), the passage evaluation (R122 to R131), the marks (R133), flank loss (R100). `old` is the state in which
the act began. -/

namespace Sys2Proof.Machine

/-! ### Flank marks (R82, R100, R103) -/

/-- An entry after a change: been intact from the first change that makes it so; lost once it stops being intact. -/
def Claim.watch (intact : Bool) (c : Claim) : Claim :=
  { c with been := c.been || intact, lost := c.lost || (c.been && !intact) }

/-- An entry after a change that can set no lost mark yet: been intact from the first change that makes it so (R82). -/
def Claim.seen (intact : Bool) (c : Claim) : Claim := { c with been := c.been || intact }

/-- A change from `old` makes an entry of slot `i` that has been intact stop being so (R100). -/
def losesClaim (old s : State) (i : Nat) : Bool :=
  (s.slot i).claims.any fun c => c.been && old.intact i c.what && !s.intact i c.what

/-- The entries of slot `i` after a change from `old`; each loss enqueues the instance reference, that of an entry which is
marked already too (R100). -/
def watchClaims (old s : State) (i : Nat) : State :=
  let cs := (s.slot i).claims.map fun c => c.watch (s.intact i c.what)
  let t := s.modSlot i fun k => { k with claims := cs }
  if losesClaim old s i then t.note (.slot i) else t

/-! ### Marks (R28, R133) -/

/-- UNEXPECTED on the instance and on a section; every mark set enqueues the instance reference (R133, R138). -/
def State.markUnexpected (s : State) (i k : Nat) : State :=
  ((s.modSlot i fun x => { x with marks.unexpected := true }).modSec k fun r => { r with unexpected := true }).note (.slot i)

/-- SEQUENCE on the instance and on a section (R121, R124, R138). -/
def State.markSequence (s : State) (i k : Nat) : State :=
  ((s.modSlot i fun x => { x with marks.sequence := true }).modSec k fun r => { r with sequence := true }).note (.slot i)

/-- VANISHED on the instance and on a section (R125, R138). -/
def State.markVanished (s : State) (i k : Nat) : State :=
  ((s.modSlot i fun x => { x with marks.vanished := true }).modSec k fun r => { r with vanished := true }).note (.slot i)

/-- PASSED_AT_STOP on the instance (R120, R138). -/
def State.markPassed (s : State) (i : Nat) : State :=
  (s.modSlot i fun x => { x with marks.passedAtStop := true }).note (.slot i)

/-- The sections among `l` that slot `i` locks and that changed into OCCUPIED in the act. -/
def newlyOccupied (old s : State) (i : Nat) (l : List Nat) : List Nat :=
  l.filter fun k => decide ((s.sec k).owner = some (.slot i)) && becameOccupied old s k

/-- Marks every section among `l` that changed into OCCUPIED (R133). -/
def markOccupied (old s : State) (i : Nat) (l : List Nat) : State :=
  s.each (newlyOccupied old s i l) fun t k => t.markUnexpected i k

/-- The route's sections other than path section 0. -/
def RouteDef.beyondEntry (d : RouteDef) : List Nat := d.path.drop 1 ++ d.overlapSecs

/-- Path section 0 changed into OCCUPIED in the act. -/
def State.entered (old s : State) (i : Nat) : Bool := (s.slotRoute i).path.head?.any fun k => becameOccupied old s k

/-! ### The successor (R118) -/

/-- What lies beyond the far end of the last path section: sections, a port's boundary section beyond, or nothing. -/
inductive Successor where
  | sections (l : List Nat)
  | port (p : Nat)
  | nothing
  deriving DecidableEq, Repr

/-- The far end of the last path section: the exit signal's end, or the port's (R12, R15 check 8). -/
def State.farEnd (s : State) (d : RouteDef) : SecEnd :=
  match d.kind with
  | .exit => (s.portDef d.exit).e
  | _ => (s.sigDef d.exit).e

/-- The successor of a route (R118). -/
def State.successor (s : State) (d : RouteDef) : Successor :=
  match s.image.conn (d.path.getLastD 0) (s.farEnd d) with
  | .joint t _ => .sections [t]
  | .leg q .tip => .sections [(s.ptDef q).normal, (s.ptDef q).reverse]
  | .leg q _ => .sections [(s.ptDef q).tip]
  | .port p => .port p
  | .buffer => .nothing

/-! ### The passage evaluation (R122 to R131) -/

/-- The section the head of slot `i` stood on when the act began. -/
def State.headSection (old : State) (i : Nat) : Option Nat :=
  (old.slot i).head.bind fun h => (old.slotRoute i).path[h]?

/-- A section is newly reached in the act (R122). -/
def reached (old s : State) (i k : Nat) : Bool :=
  becameOccupied old s k || (sweptClear old s k && decide (old.headSection i ≠ some k))

/-- The successor is newly reached in the act (R122, R132). -/
def successorReached (old s : State) (i : Nat) (d : RouteDef) : Bool :=
  match s.successor d with
  | .sections l => l.any fun k => reached old s i k
  | .port p => nbBecameOccupied old s p
  | .nothing => false

/-- The index `j` of a route of `n` path sections is newly reached; `n` stands for the successor. -/
def indexReached (old s : State) (i : Nat) (d : RouteDef) (j : Nat) : Bool :=
  if j < d.path.length then reached old s i (d.path.getD j 0) else successorReached old s i d

/-- An index between is bridged: newly reached in the act, or DISTURBED (R123). -/
def bridged (old s : State) (i : Nat) (d : RouteDef) (j : Nat) : Bool :=
  reached old s i (d.path.getD j 0) || decide ((s.sec (d.path.getD j 0)).occ = .disturbed)

/-- The index `j` satisfies the condition of R123 for a head at `h`. -/
def canAdvance (old s : State) (i : Nat) (d : RouteDef) (h j : Nat) : Bool :=
  decide (h < j) && indexReached old s i d j
    && (List.range j).all fun x => decide (x ≤ h) || bridged old s i d x

/-- The head index after the advance (R123). -/
def headAfter (old s : State) (i : Nat) (d : RouteDef) (h : Nat) : Nat :=
  ((List.range (d.path.length + 1)).reverse.find? fun j => canAdvance old s i d h j).getD h

/-- The path sections above the head that are newly reached (R124). -/
def aheadOf (old s : State) (i : Nat) (d : RouteDef) (h : Nat) : List Nat :=
  (d.path.drop (h + 1)).filter fun k => reached old s i k

/-- The head section changed into CLEAR in an act in which it was not itself newly reached (R125). -/
def vanishedAt (old s : State) (i : Nat) (d : RouteDef) (h : Nat) : Option Nat :=
  d.path[h]?.filter fun k => becameClear old s k && !reached old s i k

/-- Releases path section `r` of slot `i` with its points and their claims (R127). -/
def State.releaseSection (s : State) (i : Nat) (d : RouteDef) (r : Nat) : State :=
  let pts := (numbered d.pathPoints).filter fun p => p.2.fouling = r
  let s1 := s.freeSec (d.path.getD r 0) (.slot i)
  let s2 := s1.each pts fun t p => t.freePt p.2.pt (.slot i)
  let s3 := s2.releaseClaims i fun c => pts.any fun p => c.ofPath p.1
  s3.modSlot i fun k => { k with release := some (r + 1) }

/-- Sequential release from `r` upward (R127). -/
def State.releaseFrom (s : State) (i : Nat) (d : RouteDef) (h : Nat) : Nat → Nat → State
  | 0, _ => s
  | fuel + 1, r =>
    if r + 1 < d.path.length ∧ r < h ∧ s.secClear (d.path.getD r 0) then
      (s.releaseSection i d r).releaseFrom i d h fuel (r + 1)
    else s

/-- The route names overlap elements (R129). -/
def RouteDef.hasOverlap (d : RouteDef) : Bool :=
  !d.overlapSecs.isEmpty || !d.overlapPoints.isEmpty || !d.remoteItems.isEmpty

/-- The berth (R129): BERTHED with the overlap timer, or the end PASSED at a buffer stop. -/
def State.berth (s : State) (i : Nat) (d : RouteDef) : State :=
  let t := if d.overlapTime ≠ 0 ∧ d.hasOverlap then some (d.overlapTime * 1000) else none
  if s.successor d = .nothing then s.endSlot i .passed
  else s.modSlot i fun k => { k with state := .berthed, timerMs := t }

/-- The berth where its conditions hold (R129). -/
def State.tryBerth (s : State) (i : Nat) (d : RouteDef) (h : Nat) : State :=
  if (s.slot i).state = .occupied ∧ (s.slot i).release = some (d.path.length - 1) ∧ d.path.length - 1 ≤ h then s.berth i d
  else s

/-- The last-section release (R131). -/
def State.tryLast (s : State) (i : Nat) (d : RouteDef) (h : Nat) : State :=
  if (s.slot i).state = .berthed ∧ h = d.path.length ∧ s.secClear (d.path.getLastD 0) then s.endSlot i .passed else s

/-- The VANISHED test (R125). -/
def tryVanished (old s : State) (i : Nat) (d : RouteDef) (h : Nat) : State :=
  match vanishedAt old s i d h with
  | some k => s.markVanished i k
  | none => s

/-- The steps of an evaluation after the head advance, with no SEQUENCE mark standing (R124 to R131). The VANISHED test
follows the SEQUENCE test in the evaluation that sets SEQUENCE too (R122); that record is frozen from then on (R124). In the act
that sets VANISHED, R127 releases behind the head by its own conditions: R125's "nothing is released" is read of the VANISHED
test and of section h (log 49, DEDUCED). -/
def evaluateFrom (old s : State) (i : Nat) (d : RouteDef) (h r : Nat) : State :=
  match aheadOf old s i d h with
  | k :: rest => tryVanished old (s.each (k :: rest) fun t x => t.markSequence i x) i d h
  | [] => (((tryVanished old s i d h).releaseFrom i d h d.path.length r).tryBerth i d h).tryLast i d h

/-- The passage evaluation of the instance in slot `i` (R122). UNEXPECTED is set on an overlap section still locked that
changes into OCCUPIED while the head is below n (R133), the record frozen or not (R124). -/
def evaluate (old s : State) (i : Nat) : State :=
  let d := s.slotRoute i
  match (s.slot i).head, (s.slot i).release with
  | some h, some r =>
    let frozen := (s.slot i).marks.sequence
    let h' := if frozen then h else headAfter old s i d h
    let s1 := s.modSlot i fun k => { k with head := some h' }
    let s2 := if h' < d.path.length then markOccupied old s1 i d.overlapSecs else s1
    if frozen then s2 else evaluateFrom old s2 i d h' r
  | _, _ => s

/-- The act touches the instance in slot `i` (R122): a path, overlap or successor section changed, or the neighbour's
boundary section of an EXIT route. -/
def touched (old s : State) (i : Nat) : Bool :=
  let d := s.slotRoute i
  (d.sections.any fun k => occChanged old s k)
    || (match s.successor d with
      | .sections l => l.any fun k => occChanged old s k
      | .port p => nbChanged old s p
      | .nothing => false)

/-! ### The entry (R119 to R121) -/

/-- The train's entry, without marks of its own: OCCUPIED, both indices 0, the entry signal STOP and released, the instance enqueued
(R119, R138). -/
def State.takeEntry (s : State) (i : Nat) : State :=
  let g := (s.slotRoute i).entry
  (((s.setAspect g .stop).freeSig g i).modSlot i fun k =>
    { k with state := .occupied, head := some 0, release := some 0, timerMs := none, holds := Holds.empty }).note (.slot i)

/-- The lowest path section above 0 that is OCCUPIED (R121). -/
def State.aheadAtEntry (s : State) (d : RouteDef) : Option Nat :=
  (d.path.drop 1).find? fun k => decide ((s.sec k).occ = .occupied)

/-- The entry with the examination of R121 and the evaluation that follows in the act. -/
def enter (old s : State) (i : Nat) : State :=
  let s1 := s.takeEntry i
  let s2 := match s1.aheadAtEntry (s1.slotRoute i) with
    | some k => s1.markSequence i k
    | none => s1
  evaluate old s2 i

/-! ### The states of the RSU (R67 to R74) -/

/-- A remote request of the instance is REFUSED (R72). -/
def Slot.anyRefused (k : Slot) : Bool := k.remote.any fun r => decide (r.status = .refused)

/-- A change reaches an instance in SETTING (R68). -/
def reactSetting (old s : State) (i : Nat) : State :=
  let secs := (s.slotRoute i).sections
  if (newlyOccupied old s i secs).isEmpty then
    if (s.slot i).anyRefused then s.endSlot i (.settingFailed .neighbour)
    else (s.refreshPending i).tryClear i
  else (markOccupied old s i secs).endSlot i (.settingFailed .fault)

/-- A CLEARING instance whose entry signal is proven is CLEARED (R70). -/
def State.tryProve (s : State) (i : Nat) : State :=
  if (s.sig (s.slotRoute i).entry).proven then s.modSlot i fun k => { k with state := .cleared, timerMs := none } else s

/-- A change reaches an instance in CLEARING (R70, R73). -/
def reactClearing (old s : State) (i : Nat) : State :=
  let s1 := (markOccupied old s i (s.slotRoute i).sections).refreshPending i
  if s1.causes i = Holds.empty then s1.tryProve i else s1.hold i

/-- A change reaches an instance in CLEARED (R70, R73, R119). -/
def reactCleared (old s : State) (i : Nat) : State :=
  if State.entered old s i then enter old s i else
  let s1 := markOccupied old s i (s.slotRoute i).beyondEntry
  if s1.causes i = Holds.empty then s1 else s1.hold i

/-- A change reaches an instance in HELD (R74, R120). -/
def reactHeld (old s : State) (i : Nat) : State :=
  if State.entered old s i then enter old (s.markPassed i) i else
  let s1 := markOccupied old s i (s.slotRoute i).beyondEntry
  let c := s1.causes i
  s1.modSlot i fun k => { k with holds := c }

/-- A change reaches an instance in APPROACH_LOCKED (R112). -/
def reactApproach (old s : State) (i : Nat) : State :=
  if State.entered old s i then enter old (s.markPassed i) i
  else markOccupied old s i (s.slotRoute i).beyondEntry

/-- A change reaches an instance in RELEASE_TIMING (R114). -/
def reactRelease (old s : State) (i : Nat) : State :=
  if (s.slot i).head.isSome then s else
  let s1 := if State.entered old s i then s.markPassed i else s
  markOccupied old s1 i (s.slotRoute i).beyondEntry

/-- A change reaches the instance in slot `i`. -/
def react (old s : State) (i : Nat) : State :=
  match (s.slot i).state with
  | .free => s
  | .setting => reactSetting old s i
  | .clearing => reactClearing old s i
  | .cleared => reactCleared old s i
  | .held => reactHeld old s i
  | .approachLocked => reactApproach old s i
  | .releaseTiming => reactRelease old s i
  | .occupied => if touched old s i then evaluate old s i else s
  | .berthed => if touched old s i then evaluate old s i else s

/-! ### Timers of the instance (R71, R111 to R114, R130) -/

/-- The cause of a setting failure: the first that still stands (R71). A PORT_FLANK request GRANTED on a link that has left UP is
NEIGHBOUR (R71, R164; log 18, DEDUCED). -/
def State.failCause (s : State) (i : Nat) : FailCause :=
  let d := s.slotRoute i
  let pend := (s.slot i).pendingPts
  if pend.any fun p => d.points.any fun q => q.1 = p then .points
  else if !pend.isEmpty || !((s.slot i).claims.all fun c => s.flankProven i c.what) then .flank
  else if !s.neighboursGrant i then .neighbour
  else if d.sections.any fun k => decide ((s.sec k).occ = .disturbed) then .fault
  else .signal

/-- The setting timer of slot `i` expires (R71). -/
def State.settingExpiry (s : State) (i : Nat) : State :=
  match (s.slot i).state with
  | .setting => (s.refreshPending i).endSlot i (.settingFailed ((s.refreshPending i).failCause i))
  | .clearing => s.cancelCleared i
  | _ => s

/-- The overlap is released (R130): OVERLAP locks, claims of overlap points, RESERVE requests; the instance reference is
enqueued at every overlap release (R138). -/
def State.releaseOverlap (s : State) (i : Nat) : State :=
  let d := s.slotRoute i
  let s1 := s.each (d.overlapSecs.filter fun k => decide ((s.sec k).kind = some .overlap)) fun t k => t.freeSec k (.slot i)
  let s2 := s1.each ((d.overlapPoints.map Prod.fst).filter fun k => decide ((s.pt k).kind = some .overlap))
    fun t k => t.freePt k (.slot i)
  let s3 := s2.releaseClaims i Claim.ofOverlap
  let s4 := s3.withdrawWhere i fun r => match r.what with
    | .ask a => !a.flank
    | .acceptance _ => false
  (s4.modSlot i fun k => { k with timerMs := none }).note (.slot i)

end Sys2Proof.Machine
end

