-- ==== Sys2Proof/Machine/Boundary.lean ====
section
/-! DEFINITION. The Boundary Unit: ports and acceptances (R148 to R157), remote claim entries (R158 to R162), this part's
requests (R163), link states (R143 to R146), and the commands on ports and links (R149, R153, R165). -/

namespace Sys2Proof.Machine

/-! ### Incoming acceptances (R155, R156) -/

/-- No incoming acceptance on the port. -/
def Port.noIncoming (q : Port) : Port := { q with inc := .none, incTag := none, withdrawn := false }

/-- Releases the lock of a port acceptance on the boundary section (R156). -/
def State.freeAcceptance (s : State) (p : Nat) : State := s.freeSec (s.portDef p).sec (.accept p)

/-- The end of a RECEIVING acceptance: its section has become CLEAR (R156). -/
def State.endReceiving (s : State) (p : Nat) : State :=
  (s.freeAcceptance p).modPort p fun q =>
    if q.withdrawn then q.noIncoming else { q with inc := .completed, withdrawn := false }

/-- The boundary section's changes act on a granted acceptance (R156); a completed sweep counts as OCCUPIED and then
CLEAR. While the part is HALTED, or LOADING begun from HALTED, the acceptance and its lock stay as they stood (R146, taken over
R156 and R164 there: log 50, DEDUCED). -/
def portEdges (old s : State) (p : Nat) : State :=
  if s.haltedNow then s else
  let k := (s.portDef p).sec
  match (s.port p).inc with
  | .waiting =>
    if sweptClear old s k then s.endReceiving p
    else if becameOccupied old s k then s.modPort p fun q => { q with inc := .receiving }
    else s
  | .receiving => if becameClear old s k then s.endReceiving p else s
  | _ => s

/-- The neighbour's request is absent from an accepted STATUS, or listed with a new tag (R156). -/
def State.withdrawIncoming (s : State) (p : Nat) : State :=
  match (s.port p).inc with
  | .waiting => (s.freeAcceptance p).modPort p Port.noIncoming
  | .receiving => s.modPort p fun q => { q with withdrawn := true }
  | .completed => s.modPort p Port.noIncoming
  | .refused => s.modPort p Port.noIncoming
  | .none => s

/-- The part grants an acceptance on the port: view IN, link UP, boundary section CLEAR without lock owner (R155). -/
def State.mayAccept (s : State) (p : Nat) : Bool :=
  decide ((s.port p).view = .into) && s.linkUp (s.portDef p).link && s.secClear (s.portDef p).sec
    && (s.sec (s.portDef p).sec).owner.isNone

/-- Decides an acceptance request once (R155). -/
def State.decideIncoming (s : State) (p tag : Nat) : State :=
  if s.mayAccept p then
    (s.lockSec (s.portDef p).sec (.accept p) none).modPort p fun q => { q with inc := .waiting, incTag := some tag }
  else s.modPort p fun q => { q with inc := .refused, incTag := some tag }

/-- The neighbour's acceptance request of an accepted STATUS (R155, R156). -/
def State.takeIncoming (s : State) (p : Nat) : Option Nat → State
  | none => s.withdrawIncoming p
  | some tag =>
    if (s.port p).inc ≠ .none ∧ (s.port p).incTag = some tag then s else
    let s1 := s.withdrawIncoming p
    if (s1.port p).inc = .none ∧ s1.operational then s1.decideIncoming p tag else s1

/-! ### Line direction (R150 to R152) -/

/-- The view returns to its previous view (R145, R150, R151). -/
def Port.unrequest (q : Port) : Port :=
  if q.view = .requesting then { q with view := q.prev.getD .neutral, prev := none } else q

/-- The part decides its direction answer (R150). -/
def State.decideDirection (s : State) (p : Nat) : State :=
  if (s.port p).view = .requesting ∧ (s.portDef p).yields = false then s else
  let s1 := s.modPort p Port.unrequest
  if s1.directionConditions p then s1.modPort p fun q => { q with view := .into, dirAns := .grant }
  else s1.modPort p fun q => { q with dirAns := .refuse }

/-- The neighbour's view acts on the direction answer (R150). -/
def State.takeNbView (s : State) (p : Nat) (v : NbView) : State :=
  if v = .requesting then (if (s.port p).dirAns = .none then s.decideDirection p else s)
  else s.modPort p fun q => { q with dirAns := .none }

/-- The neighbour's direction answer acts on a request of this part (R151). -/
def Port.takeDirAns (a : DirAns) (q : Port) : Port :=
  let q1 := { q with nbDirAns := a }
  if q.view ≠ .requesting then q1 else
  match a with
  | .grant => { q1 with view := .out, prev := none, conflict := false }
  | .refuse => q1.unrequest
  | .none => q1

/-- A port's view is reconciled with the neighbour's at a matching HELLO (R152). -/
def State.reconcile (s : State) (p : Nat) (v : NbView) : State :=
  let s1 := s.modPort p fun q => { q with nbView := v }
  if v ≠ .outMine then s1 else
  match (s.port p).view with
  | .neutral => s1.modPort p fun q => { q with view := .into }
  | .into => s1.modPort p fun q => { q with view := .into }
  | .out =>
    let keep := s1.exitTargets p
    s1.modPort p fun q => { q with conflict := true, view := if keep then .out else .neutral }
  | .requesting => s1

/-! ### Answers to this part's requests (R163) -/

/-- The status and reason of a remote request after the neighbour's answer for its tag (R163). -/
def RemoteReq.answered (r : RemoteReq) : Option AnsStatus → RemoteReq
  | some .granted => { r with status := .granted, reason := none }
  | some (.refused why) => { r with status := .refused, reason := why.or r.reason }
  | _ => match r.status with
    | .pending => r
    | .granted => { r with status := .refused, reason := none }
    | .refused => r

/-- Writes an answer into the request with a tag on a link in a slot (R163). -/
def State.writeAnswer (s : State) (i l tag : Nat) (a : Option AnsStatus) : State :=
  s.modSlot i fun k => { k with remote := k.remote.map fun r => if r.link = l ∧ r.tag = tag then r.answered a else r }

/-- The neighbour's acceptance answer as an answer for a tag (R154). -/
def AccAns.status : AccAns → Option AnsStatus
  | .none => Option.none
  | .granted => some AnsStatus.granted
  | .refused => some (AnsStatus.refused Option.none)

/-- The neighbour's answer to this part's acceptance request on a port (R154, R163). -/
def State.takeAccAns (s : State) (p : Nat) (a : AccAns) (tag : Option Nat) : State :=
  let s1 := s.modPort p fun q => { q with nbAcc := a, nbAccTag := if a = .none then none else tag }
  match (s.port p).outAcc with
  | some (t, i) => s1.writeAnswer i (s.portDef p).link t (if tag = some t then a.status else none)
  | none => s1

/-- The answer list acts on the link's outgoing requests (R163). -/
def State.takeAnswers (s : State) (l : Nat) (as : List AnsItem) : State :=
  s.each (s.link l).outgoing fun t o =>
    t.writeAnswer o.slot l o.tag ((as.find? fun a => a.tag = o.tag).map AnsItem.status)

/-! ### Remote claim entries (R158 to R162) -/

/-- The entry `e` of link `l`'s table. -/
def State.entry (s : State) (l e : Nat) : Option RemoteEntry := ((s.link l).table.getD e none)

/-- A locked element of an entry is intact (R162). -/
def State.lockIntact (s : State) : Option ElemRef → Bool
  | none => true
  | some ⟨.sect, i⟩ => s.secClear i
  | some ⟨.point, i⟩ => (s.pt i).lockedPos.any fun p => s.atRest i p
  | some ⟨.signal, _⟩ => true

/-- Every element of an entry is intact (R162). -/
def State.entryIntact (s : State) (x : RemoteEntry) : Bool :=
  s.lockIntact x.lock && x.claims.all fun c => s.elemIntact c.what

/-- An entry after a change of its elements: a local claim is marked lost only once the entry has been GRANTED (R103, R162). -/
def State.watchEntry (s : State) (x : RemoteEntry) : RemoteEntry :=
  let y := { x with claims := x.claims.map fun c =>
    if x.beenGranted then c.watch (s.elemIntact c.what) else c.seen (s.elemIntact c.what) }
  if !x.decided then y else
  match x.status with
  | .working => if s.entryIntact x then { y with status := .granted, beenGranted := true } else y
  | .granted => if s.entryIntact x then y else { y with status := .refused (some .fault) }
  | .refused _ => y

/-- The tables of all links after a change (R162), in HALTED too (R146; of an entry's locked element beside its local claims: log 50,
DEDUCED). -/
def State.watchTables (s : State) : State :=
  { s with bdu.links := s.bdu.links.map fun k => { k with table := k.table.map fun x => x.map s.watchEntry } }

/-- Releases an entry: its lock, its local claims; it becomes free (R158). -/
def State.releaseEntry (s : State) (l e : Nat) : State :=
  match s.entry l e with
  | none => s
  | some x =>
    let s1 := match x.lock with
      | some ⟨.sect, i⟩ => s.freeSec i (.remote l e)
      | some ⟨.point, i⟩ => s.freePt i (.remote l e)
      | _ => s
    (s1.each x.claims fun t c => t.dropCount c.what).setEntry l e none

/-- What a request's decision comes to: refused, or held with a lock or claims (R159 to R161). -/
inductive Decision where
  | refuse (r : Reason)
  | lockSec (i : Nat)
  | lockPt (i : Nat) (p : Pos)
  | claims (cs : List Claim)
  deriving DecidableEq, Repr

/-- The element a RESERVE request names, if it is of an element class. -/
def Ask.elem? (a : Ask) : Option ElemRef :=
  match a.cls with
  | .port => none
  | .sect => some ⟨.sect, a.idx⟩
  | .point => some ⟨.point, a.idx⟩
  | .signal => some ⟨.signal, a.idx⟩

/-- Another entry of the link with an identical request locks the element (R161). -/
def State.sharedLock (s : State) (l e : Nat) (a : Ask) (x : ElemRef) : Bool :=
  (List.range (s.link l).table.length).any fun j =>
    decide (j ≠ e) && (s.entry l j).any fun y => decide (y.ask = a) && decide (y.lock = some x)

/-- One local claim, not yet placed. -/
def freshClaim (w : ClaimOn) : Claim := ⟨w, none, false, false⟩

/-- The tests of a section's reservation after the window, state and NO_ROUTE tests (R160, R161). -/
def State.reserveSec (s : State) (i : Nat) (shared : Bool) : Decision :=
  if (s.sec i).occ = .disturbed then .refuse .fault
  else if (s.sec i).occ = .occupied ∨ ((s.sec i).owner.isSome ∧ shared = false) then .refuse .conflict
  else if !shared then .lockSec i
  else if (s.sec i).claims < Config.maxClaims then .claims [freshClaim (.sect i)] else .refuse .conflict

/-- The point may be moved to `p` for a reservation, or lies there (R160). -/
def State.reservable (s : State) (i : Nat) (p : Pos) : Bool :=
  s.atRest i p || (!(s.ptRestr i).noMove && s.secClear (s.ptDef i).fouling && s.operational)

/-- The tests of a point's reservation (R160, R161). -/
def State.reservePt (s : State) (i : Nat) (p : Pos) (shared : Bool) : Decision :=
  if (s.pt i).pos = .lost then .refuse .fault
  else if (s.pt i).pos = .moving ∨ ((s.pt i).owner.isSome ∧ shared = false)
      ∨ ((s.pt i).claims ≠ 0 ∧ (s.pt i).claimPos ≠ some p) ∨ s.reservable i p = false then .refuse .conflict
  else if !shared then .lockPt i p
  else if (s.pt i).claims < Config.maxClaims then .claims [freshClaim (.point i p)] else .refuse .conflict

/-- The tests of a signal's reservation (R160). -/
def State.reserveSig (s : State) (i : Nat) : Decision :=
  if !(s.sig i).provenStop || (s.sig i).lamp then .refuse .fault
  else if (s.sig i).owner.isSome ∨ Config.maxClaims ≤ (s.sig i).holds then .refuse .conflict
  else .claims [freshClaim (.signal i)]

/-- The element carries NO_ROUTE. -/
def State.noRouteOn (s : State) (x : ElemRef) : Bool :=
  match x.cls with
  | .sect => (s.secRestr x.idx).noRoute
  | .point => (s.ptRestr x.idx).noRoute
  | .signal => (s.sigRestr x.idx).noRoute

/-- Decides a RESERVE request for entry `e` (R160, R161). -/
def State.decideReserve (s : State) (l e : Nat) (a : Ask) : Decision :=
  match a.elem?.filter fun x => (s.linkDef l).window.contains x with
  | none => .refuse .window
  | some x =>
    match a.state.filter fun st => stateFits x.cls st with
    | none => .refuse .fault
    | some st =>
      if s.noRouteOn x then .refuse .conflict else
      match x.cls with
      | .sect => s.reserveSec x.idx (s.sharedLock l e a x)
      | .point => s.reservePt x.idx (if st = .normal then .normal else .reverse) (s.sharedLock l e a x)
      | .signal => s.reserveSig x.idx

/-- This part's port at the position of the neighbour's port `n` on link `l` (R140, R159). -/
def State.ownPort (s : State) (l n : Nat) : Option Nat :=
  match (s.link l).nbPorts with
  | some ps => (ps.idxOf? n).bind fun k => (s.portsOf l)[k]?
  | none => none

/-- Decides a PORT_FLANK request (R159). -/
def State.decideFlank (s : State) (l : Nat) (a : Ask) : Decision :=
  match if a.cls = .port then s.ownPort l a.idx else none with
  | none => .refuse .fault
  | some p =>
    match s.searchPort p with
    | .going cs _ => .claims cs
    | .conflict => .refuse .conflict
    | .limit => .refuse .search

/-- Decides a request for entry `e` (R159, R160). -/
def State.decideRequest (s : State) (l e : Nat) (a : Ask) : Decision :=
  if a.flank then s.decideFlank l a else s.decideReserve l e a

/-- A status from the intactness of what an entry holds (R159 to R162). -/
def RemoteEntry.granting (x : RemoteEntry) (ok : Bool) : RemoteEntry :=
  { x with status := if ok then .granted else .working, beenGranted := ok, decided := true }

/-- Records an element refused with reason WINDOW (R160); a RESERVE of class port names no element and records nothing
(log 30). -/
def State.windowRefusal (s : State) (l : Nat) (a : Ask) (r : Reason) : State :=
  if r = .window ∧ a.elem?.isSome then s.modLink l fun k => { k with lastRefusal := a.elem? } else s

/-- Carries a decision out for entry `e` with its tag and request. -/
def State.settle (s : State) (l e tag : Nat) (a : Ask) : State :=
  let x : RemoteEntry := ⟨tag, a, .working, true, false, none, []⟩
  match s.decideRequest l e a with
  | .refuse r => (s.windowRefusal l a r).setEntry l e (some { x with status := .refused (some r) })
  | .lockSec i => (s.lockSec i (.remote l e) none).setEntry l e (some ({ x with lock := some ⟨.sect, i⟩ }.granting true))
  | .lockPt i p =>
    let s1 := (s.lockPt i (.remote l e) none p).moveIfOther i p
    s1.setEntry l e (some ({ x with lock := some ⟨.point, i⟩ }.granting (s1.atRest i p)))
  | .claims cs =>
    let s1 := (s.placeCounts cs).beginClaimMoves cs
    let placed := s1.placed cs
    s1.setEntry l e (some ({ x with claims := placed }.granting (placed.all fun c => s1.elemIntact c.what)))

/-- The place of a tag in link `l`'s table. -/
def State.entryOf (s : State) (l tag : Nat) : Option Nat :=
  (s.link l).table.findIdx? fun x => x.any fun y => decide (y.tag = tag)

/-- The lowest free entry of link `l`'s table. -/
def State.freeEntry (s : State) (l : Nat) : Option Nat := (s.link l).table.findIdx? fun x => x.isNone

/-- Step 3 on one listed request: a new tag is decided, or entered as WORKING outside OPERATIONAL; an undecided entry is
decided (R158). -/
def State.takeRequest (s : State) (l : Nat) (q : Nat × Ask) : State :=
  match s.entryOf l q.1 with
  | some e =>
    if s.operational && ((s.entry l e).any fun x => !x.decided) then s.settle l e q.1 q.2 else s
  | none =>
    match s.freeEntry l with
    | none => s
    | some e =>
      if s.operational then s.settle l e q.1 q.2
      else s.setEntry l e (some ⟨q.1, q.2, .working, false, false, none, []⟩)

/-- An entry goes at a request list: its tag is not listed, or listed with another request (R158 steps 1 and 2). -/
def goesAt (reqs : List (Nat × Ask)) (keepTag : Bool) (x : Option RemoteEntry) : Bool :=
  x.any fun y => match reqs.find? fun q => q.1 = y.tag with
    | none => !keepTag
    | some q => keepTag && decide (q.2 ≠ y.ask)

/-- The request list of an accepted STATUS against the link's table (R158). -/
def State.takeRequests (s : State) (l : Nat) (reqs : List (Nat × Ask)) : State :=
  let all := List.range (s.link l).table.length
  let s1 := s.each (all.filter fun e => goesAt reqs false (s.entry l e)) fun t e => t.releaseEntry l e
  let s2 := s1.each (all.filter fun e => goesAt reqs true (s1.entry l e)) fun t e => t.releaseEntry l e
  s2.each reqs fun t q => t.takeRequest l q

/-! ### Accepted telegrams (R144 to R147) -/

/-- The neighbour's boundary section state of a port entry. -/
def Occ.nb : Occ → NbSec
  | .clear => .clear
  | .occupied => .occupied
  | .disturbed => .disturbed

/-- A port entry of an accepted STATUS acts on port `p` (R147 step 1). -/
def State.takePortEntry (s : State) (p : Nat) (e : PortEntry) : State :=
  let s1 := s.modPort p fun q => { q with nbView := e.view, nbSec := e.occ.nb }
  let s2 := (s1.takeNbView p e.view).modPort p (Port.takeDirAns e.dir)
  (s2.takeAccAns p e.ans e.ansTag).takeIncoming p e.acc

/-- The neighbour's entry for the port in position `k` (R140). Of two entries with one port number the first is acted on and
the other is not: R142 discards no such STATUS, and R147 does not say (log 45, DESIGN CHOICE). -/
def State.entryFor (s : State) (l k : Nat) (ports : List PortEntry) : Option PortEntry :=
  match (s.link l).nbPorts with
  | some ps => ps[k]?.bind fun n => ports.find? fun e => e.num = n
  | none => none

/-- A port that a STATUS carries no entry for: it answers this part's acceptance request with nothing (R163), and the neighbour's
acceptance request is absent from it (R156); the rest of the port's record stays (log 43, DEDUCED). -/
def State.missPortEntry (s : State) (p : Nat) : State := (s.takeAccAns p .none none).takeIncoming p none

/-- A STATUS is acted on in UP, in one act (R147). -/
def State.actStatus (s : State) (l : Nat) (ports : List PortEntry) (reqs : List (Nat × Ask)) (as : List AnsItem) : State :=
  let s1 := s.each (numbered (s.portsOf l)) fun t x =>
    match t.entryFor l x.1 ports with
    | some e => t.takePortEntry x.2 e
    | none => t.missPortEntry x.2
  (s1.takeAnswers l as).takeRequests l reqs

/-- The configuration digests match (R144). -/
def State.digestMatches (s : State) (l : Nat) (ps : List HelloPort) : Bool :=
  let own := s.portsOf l
  decide (own.length = ps.length) && (own.zip ps).all fun x => (s.portDef x.1).yields != x.2.yields

/-- An accepted HELLO is acted on in HELLO (R144, R152). -/
def State.actHello (s : State) (l : Nat) (seen : Bool) (ps : List HelloPort) : State :=
  if s.digestMatches l ps then
    let s1 := s.modLink l fun k => { k with seen := true, nbPorts := some (ps.map HelloPort.num), config := false }
    let s2 := s1.each ((s.portsOf l).zip ps) fun t x => t.reconcile x.1 x.2.view
    s2.modLink l fun k => { k with answered := k.answered || seen }
  else s.modLink l fun k => { k with seen := false, answered := false, config := true }

/-- What leaving UP does to a port of the link (R145). -/
def Port.leaveUp (q : Port) : Port := { q.unrequest with nbSec := .unknown, dirAns := .none, nbDirAns := .none }

/-- The link leaves UP: its ports change, the link and its ports are enqueued (R145). -/
def State.leaveUp (s : State) (l : Nat) : State :=
  if (s.link l).state ≠ .up then s else
  (s.each (s.portsOf l) fun t p => (t.modPort p Port.leaveUp).note (.port p)).note (.link l)

/-- Entry into DISTURBED (R145). -/
def State.disturb (s : State) (l : Nat) : State :=
  (s.leaveUp l).modLink l fun k =>
    { k with state := .disturbed, lastSeq := none, seen := false, answered := false, nbPorts := none, timeoutMs := none }

/-- Entry into HELLO: seen and answered false, the timeout timer started (R144, R145). -/
def State.enterHello (s : State) (l : Nat) : State :=
  let ms := s.linkTimeoutMs
  (s.leaveUp l).modLink l fun k => { k with state := .hello, seen := false, answered := false, timeoutMs := some ms }

/-- An accepted telegram is acted on by the link state (R144, R145). -/
def State.actTelegram (s : State) (l : Nat) (b : TelBody) : State :=
  match b, (s.link l).state with
  | .halt, .disturbed => s
  | .halt, _ => s.disturb l
  | .hello seen ps, .hello => s.actHello l seen ps
  | .hello seen ps, _ => (s.enterHello l).actHello l seen ps
  | .status ports reqs as, .up => s.actStatus l ports reqs as
  | .status ports reqs as, .hello =>
    if (s.link l).seen then (s.modLink l fun k => { k with state := .up }).actStatus l ports reqs as else s
  | .status _ _ _, _ => s.enterHello l

/-! ### What the part sends (R141, R147) -/

/-- A view as a telegram carries it (R147). -/
def View.sent : View → NbView
  | .neutral => .neutral
  | .out => .outMine
  | .into => .inYours
  | .requesting => .requesting

/-- The part's answer to the neighbour's acceptance request (R155, R156). -/
def Port.accAnswer (q : Port) : AccAns :=
  match q.inc with
  | .none => .none
  | .refused => .refused
  | _ => .granted

/-- The port entry of a STATUS (R147). -/
def State.portEntry (s : State) (p : Nat) : PortEntry :=
  let q := s.port p
  { num := p, view := q.view.sent, dir := q.dirAns, acc := q.outAcc.map Prod.fst, ans := q.accAnswer
    ansTag := if q.accAnswer = .none then none else q.incTag, occ := (s.sec (s.portDef p).sec).occ }

/-- The answer list: one item for each occupied entry (R158). -/
def Link.answers (k : Link) : List AnsItem := k.table.filterMap fun x => x.map fun y => ⟨y.tag, y.status⟩

/-- The request list as sent (R163). -/
def Link.requests (k : Link) : List (Nat × Ask) := k.outgoing.map fun o => (o.tag, o.ask)

/-- A HELLO of this part (R141, R144). -/
def State.helloBody (s : State) (l : Nat) (seen : Bool) : TelBody :=
  .hello seen ((s.portsOf l).map fun p => ⟨p, (s.portDef p).yields, (s.port p).view.sent⟩)

/-- A STATUS of this part (R147). -/
def State.statusBody (s : State) (l : Nat) : TelBody :=
  .status ((s.portsOf l).map s.portEntry) (s.link l).requests (s.link l).answers

/-- The content the next telegram on the link would carry (R141). -/
def State.content (s : State) (l : Nat) : TelBody :=
  let k := s.link l
  if s.haltedNow then .halt else
  match k.state with
  | .down => s.helloBody l false
  | .disturbed => s.helloBody l false
  | .hello => if k.answered then s.statusBody l else s.helloBody l k.seen
  | .up => s.statusBody l

/-- Sends the next telegram on the link, with this part's own station identity (R2, R141). -/
def State.send (s : State) (l : Nat) : State :=
  let b := s.content l
  let own := s.image.identity
  s.modLink l fun k => { k with lastSent := some ⟨own, b, k.nextSeq⟩, nextSeq := (k.nextSeq + 1) % 16, sinceMs := some 0 }

/-- The part sends on the link: equipped, with an image active (R141). -/
def State.sends (s : State) (l : Nat) : Bool := s.sds.active.isSome && s.equipped l

/-- The content differs from the previous telegram's, or none has been sent since the start (R141). -/
def State.changed (s : State) (l : Nat) : Bool := decide ((s.link l).lastSent.map SentTel.body ≠ some (s.content l))

/-- 50 ms have passed since the previous telegram, or none has been sent (R141). -/
def Link.spaced (k : Link) : Bool :=
  match k.sinceMs with
  | some n => decide (50 ≤ n)
  | none => true

/-- Sends on each link whose content has changed, where the spacing allows it (R141). -/
def State.sendChanges (s : State) : State :=
  s.each (List.range s.bdu.links.length) fun t l => if t.sends l && t.changed l && (t.link l).spaced then t.send l else t

/-! ### Commands -/

/-- A port is 0–7, defined, and its area held (R4, R140). -/
def State.portRefusal (s : State) (o : Originator) (p : Nat) : Option Res :=
  if Config.maxPorts ≤ p then some .badParameter
  else if s.bdu.ports.length ≤ p then some .unknown
  else if s.holds o (s.secDef (s.portDef p).sec).area then none else some .notInControl

/-- REQUEST_DIRECTION (R149). -/
def State.cmdRequestDirection (s : State) (o : Originator) (p : Nat) : Answer :=
  match s.portRefusal o p with
  | some r => s.refuse r
  | none =>
    let q := s.port p
    if !s.operational then s.refuse .notOperational
    else if q.view = .out then s.refuse .done
    else if q.view = .requesting then s.refuse .busy
    else if !s.linkUp (s.portDef p).link then s.refuse .fault
    else if q.incGranted then s.refuse .inUse
    else if !s.secClear (s.portDef p).sec then s.refuse .conflict
    else if q.nbDirAns ≠ .none then s.refuse .busy
    else (s.modPort p fun x => { x with prev := some x.view, view := .requesting }, .accepted, .none)

/-- The checks of FORCE_DIRECTION (R153). -/
def State.forceDirRefusal (s : State) (o : Originator) (p : Nat) : Option Res :=
  match s.portRefusal o p with
  | some r => some r
  | none =>
    if !s.operational then some .notOperational
    else if s.linkUp (s.portDef p).link then some .notPermitted
    else if (s.port p).incGranted then some .inUse
    else if !s.secClear (s.portDef p).sec then some .conflict
    else none

/-- FORCE_DIRECTION executed, its checks passed (R153). -/
def State.forceDirection (s : State) (p : Nat) : State :=
  s.modPort p fun q => if q.view = .out then q else { q with view := .out, prev := none, conflict := false }

/-- The originator holds the area of each of the link's ports (R165). -/
def State.holdsLink (s : State) (o : Originator) (l : Nat) : Bool :=
  (s.portsOf l).all fun p => s.holds o (s.secDef (s.portDef p).sec).area

/-- The checks of CLEAR_REMOTE_CLAIMS (R165). -/
def State.clearRemoteRefusal (s : State) (o : Originator) (l : Nat) : Option Res :=
  if Config.maxLinks ≤ l then some .badParameter
  else if !s.equipped l then some .unknown
  else if !s.operational then some .notOperational
  else if !s.holdsLink o l then some .notInControl
  else if s.linkUp l then some .notPermitted
  else none

/-- CLEAR_REMOTE_CLAIMS executed, its checks passed (R165). -/
def State.clearRemote (s : State) (l : Nat) : State :=
  let s1 := s.each (List.range (s.link l).table.length) fun t e => t.releaseEntry l e
  s1.each (s1.portsOf l) fun t p => t.withdrawIncoming p

end Sys2Proof.Machine
end

