-- ==== Sys2Proof/Machine/Act.lean ====
section
/-! DEFINITION. One act: what follows a change inside the same step: handing it on (R41), retry passes (R80), notice
references (R41, R58, R138, R166, R187), telegrams a change causes (R141). -/

namespace Sys2Proof.Machine

/-- The live slots. -/
def State.liveSlots (s : State) : List Nat := (List.range s.rsu.slots.length).filter s.live

/-- Hands the changes from `old` to `s` on: flank marks, instances, incoming acceptances, remote claim entries (R41, log 14). -/
def handOn (old s : State) : State :=
  let s1 := s.each s.liveSlots fun t i => watchClaims old t i
  let s2 := s1.each s1.liveSlots fun t i => react old t i
  let s3 := s2.each (List.range s2.bdu.ports.length) fun t p => portEdges old t p
  s3.watchTables

/-- Further retry passes while release events arise in a pass (R80). -/
def State.retryLoop : Nat → State → State
  | 0, s => { s with releaseDue := false }
  | fuel + 1, s =>
    if s.releaseDue && s.operational then
      let s0 := { s with releaseDue := false }
      State.retryLoop fuel (handOn s0 s0.retryPass)
    else { s with releaseDue := false }

/-- Enqueues the references of the indices below `n` that a test finds changed. -/
def State.noteIf (s : State) (n : Nat) (changed : Nat → Bool) (ref : Nat → Ref) : State :=
  s.each ((List.range n).filter changed) fun t i => t.note (ref i)

/-- A point record without its running timer value (R41). -/
def PointRec.still (r : PointRec) : PointRec := { r with throwMs := none }

/-- An instance record without what enqueues nothing: the running timer value and the been-intact flags (R58, R83). -/
def Slot.still (k : Slot) : Slot := { k with timerMs := none, claims := k.claims.map fun c => { c with been := false } }

/-- What of a link record enqueues its reference on a change (R166). -/
structure LinkKey where
  state : LinkState
  seen : Bool
  answered : Bool
  config : Bool
  lastRefusal : Option ElemRef
  entries : List (Option (Nat × Ask × AnsStatus))
  deriving DecidableEq, Repr

/-- The key of a link record. -/
def Link.key (k : Link) : LinkKey :=
  ⟨k.state, k.seen, k.answered, k.config, k.lastRefusal, k.table.map fun x => x.map fun y => (y.tag, y.ask, y.status)⟩

/-- What of the store enqueues its reference on a change (R79). -/
def Rsu.storeKey (r : Rsu) : List (Nat × Originator) × Option (Nat × Removal) :=
  (r.store.map fun e => (e.route, e.originator), r.lastRemoval)

/-- What of the system enqueues its reference on a change (R187). -/
def State.systemKey (s : State) : (Mode × StartCause × Option HaltReason) × CheckResult × List (Nat × CtrlState) × List Holder :=
  ((s.mdc.mode, s.mdc.cause, s.mdc.halt), s.sds.lastCheck, s.flu.ctrls.map (fun c => (c.addr, c.state)), s.slu.holders)

/-- Enqueues the references of everything that changed from `old` to `s`, class by class (R41, R58, R79, R138, R166, R187,
log 27). -/
def noteChanges (old s : State) : State :=
  let s1 := s.noteIf s.est.sections.length
    (fun i => decide (old.sec i ≠ s.sec i ∨ old.secRestr i ≠ s.secRestr i)) .sect
  let s2 := s1.noteIf s.est.points.length
    (fun i => decide ((old.pt i).still ≠ (s.pt i).still ∨ old.ptRestr i ≠ s.ptRestr i)) .point
  let s3 := s2.noteIf s.est.signals.length
    (fun i => decide (old.sig i ≠ s.sig i ∨ old.sigRestr i ≠ s.sigRestr i)) .signal
  let s4 := s3.noteIf s.bdu.ports.length (fun i => decide (old.port i ≠ s.port i)) .port
  let s5 := s4.noteIf s.bdu.links.length (fun i => decide ((old.link i).key ≠ (s.link i).key)) .link
  let s6 := s5.noteIf s.rsu.slots.length (fun i => decide ((old.slot i).still ≠ (s.slot i).still)) .slot
  let s7 := if old.rsu.storeKey ≠ s.rsu.storeKey then s6.note .store else s6
  if old.systemKey ≠ s.systemKey then s7.note .system else s7

/-- What follows a change from `old` to `s` inside one act. -/
def finish (old s : State) : State :=
  let s1 := handOn old s
  let s2 := handOn s1 s1
  (noteChanges old (State.retryLoop 18 s2)).sendChanges

end Sys2Proof.Machine
end

