-- ==== Sys2Proof/Machine/Field.lean ====
section
/-! DEFINITION. The Field Link Unit: reports into the element records (R24 to R26, R29, R31, R34, R47), controller states
(R48 to R52), polls (R44 to R46), field frames (12, "Field polls and answers"). -/

namespace Sys2Proof.Machine

/-! ### Reports (R47) -/

/-- A section report; a value outside the set is taken as DISTURBED (R47). -/
def sectionReport : Nat → Occ
  | 0 => .clear
  | 1 => .occupied
  | _ => .disturbed

/-- A point report; a value outside the set is taken as NO_DETECTION, none here (R47). -/
def pointReport : Nat → Option Pos
  | 3 => some .normal
  | 4 => some .reverse
  | _ => none

/-- A signal report; a value outside the set is taken as DARK (R47). -/
def signalReport : Nat → Reported
  | 6 => .stop
  | 7 => .proceed
  | 8 => .restricted
  | _ => .dark

/-- A section's report as its last report. -/
def Occ.report : Occ → SecReport
  | .clear => .clear
  | .occupied => .occupied
  | .disturbed => .disturbed

/-- A section takes a report (R24, R26). -/
def SectionRec.report (r : SectionRec) (x : Occ) : SectionRec :=
  let r1 := { r with last := x.report }
  match r.occ, x with
  | .disturbed, .occupied => { r1 with sweep := true }
  | .disturbed, .clear => if r.sweep then { r1 with occ := .clear, sweep := false } else r1
  | .disturbed, .disturbed => { r1 with sweep := false }
  | _, .disturbed => { r1 with occ := .disturbed, sweep := false }
  | _, _ => { r1 with occ := x }

/-- The detection of a point as its last detection. -/
def ptLast : Option Pos → PtReport
  | some .normal => .normal
  | some .reverse => .reverse
  | none => .noDetection

/-- A LOST point may be taken back at `y`: no lock owner and no claim, or both positions absent or `y` (R29). -/
def PointRec.agrees (r : PointRec) (y : Pos) : Bool :=
  (r.owner.isNone && decide (r.claims = 0))
    || (decide (r.lockedPos = none ∨ r.lockedPos = some y) && decide (r.claimPos = none ∨ r.claimPos = some y))

/-- A report of a point that is not MOVING (R29). -/
def PointRec.reportStill (r : PointRec) (x : Option Pos) : PointRec :=
  let r1 := { r with last := ptLast x }
  if r.pos = .lost then
    match x with
    | none => r1
    | some y =>
      if r.agrees y then { r1 with pos := y.rest, commanded := some y, detectionLost := false }
      else { r1 with detectionLost := true }
  else if x.map Pos.rest = some r.pos then r1
  else { r1 with pos := .lost, commanded := none, detectionLost := true }

/-- The report of the commanded position completes the movement (R31). -/
def PointRec.completes (r : PointRec) (x : Option Pos) : Bool :=
  decide (r.pos = .moving) && x.isSome && decide (x = r.commanded)

/-- A point takes a report (R29, R31). -/
def PointRec.report (r : PointRec) (x : Option Pos) : PointRec :=
  if r.pos = .moving then
    match x with
    | some p =>
      if r.commanded = some p then { r with last := ptLast x, pos := p.rest, throwMs := none, detectionLost := false }
      else { r with last := ptLast x }
    | none => { r with last := ptLast x }
  else r.reportStill x

/-- An aspect as it is reported. -/
def Aspect.reported : Aspect → Reported
  | .stop => .stop
  | .proceed => .proceed
  | .restricted => .restricted

/-- A signal takes a report (R34). -/
def SignalRec.report (r : SignalRec) (x : Reported) : SignalRec :=
  { r with reported := x, lamp := if x = .dark then true else if x = r.commanded.reported then false else r.lamp }

/-- A point report in the table; a completed movement is a release event (R31). -/
def State.reportPoint (s : State) (i : Nat) (x : Option Pos) : State :=
  let s1 := s.modPt i fun r => r.report x
  if (s.pt i).completes x then s1.releaseEvent else s1

/-- The elements of a class a controller serves. -/
def served {α : Type} (l : List α) (ctrl : α → Nat) (addr : Nat) : List Nat :=
  (List.range l.length).filter fun i => (l[i]?.map ctrl) = some addr

/-- Hands the sixteen reports of an answer to the elements of the controller (R47). -/
def State.takeReports (s : State) (addr : Nat) (codes : List Nat) : State :=
  let m := s.image
  let s1 := s.each (served m.sections SecDef.ctrl addr) fun t i =>
    t.modSec i fun r => r.report (sectionReport (codes.getD (s.secDef i).chan 10))
  let s2 := s1.each (served m.points PtDef.ctrl addr) fun t i =>
    t.reportPoint i (pointReport (codes.getD (s.ptDef i).chan 10))
  s2.each (served m.signals SigDef.ctrl addr) fun t i =>
    t.modSig i fun r => r.report (signalReport (codes.getD (s.sigDef i).chan 10))

/-! ### Controller states (R48, R49) -/

/-- Changes the record of a controller address. -/
def State.modCtrl (s : State) (addr : Nat) (f : Ctrl → Ctrl) : State :=
  { s with flu.ctrls := s.flu.ctrls.map fun c => if c.addr = addr then f c else c }

/-- A section when its controller is declared LOST (R25, R49). -/
def SectionRec.lose (r : SectionRec) : SectionRec := { r with occ := .disturbed, sweep := false, last := .noReport }

/-- A point when its controller is declared LOST (R31, R49). -/
def PointRec.lose (r : PointRec) : PointRec :=
  { r with pos := .lost, commanded := none, throwMs := none, last := .noReport }

/-- A point goes LOST with its controller; the end of a movement is a release event (R31, R49). -/
def State.losePoint (s : State) (i : Nat) : State :=
  let s1 := s.modPt i PointRec.lose
  if (s.pt i).pos = .moving then s1.releaseEvent else s1

/-- A controller is declared LOST: the record of every element it serves changes (R49). -/
def State.loseController (s : State) (addr : Nat) : State :=
  let m := s.image
  let s1 := s.modCtrl addr fun c => { c with state := .lost }
  let s2 := s1.each (served m.sections SecDef.ctrl addr) fun t i => t.modSec i SectionRec.lose
  let s3 := s2.each (served m.points PtDef.ctrl addr) fun t i => t.losePoint i
  s3.each (served m.signals SigDef.ctrl addr) fun t i => t.modSig i fun r => { r with reported := .unknown }

/-- A missed poll of a controller (R49). -/
def State.missPoll (s : State) (addr : Nat) : State :=
  let lim := s.missedLimit
  let s1 := s.modCtrl addr fun c => { c with missed := min lim (c.missed + 1) }
  match s.ctrl? addr with
  | some c => if c.state = .active ∧ lim ≤ c.missed + 1 then s1.loseController addr else s1
  | none => s1

/-- A valid answer of a controller: missed count 0, ACTIVE, its reports taken in the same act (R47, R48). -/
def State.answer (s : State) (addr : Nat) (codes : List Nat) : State :=
  (s.modCtrl addr fun c => { c with state := .active, missed := 0 }).takeReports addr codes

/-- No controller record is UNKNOWN (R52). -/
def State.pollingComplete (s : State) : Bool := s.flu.ctrls.all fun c => decide (c.state ≠ .unknown)

/-- Each controller still UNKNOWN is declared LOST (R52). -/
def State.loseUnknown (s : State) : State :=
  s.each ((s.flu.ctrls.filter fun c => c.state = .unknown).map Ctrl.addr) fun t a => t.loseController a

/-! ### Polls (R44, R45) -/

/-- A point's commanded position as a channel command. -/
def pointCmd : Option Pos → ChanCmd
  | some .normal => .normal
  | some .reverse => .reverse
  | none => .none

/-- A signal's commanded aspect as a channel command. -/
def signalCmd : Aspect → ChanCmd
  | .stop => .stop
  | .proceed => .proceed
  | .restricted => .restricted

/-- The command for a channel: of the point or signal on it, NOTHING otherwise (R45). -/
def State.channelCmd (s : State) (addr chan : Nat) : ChanCmd :=
  let m := s.image
  match (served m.points PtDef.ctrl addr).find? fun i => (s.ptDef i).chan = chan with
  | some i => pointCmd (s.pt i).commanded
  | none =>
    match (served m.signals SigDef.ctrl addr).find? fun i => (s.sigDef i).chan = chan with
    | some i => signalCmd (s.sig i).commanded
    | none => .nothing

/-- The poll of an address, read from the element records at this moment (R45). -/
def State.pollOf (s : State) (addr : Nat) : Poll := ⟨addr, (List.range 16).map fun c => s.channelCmd addr c⟩

/-- Sends the poll of the poll position's controller and opens the answer wait (R44, R46). -/
def State.sendPoll (s : State) : State :=
  match s.flu.pollPos with
  | some a => { s with flu.poll := .waiting, flu.lastPoll := some (s.pollOf a) }
  | none => s

/-- The next listed address: the lowest above, else the lowest (R44). -/
def State.nextAddress (s : State) (a : Nat) : Option Nat :=
  let l := s.flu.ctrls.map Ctrl.addr
  (l.find? fun b => a < b).or l.head?

/-- A poll ends: the poll position moves on, none is outstanding (R44). -/
def State.endPoll (s : State) : State :=
  { s with flu.poll := .none, flu.pollPos := s.flu.pollPos.bind s.nextAddress }

/-! ### Field frames -/

/-- The checks of an answer frame (R46), for the controller polled. R46 says "the byte count": both the 22 bytes received and the
length byte 18 are asked for (log 48, DESIGN CHOICE). -/
def answerValid (addr : Nat) (bs : List Byte) : Bool :=
  decide (bs.length = 22) && decide (u8 bs 0 = 0x96) && decide (u8 bs 1 = 18) && decide (u8 bs 2 = addr)
    && decide (u8 bs 3 = 2) && decide (u16 bs 20 = (crc16 ((bs.drop 1).take 19)).toNat)

/-- The sixteen report codes of an answer frame. -/
def answerCodes (bs : List Byte) : List Nat := ((bs.drop 4).take 16).map fun b => b.toNat

/-- A channel command's code (12). -/
def ChanCmd.code : ChanCmd → Nat
  | .nothing => 0
  | .normal => 1
  | .reverse => 2
  | .none => 3
  | .stop => 4
  | .proceed => 5
  | .restricted => 6

/-- The bytes of a poll on the bus (12). -/
def Poll.bytes (p : Poll) : List Byte :=
  let body := [byteOf 18, byteOf p.addr, byteOf 1] ++ p.cmds.map fun c => byteOf c.code
  byteOf 0x96 :: body ++ crc16Bytes (crc16 body)

/-- What the first frame that ends inside the wait does to the controller polled (R46). -/
def State.takeAnswer (s : State) (bs : List Byte) : State :=
  match s.flu.pollPos with
  | some a => if answerValid a bs then s.answer a (answerCodes bs) else s.missPoll a
  | none => s

/-- The poll ends as a missed poll at the expiry of the wait (R46). -/
def State.missAnswer (s : State) : State :=
  match s.flu.pollPos with
  | some a => s.missPoll a
  | none => s

end Sys2Proof.Machine
end

