-- ==== Sys2Proof/Machine/Layout.lean ====
section
/-! DEFINITION. The byte layouts of what the part sends on the supervisory line (R198, 12_frame_and_record_layouts.md; the packing
of shared bytes: log 22). -/

namespace Sys2Proof.Machine

/-! ### Pieces (R198) -/

/-- The byte of an absent optional field. -/
def absent : Byte := 0xFF

/-- An optional field of one byte. -/
def opt8 : Option Nat → List Byte
  | some n => [byteOf n]
  | none => [absent]

/-- An optional field of two bytes. -/
def opt16 : Option Nat → List Byte
  | some n => be16 n
  | none => [absent, absent]

/-- A true/false field. -/
def flag (b : Bool) : Nat := if b then 1 else 0

/-- A set: one bit per member, the first member lowest. -/
def setByte : List Bool → Nat
  | [] => 0
  | b :: rest => flag b + 2 * setByte rest

/-- A timer in seconds, rounded up; absent when stopped (log 1). -/
def secondsOf (ms : Option Nat) : Option Nat := ms.map fun n => ceilDiv n 1000

/-! ### Enumerations (R198: the position in the defining list) -/

/-- CLEAR, OCCUPIED, DISTURBED. -/
def Occ.code : Occ → Nat
  | .clear => 0
  | .occupied => 1
  | .disturbed => 2

/-- NO_REPORT, CLEAR, OCCUPIED, DISTURBED (R21). -/
def SecReport.code : SecReport → Nat
  | .noReport => 0
  | .clear => 1
  | .occupied => 2
  | .disturbed => 3

/-- NORMAL, REVERSE. -/
def Pos.code : Pos → Nat
  | .normal => 0
  | .reverse => 1

/-- NORMAL, REVERSE, MOVING, LOST (R22). -/
def PtState.code : PtState → Nat
  | .normal => 0
  | .reverse => 1
  | .moving => 2
  | .lost => 3

/-- NORMAL, REVERSE, NO_DETECTION, NO_REPORT (R22). -/
def PtReport.code : PtReport → Nat
  | .normal => 0
  | .reverse => 1
  | .noDetection => 2
  | .noReport => 3

/-- STOP, PROCEED, RESTRICTED (R23). -/
def Aspect.code : Aspect → Nat
  | .stop => 0
  | .proceed => 1
  | .restricted => 2

/-- STOP, PROCEED, RESTRICTED, DARK, UNKNOWN (R23). -/
def Reported.code : Reported → Nat
  | .stop => 0
  | .proceed => 1
  | .restricted => 2
  | .dark => 3
  | .unknown => 4

/-- PATH, OVERLAP. -/
def LockKind.code : LockKind → Nat
  | .path => 0
  | .overlap => 1

/-- The element classes (R198). -/
def Cls.code : Cls → Nat
  | .sect => 0
  | .point => 1
  | .signal => 2

/-- MAIN, SHUNT, EXIT. -/
def RouteKind.code : RouteKind → Nat
  | .main => 0
  | .shunt => 1
  | .exit => 2

/-- CENTRE, PANEL as an enumerated record field, by position; the header table's codes, CENTRE 1 and PANEL 2, are read as those of the
header's field and of the REPLY payload's repetition of it alone (log 22, DESIGN CHOICE). -/
def originatorPos : Originator → Nat
  | .centre => 0
  | .panel => 1

/-- CENTRE, PANEL, NONE. -/
def Holder.code : Holder → Nat
  | .centre => 0
  | .panel => 1
  | .none => 2

/-- FREE, SETTING, CLEARING, CLEARED, HELD, OCCUPIED, BERTHED, APPROACH_LOCKED, RELEASE_TIMING (R55). -/
def SlotState.code : SlotState → Nat
  | .free => 0
  | .setting => 1
  | .clearing => 2
  | .cleared => 3
  | .held => 4
  | .occupied => 5
  | .berthed => 6
  | .approachLocked => 7
  | .releaseTiming => 8

/-- POINTS, FLANK, NEIGHBOUR, SIGNAL, FAULT (R55). -/
def FailCause.code : FailCause → Nat
  | .points => 0
  | .flank => 1
  | .neighbour => 2
  | .signal => 3
  | .fault => 4

/-- NONE, PASSED, CANCELLED, APPROACH_RELEASED, FORCED, SETTING_FAILED, with the cause, absent unless SETTING_FAILED (R55, 12). -/
def EndReason.codes : EndReason → List Byte
  | .none => [0, absent]
  | .passed => [1, absent]
  | .cancelled => [2, absent]
  | .approachReleased => [3, absent]
  | .forced => [4, absent]
  | .settingFailed c => [5, byteOf c.code]

/-- WINDOW, CONFLICT, FAULT, SEARCH (R147). -/
def Reason.code : Reason → Nat
  | .window => 0
  | .conflict => 1
  | .fault => 2
  | .search => 3

/-- PENDING, GRANTED, REFUSED (R55). -/
def ReqStatus.code : ReqStatus → Nat
  | .pending => 0
  | .granted => 1
  | .refused => 2

/-- Target classes: port, section, point, signal (12). -/
def TgtCls.code : TgtCls → Nat
  | .port => 0
  | .sect => 1
  | .point => 2
  | .signal => 3

/-- CLEAR, NORMAL, REVERSE, STOP (R11). -/
def ReqState.code : ReqState → Nat
  | .clear => 0
  | .normal => 1
  | .reverse => 2
  | .stop => 3

/-- WORKING, GRANTED, REFUSED with the reason (R147). -/
def AnsStatus.codes : AnsStatus → List Byte
  | .working => [0, absent]
  | .granted => [1, absent]
  | .refused r => 2 :: opt8 (r.map Reason.code)

/-- NEUTRAL, OUT, IN, REQUESTING_OUT (R140). -/
def View.code : View → Nat
  | .neutral => 0
  | .out => 1
  | .into => 2
  | .requesting => 3

/-- NEUTRAL, OUT_MINE, IN_YOURS, REQUESTING (R147). -/
def NbView.code : NbView → Nat
  | .neutral => 0
  | .outMine => 1
  | .inYours => 2
  | .requesting => 3

/-- none, GRANT, REFUSE (R140). -/
def DirAns.code : DirAns → Nat
  | .none => 0
  | .grant => 1
  | .refuse => 2

/-- none, GRANTED, REFUSED (R140). -/
def AccAns.code : AccAns → Nat
  | .none => 0
  | .granted => 1
  | .refused => 2

/-- NONE, REFUSED, WAITING, RECEIVING, COMPLETED (R140). -/
def Incoming.code : Incoming → Nat
  | .none => 0
  | .refused => 1
  | .waiting => 2
  | .receiving => 3
  | .completed => 4

/-- CLEAR, OCCUPIED, DISTURBED, UNKNOWN (R140). -/
def NbSec.code : NbSec → Nat
  | .clear => 0
  | .occupied => 1
  | .disturbed => 2
  | .unknown => 3

/-- DOWN, HELLO, UP, DISTURBED (R139). -/
def LinkState.code : LinkState → Nat
  | .down => 0
  | .hello => 1
  | .up => 2
  | .disturbed => 3

/-- UNCONFIGURED, LOADING, STARTING, OPERATIONAL, HALTED (R190). -/
def Mode.code : Mode → Nat
  | .unconfigured => 0
  | .loading => 1
  | .starting => 2
  | .operational => 3
  | .halted => 4

/-- COLD, WARM_LINE, WARM_COMMAND, ACTIVATE (R190). -/
def StartCause.code : StartCause → Nat
  | .cold => 0
  | .warmLine => 1
  | .warmCommand => 2
  | .activate => 3

/-- IMAGE, STARTING_IMAGE (R190). -/
def HaltReason.code : HaltReason → Nat
  | .image => 0
  | .startingImage => 1

/-- CLOSED, OPEN, ACCEPTED (R1). -/
def LoadState.code : LoadState → Nat
  | .closed => 0
  | .opened => 1
  | .accepted => 2

/-- UNKNOWN, ACTIVE, LOST (R43). -/
def CtrlState.code : CtrlState → Nat
  | .unknown => 0
  | .active => 1
  | .lost => 2

/-- EXPIRED, SET, CANCELLED (R79). -/
def Removal.code : Removal → Nat
  | .expired => 0
  | .set => 1
  | .cancelled => 2

/-- The record classes in the order of R15's walk. -/
def RecClass.code : RecClass → Nat
  | .header => 0
  | .controller => 1
  | .sect => 2
  | .point => 3
  | .signal => 4
  | .port => 5
  | .link => 6
  | .area => 7
  | .route => 8

/-- The result codes in the order of R189's table: DONE 0, REJECTED 19 (R198). -/
def Res.code : Res → Nat
  | .done => 0
  | .accepted => 1
  | .stored => 2
  | .prepared => 3
  | .conflict => 4
  | .blocked => 5
  | .fault => 6
  | .direction => 7
  | .duplicate => 8
  | .unknown => 9
  | .notInControl => 10
  | .inUse => 11
  | .busy => 12
  | .notOperational => 13
  | .notPermitted => 14
  | .badParameter => 15
  | .twoStep => 16
  | .noPrepare => 17
  | .mismatch => 18
  | .rejected => 19

/-- The command codes: the catalogue of R189, numbered from 1 (R198). -/
def cmdCode : Cmd → Nat
  | .loadBegin _ => 1
  | .loadSegment _ _ => 2
  | .loadEnd _ _ => 3
  | .activate => 4
  | .setRoute _ _ _ => 5
  | .reclear _ => 6
  | .cancelRoute _ => 7
  | .forcedRelease _ _ => 8
  | .movePoint _ _ => 9
  | .addRestriction _ _ _ _ => 10
  | .removeRestriction _ _ _ => 11
  | .restoreSection _ => 12
  | .requestDirection _ => 13
  | .forceDirection _ => 14
  | .clearRemoteClaims _ => 15
  | .giveControl _ _ => 16
  | .takeControl _ => 17
  | .prepare _ => 18
  | .execute _ => 19
  | .restart _ => 20
  | .status => 21
  | .getElement _ _ => 22
  | .getPort _ => 23
  | .getLink _ => 24
  | .getInstance _ => 25
  | .readTable _ _ => 26

/-- The code of an inner command. -/
def innerCode : Inner → Nat
  | .forcedRelease _ _ => 8
  | .removeRestriction _ _ _ => 11
  | .restoreSection _ => 12
  | .forceDirection _ => 14
  | .clearRemoteClaims _ => 15
  | .takeControl _ => 17
  | .restart _ => 20
  | .other c _ => c

/-! ### Records -/

/-- A lock owner of a section: what it is, in the order of R21, and its number (log 22). -/
def ownerBytes : Option Owner → List Byte
  | none => [0, absent]
  | some (.slot i) => [1, byteOf i]
  | some (.accept p) => [2, byteOf p]
  | some (.remote l e) => [3, byteOf (l * 16 + e)]

/-- A lock owner of a point, or of a signal: none, an instance slot, a remote claim entry, in the order of R22 and R23. An
acceptance locks sections alone (R35); its code stands for completeness. -/
def otherOwnerBytes : Option Owner → List Byte
  | none => [0, absent]
  | some (.slot i) => [1, byteOf i]
  | some (.remote l e) => [2, byteOf (l * 16 + e)]
  | some (.accept p) => [3, byteOf p]

/-- A section record (R21). -/
def sectionBytes (r : SectionRec) (x : SecRestr) : List Byte :=
  [byteOf r.occ.code, byteOf (flag r.sweep), byteOf r.last.code] ++ ownerBytes r.owner ++ opt8 (r.kind.map LockKind.code)
    ++ [byteOf r.claims, byteOf (setByte [x.noRoute, x.speed.isSome])] ++ opt8 x.speed
    ++ [byteOf (setByte [r.unexpected, r.vanished, r.sequence])]

/-- A position or NONE, as its defining list orders it: commanded position NORMAL, REVERSE, NONE (R22). -/
def commandedCode : Option Pos → Nat
  | some p => p.code
  | none => 2

/-- Flank claim position: NONE, NORMAL, REVERSE (R22). -/
def claimPosCode : Option Pos → Nat
  | none => 0
  | some p => p.code + 1

/-- A point record (R22). -/
def pointBytes (r : PointRec) (x : PtRestr) : List Byte :=
  [byteOf r.pos.code, byteOf (commandedCode r.commanded), byteOf r.last.code] ++ opt8 (secondsOf r.throwMs)
    ++ otherOwnerBytes r.owner ++ opt8 (r.kind.map LockKind.code) ++ opt8 (r.lockedPos.map Pos.code)
    ++ [byteOf (claimPosCode r.claimPos), byteOf r.claims, byteOf (setByte [x.noRoute, x.noMove, x.noFlankMove]),
        byteOf (flag r.detectionLost)]

/-- A signal record (R23). -/
def signalBytes (r : SignalRec) (x : SigRestr) : List Byte :=
  [byteOf r.commanded.code, byteOf r.reported.code] ++ otherOwnerBytes (r.owner.map Owner.slot)
    ++ [byteOf r.holds, byteOf (setByte [x.noRoute, x.noClear]), byteOf (flag r.lamp)]

/-- A port record (R140). -/
def portBytes (q : Port) : List Byte :=
  [byteOf q.view.code] ++ opt8 (q.prev.map fun v => if v = .neutral then 0 else 1)
    ++ [byteOf (flag q.conflict), byteOf q.dirAns.code, byteOf q.nbDirAns.code]
    ++ opt8 (q.outAcc.map Prod.fst) ++ opt8 (q.outAcc.map Prod.snd)
    ++ [byteOf q.nbAcc.code] ++ opt8 q.nbAccTag ++ [byteOf q.inc.code] ++ opt8 q.incTag
    ++ [byteOf (flag q.withdrawn), byteOf q.nbView.code, byteOf q.nbSec.code]

/-- A link record (R166). -/
def linkBytes (k : LinkView) : List Byte :=
  [byteOf k.state.code, byteOf (flag k.seen), byteOf (flag k.answered), byteOf (flag k.config)] ++ opt8 k.lastSeq
    ++ opt8 (k.lastRefusal.map fun x => x.cls.code) ++ opt8 (k.lastRefusal.map ElemRef.idx)
    ++ [byteOf k.entries, byteOf k.outgoing]

/-- The approach figures, 12 bytes (12, log 22). -/
def figureBytes : Option Figures → List Byte
  | none => List.replicate 12 absent
  | some f => be16 f.v ++ opt8 f.source ++ be16 f.d ++ be16 f.q ++ [byteOf f.k] ++ be16 f.reach
      ++ [byteOf (flag f.short), byteOf f.t]

/-- The element index a claim names. -/
def ClaimOn.idx : ClaimOn → Nat
  | .point i _ => i
  | .signal i => i
  | .sect i => i
  | .port p => p

/-- The element class of a claim: section, point, signal, then port (R82). -/
def ClaimOn.cls : ClaimOn → Nat
  | .sect _ => 0
  | .point _ _ => 1
  | .signal _ => 2
  | .port _ => 3

/-- The kind of a claim: POINT_POSITION, SIGNAL_HOLD, SECTION_CLEAR, PORT_FLANK (R82). -/
def ClaimOn.kind : ClaimOn → Nat
  | .point _ _ => 0
  | .signal _ => 1
  | .sect _ => 2
  | .port _ => 3

/-- The position of a claim: NORMAL or REVERSE; 0 where the kind has none (R82, log 22). -/
def ClaimOn.posCode : ClaimOn → Nat
  | .point _ p => p.code
  | _ => 0

/-- The protected point: PATH with its index, OVERLAP with the high bit (log 22). -/
def protCode : Option Prot → Byte
  | none => absent
  | some (.path i) => byteOf i
  | some (.overlap i) => byteOf (128 + i)

/-- A claim entry, 3 bytes: the element's class with kind, position and the three marks in one byte, its index, the protected
point (12, log 22). -/
def claimBytes (c : Claim × Bool) : List Byte :=
  [byteOf (c.1.what.cls + 4 * c.1.what.kind + 16 * c.1.what.posCode + 32 * setByte [c.1.lost, c.1.been, c.2]),
    byteOf c.1.what.idx, protCode c.1.prot]

/-- A list of claims with their intactness. -/
def claimList (cs : List Claim) (intact : List Bool) : List Byte :=
  byteOf cs.length :: ((cs.zip intact).map claimBytes).flatten

/-- Kind, target class and target index of a remote request (R55). -/
def RemoteWhat.codes : RemoteWhat → Nat × Nat × Nat
  | .acceptance p => (0, TgtCls.port.code, p)
  | .ask a => (if a.flank then 1 else 2, a.cls.code, a.idx)

/-- A remote request, 4 bytes (12, log 22). -/
def remoteBytes (r : RemoteReq) : List Byte :=
  let x := r.what.codes
  let why := match r.reason with
    | some w => w.code
    | none => 15
  [byteOf r.tag, byteOf (x.1 + 4 * r.link + 16 * r.status.code), byteOf (why + 16 * x.2.1), byteOf x.2.2]

/-- The pending points, one bit per point 0–95: points 0–7 in the first byte, the lowest point in the lowest bit (log 22, DESIGN
CHOICE: the table gives no order of the twelve bytes). -/
def pendingBytes (l : List Nat) : List Byte :=
  (List.range 12).map fun k => byteOf (setByte ((List.range 8).map fun b => l.contains (8 * k + b)))

/-- An instance record (12). -/
def slotBytes (k : Slot) (intact : List Bool) : List Byte :=
  opt16 k.route ++ opt8 (k.kind.map RouteKind.code) ++ opt8 (k.originator.map originatorPos)
    ++ [byteOf k.state.code, byteOf (setByte [k.holds.point, k.holds.sect, k.holds.flank, k.holds.neighbour, k.holds.lamp,
          k.holds.noClear, k.holds.controller, k.holds.halted])]
    ++ k.reason.codes
    ++ [byteOf (setByte [k.marks.passedAtStop, k.marks.sequence, k.marks.vanished, k.marks.unexpected])]
    ++ opt8 (secondsOf k.timerMs) ++ figureBytes k.figures ++ opt8 k.head ++ opt8 k.release ++ pendingBytes k.pendingPts
    ++ byteOf k.remote.length :: (k.remote.map remoteBytes).flatten
    ++ claimList k.claims intact

/-- A store entry (R79). -/
def storeEntryBytes (e : StoreEntry) : List Byte :=
  be16 e.route ++ [byteOf (originatorPos e.originator)] ++ be16 (ceilDiv e.lifeMs 1000)

/-- The last removal (R79). -/
def removalBytes : Option (Nat × Removal) → List Byte
  | none => [absent, absent, absent]
  | some (n, r) => be16 n ++ [byteOf r.code]

/-- A check result (R1). -/
def checkBytes (r : CheckResult) : List Byte :=
  [byteOf r.code] ++ opt8 (r.record.map fun x => x.1.code) ++ opt16 (r.record.map Prod.snd)

/-- A gate: the inner code and the time left, both absent where EMPTY; no byte of its own says EMPTY or PREPARED (R187; log 22, DESIGN
CHOICE). -/
def gateBytes (g : Option Gate) : List Byte :=
  opt8 (g.map fun x => innerCode x.inner) ++ opt8 (g.map fun x => ceilDiv x.leftMs 1000)

/-- The STATUS content (R187). -/
def statusBytes (v : StatusView) : List Byte :=
  [byteOf v.mode.code, byteOf v.cause.code] ++ opt8 (v.halt.map HaltReason.code) ++ opt16 v.identity ++ be16 v.verifyCount
    ++ checkBytes v.lastCheck ++ [byteOf v.loadState.code]
    ++ (match v.declared with
        | some n => be32 n
        | none => List.replicate 4 absent)
    ++ opt8 (v.owner.map originatorPos)
    ++ byteOf v.ctrls.length :: (v.ctrls.map fun c => [byteOf c.addr, byteOf c.state.code, byteOf c.missed]).flatten
    ++ v.holders.map (fun h => byteOf h.code)
    ++ gateBytes v.gateCentre ++ gateBytes v.gatePanel ++ [byteOf v.live, byteOf v.stored]

/-- A route definition (12, "Station data image"). -/
def routeBytes (d : RouteDef) : List Byte :=
  let lists :=
    byteOf d.path.length :: d.path.map byteOf
      ++ byteOf d.pathPoints.length :: (d.pathPoints.map fun p => [byteOf p.pt, byteOf p.pos.code, byteOf p.fouling]).flatten
      ++ byteOf d.overlapSecs.length :: d.overlapSecs.map byteOf
      ++ byteOf d.overlapPoints.length :: (d.overlapPoints.map fun q => [byteOf q.1, byteOf q.2.code]).flatten
      ++ byteOf d.remoteItems.length ::
          (d.remoteItems.map fun x => [byteOf x.link, byteOf x.cls.code, byteOf x.idx, byteOf x.state.code]).flatten
      ++ byteOf d.chain.length :: d.chain.map byteOf
  be16 d.number ++ [byteOf (12 + lists.length), byteOf d.kind.code, byteOf d.entry, byteOf d.exit, byteOf d.overlapTime,
    byteOf d.speed, byteOf d.decel] ++ be16 d.sight ++ [byteOf d.reaction] ++ lists

/-- A remote claim entry as READ_TABLE shows it: its number, then free or its content (R166, log 22). -/
def entryBytes (i : Nat) (x : Option RemoteEntry) (intact : List Bool) : List Byte :=
  match x with
  | none => [byteOf i, 0]
  | some y =>
    [byteOf i, 1, byteOf y.tag, byteOf (if y.ask.flank then 0 else 1), byteOf y.ask.cls.code, byteOf y.ask.idx]
      ++ opt8 (y.ask.state.map ReqState.code) ++ y.status.codes
      ++ opt8 (y.lock.map fun e => e.cls.code) ++ opt8 (y.lock.map ElemRef.idx) ++ claimList y.claims intact

/-- A record's bytes. -/
def Record.bytes : Record → List Byte
  | .sect r x => sectionBytes r x
  | .point r x => pointBytes r x
  | .signal r x => signalBytes r x
  | .port r => portBytes r
  | .link r => linkBytes r
  | .slot i r intact => byteOf i :: slotBytes r intact
  | .store entries last => byteOf entries.length :: (entries.map storeEntryBytes).flatten ++ removalBytes last
  | .system r => statusBytes r
  | .route r => routeBytes r
  | .entry i r intact => entryBytes i r intact
  | .storeEntry r => storeEntryBytes r

/-- A reply's content after the result code. READ_TABLE's: the number of records, the next index, the store's last removal
(R188), then the records; R188 names these parts and gives no order (log 22, DESIGN CHOICE). Nothing at all where the content is
none, as in a CONFLICT or FAULT with no failing element (R59), and the end reason of a freed slot with the byte of its failure cause
(R77, R113), are choices of log 22 too. -/
def Content.bytes : Content → List Byte
  | .none => []
  | .elem e => [byteOf e.cls.code, byteOf e.idx]
  | .slotState i st => [byteOf i, byteOf st.code]
  | .slotEnded i r => [byteOf i, byteOf SlotState.free.code] ++ r.codes
  | .check r => checkBytes r
  | .record r => r.bytes
  | .table rs next store =>
    [byteOf rs.length] ++ be16 next
      ++ (match store with
          | some (n, last) => byteOf n :: removalBytes last
          | Option.none => [])
      ++ (rs.map Record.bytes).flatten

/-! ### Frames (12, "Supervisory frames") -/

/-- The class of a reference and its index (R185). -/
def Ref.codes : Ref → Nat × Nat
  | .sect i => (0, i)
  | .point i => (1, i)
  | .signal i => (2, i)
  | .port i => (3, i)
  | .link i => (4, i)
  | .slot i => (5, i)
  | .store => (6, 0)
  | .system => (7, 0)

/-- The fault set's byte: CHECK, LENGTH, GAP, KIND, ORIGINATOR, CODE, PARAMETERS, OVERRUN (12). -/
def Faults.byte (f : Faults) : Nat :=
  setByte [f.check, f.length, f.gap, f.kind, f.originator, f.code, f.parameters, f.overrun]

/-- A frame on the supervisory line: start, length, header, payload, CRC-16 over all but the start byte (R198). -/
def supFrame (kind originator tag code : Nat) (payload : List Byte) : List Byte :=
  let body := [byteOf (4 + payload.length), byteOf kind, byteOf originator, byteOf tag, byteOf code] ++ payload
  byteOf 0xC3 :: body ++ crc16Bytes (crc16 body)

/-- The bytes of a frame the part sends (R182, R185). The originator byte of a REPLY's payload repeats the code of the command's
header, CENTRE 1 and PANEL 2, and not the position 0 or 1 of a record field (log 22, DESIGN CHOICE: R198 does not say which). -/
def Frame.bytes : Frame → List Byte
  | .reply tag code o res content =>
    supFrame 1 0 tag code ([byteOf (originatorCode o), byteOf res.code] ++ content.bytes)
  | .faultReport f none => supFrame 3 0 255 0 [byteOf f.byte, 0, absent, absent]
  | .faultReport f (some (tag, o, code)) => supFrame 3 0 tag 0 [byteOf f.byte, 1, byteOf o, byteOf code]
  | .notice count ref (.slot _ r intact) =>
    supFrame 2 0 count ref.codes.1 (be16 ref.codes.2 ++ slotBytes r intact)
  | .notice count ref r => supFrame 2 0 count ref.codes.1 (be16 ref.codes.2 ++ r.bytes)

end Sys2Proof.Machine
end

