-- ==== Sys2Proof/Machine/Telegram.lean ====
section
/-! DEFINITION. Neighbour telegrams: bytes (12, "Neighbour telegrams"), the checks of R142, and what receiving one does. -/

namespace Sys2Proof.Machine

/-! ### Sent -/

/-- A true/false byte and a tag of a port entry: the acceptance request (12). -/
def accBytes : Option Nat → List Byte
  | some t => [1, byteOf t]
  | none => [0, absent]

/-- A port entry of a STATUS, 8 bytes (12). -/
def PortEntry.bytes (e : PortEntry) : List Byte :=
  [byteOf e.num, byteOf e.view.code, byteOf e.dir.code] ++ accBytes e.acc ++ [byteOf e.ans.code] ++ opt8 e.ansTag
    ++ [byteOf e.occ.code]

/-- A request item, 5 bytes (12): tag, kind, target class, target index, required state. -/
def requestBytes (q : Nat × Ask) : List Byte :=
  [byteOf q.1, byteOf (if q.2.flank then 0 else 1), byteOf q.2.cls.code, byteOf q.2.idx] ++ opt8 (q.2.state.map ReqState.code)

/-- An answer item, 3 bytes (12). -/
def AnsItem.bytes (a : AnsItem) : List Byte := byteOf a.tag :: a.status.codes

/-- The kind of a telegram: HELLO 0, STATUS 1, HALT 2. -/
def TelBody.kind : TelBody → Nat
  | .hello _ _ => 0
  | .status _ _ _ => 1
  | .halt => 2

/-- The content after the alive byte (12). -/
def TelBody.bytes : TelBody → List Byte
  | .hello seen ps =>
    [byteOf (flag seen), byteOf ps.length]
      ++ (ps.map fun p => [byteOf p.num, byteOf (flag p.yields), byteOf p.view.code]).flatten
  | .status ports reqs as =>
    byteOf ports.length :: (ports.map PortEntry.bytes).flatten
      ++ byteOf reqs.length :: (reqs.map requestBytes).flatten
      ++ byteOf as.length :: (as.map AnsItem.bytes).flatten
  | .halt => []

/-- The alive byte: the sequence in the low four bits, its complement in the high four (R141). -/
def aliveByte (seq : Nat) : Byte := byteOf (seq % 16 + 16 * (15 - seq % 16))

/-- A telegram on the line: start, length, body with the sender's identity, CRC-32 low byte first (12, R2, R198). -/
def telegramBytes (t : SentTel) : List Byte :=
  let body := byteOf t.body.kind :: be16 t.identity ++ be16 (65535 - t.identity) ++ [aliveByte t.seq] ++ t.body.bytes
  let covered := byteOf body.length :: body
  byteOf 0x7E :: covered ++ crc32Bytes (crc32 covered)

/-! ### Received -/

/-- NEUTRAL, OUT_MINE, IN_YOURS, REQUESTING. -/
def readView : Nat → Option NbView := coded [.neutral, .outMine, .inYours, .requesting]
/-- none, GRANT, REFUSE. -/
def readDir : Nat → Option DirAns := coded [.none, .grant, .refuse]
/-- none, GRANTED, REFUSED. -/
def readAcc : Nat → Option AccAns := coded [.none, .granted, .refused]
/-- CLEAR, OCCUPIED, DISTURBED. -/
def readOcc : Nat → Option Occ := coded [.clear, .occupied, .disturbed]
/-- port, section, point, signal. -/
def readTgt : Nat → Option TgtCls := coded [.port, .sect, .point, .signal]
/-- A true/false field. -/
def readFlag : Nat → Option Bool := coded [false, true]

/-- An optional coded field: FF hex is absent (R198). -/
def readOpt {α : Type} (read : Nat → Option α) (n : Nat) : Option (Option α) :=
  if n = 255 then some none else (read n).map some

/-- WORKING, GRANTED, REFUSED with its reason; "absent unless REFUSED", so that a reason with another status is out of range
(12, R198; log 22). -/
def readStatus (st why : Nat) : Option AnsStatus :=
  match st with
  | 0 => if why = 255 then some .working else none
  | 1 => if why = 255 then some .granted else none
  | 2 => (readOpt (coded [.window, .conflict, .fault, .search]) why).map .refused
  | _ => none

/-- One port of a HELLO. -/
def readHelloPort (w : List Byte) : Option HelloPort := do
  return ⟨u8 w 0, ← readFlag (u8 w 1), ← readView (u8 w 2)⟩

/-- A port entry of a STATUS. An acceptance tag without an acceptance, and a tag answered beside the answer NONE, are not read; FF hex
as the tag answered beside GRANTED or REFUSED is tag 255 (log 22, DESIGN CHOICE: the spec calls neither out of range). -/
def readPortEntry (w : List Byte) : Option PortEntry := do
  let acc ← readFlag (u8 w 3)
  let ans ← readAcc (u8 w 5)
  return { num := u8 w 0, view := ← readView (u8 w 1), dir := ← readDir (u8 w 2)
           acc := if acc then some (u8 w 4) else none, ans
           ansTag := if ans = .none then none else some (u8 w 6), occ := ← readOcc (u8 w 7) }

/-- A request item of a STATUS. -/
def readRequest (w : List Byte) : Option (Nat × Ask) := do
  let kind ← coded [true, false] (u8 w 1)
  return (u8 w 0, ⟨kind, ← readTgt (u8 w 2), u8 w 3, ← readOpt readReqState (u8 w 4)⟩)

/-- An answer item of a STATUS. -/
def readAnswer (w : List Byte) : Option AnsItem := do
  return ⟨u8 w 0, ← readStatus (u8 w 1) (u8 w 2)⟩

/-- The content of a HELLO: 1–2 ports (12). -/
def readHello (bs : List Byte) : Option TelBody := do
  let seen ← readFlag (u8 bs 0)
  let (ps, rest) ← takeList 3 (bs.drop 1)
  if rest ≠ [] ∨ bs = [] ∨ ¬(1 ≤ ps.length ∧ ps.length ≤ 2) then none else
  return .hello seen (← ps.mapM readHelloPort)

/-- The content of a STATUS: no list longer than 16, no tag twice in a list (R142). -/
def readStatusBody (bs : List Byte) : Option TelBody := do
  let (ports, r1) ← takeList 8 bs
  let (reqs, r2) ← takeList 5 r1
  let (as, r3) ← takeList 3 r2
  let entries ← ports.mapM readPortEntry
  let reqs ← reqs.mapM readRequest
  let as ← as.mapM readAnswer
  if r3 ≠ [] ∨ 16 < ports.length ∨ 16 < reqs.length ∨ 16 < as.length ∨ ¬(reqs.map Prod.fst).Nodup ∨ ¬(as.map AnsItem.tag).Nodup then none
  else return .status entries reqs as

/-- The content by kind. -/
def readBody (kind : Nat) (bs : List Byte) : Option TelBody :=
  match kind with
  | 0 => readHello bs
  | 1 => readStatusBody bs
  | 2 => if bs = [] then some .halt else none
  | _ => none

/-- A telegram that has passed the frame check's form. -/
structure RecvTel where
  identity : Nat
  complement : Nat
  alive : Nat
  body : TelBody
  deriving DecidableEq, Repr

/-- The frame check but for the recorded ports (R142): start byte, length, CRC-32, kind, lists. -/
def readTelegram (bs : List Byte) : Option RecvTel :=
  let n := u8 bs 1
  let covered := (bs.drop 1).take (n + 1)
  let body := covered.drop 1
  if u8 bs 0 = 0x7E ∧ 6 ≤ n ∧ bs.length = n + 6 ∧ bs.drop (n + 2) = crc32Bytes (crc32 covered) then
    (readBody (u8 body 0) (body.drop 6)).map fun b => ⟨u16 body 1, u16 body 3, u8 body 5, b⟩
  else none

/-- A STATUS names only the neighbour's ports, where the link holds them (R142). -/
def portsKnown (k : Link) : TelBody → Bool
  | .status ports _ _ =>
    match k.nbPorts with
    | some ps => ports.all fun e => ps.contains e.num
    | none => true
  | _ => true

/-- The fate of a telegram (R142). -/
inductive Fate where
  | discarded
  | duplicate
  | jump
  | accepted (seq : Nat) (b : TelBody)
  deriving DecidableEq, Repr

/-- The sequence checks of R142. -/
def seqFate (k : Link) (seq : Nat) (b : TelBody) : Fate :=
  match k.lastSeq with
  | none => .accepted seq b
  | some last =>
    if seq = last then .duplicate
    else if seq = (last + 1) % 16 ∨ seq = (last + 2) % 16 then .accepted seq b
    else match k.state with
    | .hello => .jump
    | .up => .jump
    | _ => .accepted seq b

/-- The checks of R142 in their order. -/
def State.fate (s : State) (l : Nat) (bs : List Byte) : Fate :=
  match readTelegram bs with
  | none => .discarded
  | some t =>
    if !portsKnown (s.link l) t.body then .discarded
    else if t.identity ≠ (s.linkDef l).neighbour ∨ t.identity + t.complement ≠ 65535 then .discarded
    else if t.alive / 16 + t.alive % 16 ≠ 15 then .discarded
    else seqFate (s.link l) (t.alive % 16) t.body

/-- An accepted telegram sets the last sequence and restarts the timeout timer in HELLO and UP (R142). -/
def State.noteSequence (s : State) (l seq : Nat) : State :=
  let ms := s.linkTimeoutMs
  s.modLink l fun k =>
    { k with lastSeq := some seq
             timeoutMs := if k.state = .hello ∨ k.state = .up then some ms else k.timeoutMs }

/-- What an accepted telegram does to the state (R142, R144, R145); in HALTED nothing beyond its acceptance (R146). -/
def State.takeTelegram (s : State) (l seq : Nat) (b : TelBody) : State :=
  let s1 := s.noteSequence l seq
  if s.haltedNow then s1 else s1.actTelegram l b

/-- A telegram arrives on a link (R142): on an unequipped link it is noise (R9). -/
def State.receive (s : State) (l : Nat) (bs : List Byte) : State :=
  if !s.sends l then s else
  match s.fate l bs with
  | .discarded => s
  | .duplicate => s
  | .jump => s.disturb l
  | .accepted seq b => s.takeTelegram l seq b

end Sys2Proof.Machine
end

