-- ==== Sys2Proof/Machine/Query.lean ====
section
/-! DEFINITION. The records a notice or a reply carries, and the queries (R58, R166, R185, R187, R188). -/

namespace Sys2Proof.Machine

/-- What the link notice carries (R166). -/
def Link.view (k : Link) : LinkView :=
  { state := k.state, seen := k.seen, answered := k.answered, config := k.config, lastSeq := k.lastSeq
    lastRefusal := k.lastRefusal, entries := (k.table.filter Option.isSome).length, outgoing := k.outgoing.length }

/-- The STATUS content (R187). -/
def State.statusView (s : State) : StatusView :=
  { mode := s.mdc.mode, cause := s.mdc.cause, halt := s.mdc.halt
    identity := s.sds.active.map fun a => a.image.identity
    verifyCount := s.sds.verifyCount, lastCheck := s.sds.lastCheck, loadState := s.sds.load.state
    declared := if s.sds.load.state = .closed then none else some s.sds.load.declared
    owner := if s.sds.load.state = .closed then none else s.sds.load.owner
    ctrls := s.flu.ctrls, holders := s.slu.holders, gateCentre := s.slu.gateCentre, gatePanel := s.slu.gatePanel
    live := (s.rsu.slots.filter fun k => k.state ≠ .free).length, stored := s.rsu.store.length }

/-- The instance record of a slot, each claim shown with whether it is intact (R83). -/
def State.slotRecord (s : State) (i : Nat) : Record :=
  .slot i (s.slot i) ((s.slot i).claims.map fun c => s.intact i c.what)

/-- The entry `e` of a link's table, each local claim shown with whether it is intact (R103). -/
def State.entryRecord (s : State) (l e : Nat) : Record :=
  .entry e (s.entry l e) (match s.entry l e with
    | some x => x.claims.map fun c => s.elemIntact c.what
    | none => [])

/-- The object's record as it stands; none where it has none (R184). -/
def State.record (s : State) : Ref → Option Record
  | .sect i => if i < s.est.sections.length then some (.sect (s.sec i) (s.secRestr i)) else none
  | .point i => if i < s.est.points.length then some (.point (s.pt i) (s.ptRestr i)) else none
  | .signal i => if i < s.est.signals.length then some (.signal (s.sig i) (s.sigRestr i)) else none
  | .port p => if p < s.bdu.ports.length then some (.port (s.port p)) else none
  | .link l => if l < s.bdu.links.length then some (.link (s.link l).view) else none
  | .slot i => if i < s.rsu.slots.length then some (s.slotRecord i) else none
  | .store => some (.store s.rsu.store s.rsu.lastRemoval)
  | .system => some (.system s.statusView)

/-- A query's answer: the record, UNKNOWN where there is none (R187). -/
def State.query (s : State) (ref : Ref) : Answer :=
  match s.record ref with
  | some r => (s, .done, .record r)
  | none => s.refuse .unknown

/-- A reference to an element. -/
def ElemRef.ref (e : ElemRef) : Ref :=
  match e.cls with
  | .sect => .sect e.idx
  | .point => .point e.idx
  | .signal => .signal e.idx

/-- GET_ELEMENT (R187). -/
def State.cmdGetElement (s : State) (cls idx : Nat) : Answer :=
  match readElem cls idx with
  | none => s.refuse .badParameter
  | some e => s.query e.ref

/-- GET_PORT (R187). -/
def State.cmdGetPort (s : State) (p : Nat) : Answer :=
  if Config.maxPorts ≤ p then s.refuse .badParameter else s.query (.port p)

/-- GET_LINK (R187). -/
def State.cmdGetLink (s : State) (l : Nat) : Answer :=
  if Config.maxLinks ≤ l then s.refuse .badParameter else s.query (.link l)

/-- GET_INSTANCE (R58). -/
def State.cmdGetInstance (s : State) (i : Nat) : Answer :=
  if Config.maxSlots ≤ i then s.refuse .badParameter else s.query (.slot i)

/-- STATUS (R187). -/
def State.cmdStatus (s : State) : Answer := s.query .system

/-! ### READ_TABLE (R188) -/

/-- A list read from a place upward, coming round to the start. -/
def wrapFrom {α : Type} (l : List α) (k : Nat) : List α := l.drop k ++ l.take k

/-- The records that fit: at most 4, within the bytes left, always one (R188). -/
def fitting : Nat → Nat → List (Nat × Record) → List (Nat × Record)
  | 0, _, _ => []
  | _, _, [] => []
  | n + 1, room, x :: rest =>
    if x.2.bytes.length ≤ room then x :: fitting n (room - x.2.bytes.length) rest else []

/-- The table's reply: the rows read with their indices, `room` bytes for records. The next index is that of the row after the last
sent, once round the first row's; where the table has no row, R188 is silent and it is the start index of the command (log 23,
DESIGN CHOICE). -/
def tableContent (rows : List (Nat × Record)) (start room : Nat) (store : Option (Nat × Option (Nat × Removal))) : Content :=
  let out := fitting 4 room rows
  let next := match (wrapFrom rows out.length).head? with
    | some x => x.1
    | none => start
  .table (out.map Prod.snd) next store

/-- The defined routes in reading order from a number upward, wrapping from 512 to 1 (R188). -/
def State.routeRows (s : State) (start : Nat) : List (Nat × Record) :=
  let ds := s.image.routesInOrder
  ((ds.filter fun d => start ≤ d.number) ++ ds.filter fun d => d.number < start).map fun d => (d.number, .route d)

/-- READ_TABLE (R188): ROUTE_DEFS 0, INSTANCES 1, STORE 2, REMOTE_CLAIMS_0 to 3 as 3 to 6. -/
def State.cmdReadTable (s : State) (table start : Nat) : Answer :=
  match table with
  | 0 =>
    if !routeInRange start then s.refuse .badParameter
    else if s.sds.active.isNone then s.refuse .unknown
    else (s, .done, tableContent (s.routeRows start) start 235 none)
  | 1 =>
    if Config.maxSlots ≤ start then s.refuse .badParameter
    else
      let rows := (wrapFrom (List.range s.rsu.slots.length) start).map fun i => (i, s.slotRecord i)
      (s, .done, tableContent rows start 235 none)
  | 2 =>
    if Config.storeEntries ≤ start then s.refuse .badParameter
    else
      let n := s.rsu.store.length
      let rows := wrapFrom (numbered (s.rsu.store.map Record.storeEntry)) (if start < n then start else 0)
      (s, .done, tableContent rows start 231 (some (n, s.rsu.lastRemoval)))
  | t =>
    if t < 3 ∨ 6 < t ∨ Config.linkEntries ≤ start then s.refuse .badParameter
    else if s.sds.active.isNone ∨ s.equipped (t - 3) = false then s.refuse .unknown
    else
      let l := t - 3
      let rows := (wrapFrom (List.range (s.link l).table.length) start).map fun e => (e, s.entryRecord l e)
      (s, .done, tableContent rows start 235 none)

/-- The reference list of the whole station in class order (R185). -/
def State.allRefs (s : State) : List Ref :=
  (List.range s.est.sections.length).map .sect ++ (List.range s.est.points.length).map .point
    ++ (List.range s.est.signals.length).map .signal ++ (List.range s.bdu.ports.length).map .port
    ++ (List.range s.bdu.links.length).map .link ++ (List.range s.rsu.slots.length).map .slot ++ [.store, .system]

end Sys2Proof.Machine
end

