-- ==== Sys2Proof/Machine/Operands.lean ====
section
/-! DEFINITION. Reading supervisory frames: payload lengths, parameters, the fault set (R179, R180, R198). -/

namespace Sys2Proof.Machine

/-- The payload length of a command by its code (R180, log 21); PREPARE and EXECUTE carry an inner code and that command's
parameters. A code that is no command has no length of its own (log 41). -/
def payloadOk : Nat → List Byte → Bool
  | 18, [] => false
  | 18, c :: rest => payloadOk c.toNat rest
  | 19, [] => false
  | 19, c :: rest => payloadOk c.toNat rest
  | 1, p => p.length == 4
  | 2, p => decide (3 ≤ p.length ∧ p.length ≤ 202)
  | 3, p => p.length == 8
  | 4, p => p.length == 0
  | 5, p => p.length == 5
  | 6, p => p.length == 2
  | 7, p => p.length == 2
  | 8, p => p.length == 3
  | 9, p => p.length == 2
  | 10, p => p.length == 4
  | 11, p => p.length == 3
  | 12, p => p.length == 1
  | 13, p => p.length == 1
  | 14, p => p.length == 1
  | 15, p => p.length == 1
  | 16, p => p.length == 2
  | 17, p => p.length == 1
  | 20, p => p.length == 1
  | 21, p => p.length == 0
  | 22, p => p.length == 2
  | 23, p => p.length == 1
  | 24, p => p.length == 1
  | 25, p => p.length == 1
  | 26, p => p.length == 3
  | _, _ => true

/-- A code is a command of the catalogue (R189). -/
def codeKnown (code : Nat) : Bool := decide (1 ≤ code ∧ code ≤ 26)

/-- An inner command from its code and parameters. -/
def readInner (code : Nat) (p : List Byte) : Inner :=
  match code with
  | 8 => .forcedRelease (u8 p 0) (u16 p 1)
  | 11 => .removeRestriction (u8 p 0) (u8 p 1) (u8 p 2)
  | 12 => .restoreSection (u8 p 0)
  | 14 => .forceDirection (u8 p 0)
  | 15 => .clearRemoteClaims (u8 p 0)
  | 17 => .takeControl (u8 p 0)
  | 20 => .restart (u8 p 0)
  | c => .other c p

/-- A command from its code and payload, in the order its rule names its parameters; none for a code of no command. -/
def readCmd (code : Nat) (p : List Byte) : Option Cmd :=
  match code with
  | 1 => some (.loadBegin (u32 p 0))
  | 2 => some (.loadSegment (u16 p 0) (p.drop 2))
  | 3 => some (.loadEnd (u32 p 0) (BitVec.ofNat 32 (u32 p 4)))
  | 4 => some .activate
  | 5 => some (.setRoute (u16 p 0) (u8 p 2) (u16 p 3))
  | 6 => some (.reclear (u16 p 0))
  | 7 => some (.cancelRoute (u16 p 0))
  | 8 => some (.forcedRelease (u8 p 0) (u16 p 1))
  | 9 => some (.movePoint (u8 p 0) (u8 p 1))
  | 10 => some (.addRestriction (u8 p 0) (u8 p 1) (u8 p 2) (u8 p 3))
  | 11 => some (.removeRestriction (u8 p 0) (u8 p 1) (u8 p 2))
  | 12 => some (.restoreSection (u8 p 0))
  | 13 => some (.requestDirection (u8 p 0))
  | 14 => some (.forceDirection (u8 p 0))
  | 15 => some (.clearRemoteClaims (u8 p 0))
  | 16 => some (.giveControl (u8 p 0) (u8 p 1))
  | 17 => some (.takeControl (u8 p 0))
  | 18 => some (.prepare (readInner (u8 p 0) (p.drop 1)))
  | 19 => some (.execute (readInner (u8 p 0) (p.drop 1)))
  | 20 => some (.restart (u8 p 0))
  | 21 => some .status
  | 22 => some (.getElement (u8 p 0) (u8 p 1))
  | 23 => some (.getPort (u8 p 0))
  | 24 => some (.getLink (u8 p 0))
  | 25 => some (.getInstance (u8 p 0))
  | 26 => some (.readTable (u8 p 0) (u16 p 1))
  | _ => none

/-- An inner command has the length its code asks for (R173, R174). -/
def innerSized : Inner → Bool
  | .other c p => payloadOk c p
  | _ => true

/-- A command has the payload length of its code (R14, R180). -/
def cmdSized : Cmd → Bool
  | .loadSegment _ bytes => decide (1 ≤ bytes.length ∧ bytes.length ≤ 200)
  | .prepare i => innerSized i
  | .execute i => innerSized i
  | _ => true

/-- The originator of a header (12). -/
def readOriginator : Nat → Option Originator
  | 1 => some .centre
  | 2 => some .panel
  | _ => none

/-- What hunting leaves of the bytes: from the first start byte on (R179). -/
def hunt : List Byte → List Byte
  | [] => []
  | b :: rest => if b = 0xC3 then b :: rest else hunt rest

/-- A length byte the receiver takes: 4–244 (R179). -/
def lengthOk (n : Nat) : Bool := decide (4 ≤ n ∧ n ≤ 244)

/-- The bytes are one complete frame: start, length, and exactly the bytes the length gives with the CRC (R179). -/
def isFrame (bs : List Byte) : Bool :=
  decide (2 ≤ bs.length) && lengthOk (u8 bs 1) && decide (bs.length = u8 bs 1 + 4)

/-- The CRC-16 of a complete frame matches (R180, R198). -/
def frameCrcOk (bs : List Byte) : Bool :=
  let n := u8 bs 1
  decide (u16 bs (n + 2) = (crc16 ((bs.drop 1).take (n + 1))).toNat)

/-- The payload of a complete frame. -/
def framePayload (bs : List Byte) : List Byte := (bs.drop 6).take (u8 bs 1 - 4)

/-- The fault set of a complete frame (R180). -/
def frameFaults (bs : List Byte) : Faults :=
  if !frameCrcOk bs then { Faults.empty with check := true } else
  let code := u8 bs 5
  { Faults.empty with
    kind := decide (u8 bs 2 ≠ 0)
    originator := (readOriginator (u8 bs 3)).isNone
    code := !codeKnown code
    parameters := codeKnown code && !payloadOk code (framePayload bs) }

/-- The command of a frame without faults. -/
def frameCommand (bs : List Byte) : Option QCmd := do
  return ⟨← readOriginator (u8 bs 3), u8 bs 4, ← readCmd (u8 bs 5) (framePayload bs)⟩

/-- Tag, originator and code as received. -/
def frameHeader (bs : List Byte) : Nat × Nat × Nat := (u8 bs 4, u8 bs 3, u8 bs 5)

/-- The header a fault report carries: where every header byte was received and CHECK is not in the set (R180). -/
def reportHeader (f : Faults) (bs : List Byte) : Option (Nat × Nat × Nat) :=
  if f.check ∨ bs.length < 6 then none else some (frameHeader bs)

/-- The fault set of a frame ended by GAP: with what the header bytes received show (R180). -/
def gapFaults (bs : List Byte) : Faults :=
  { Faults.empty with
    gap := true
    kind := decide (3 ≤ bs.length) && decide (u8 bs 2 ≠ 0)
    originator := decide (4 ≤ bs.length) && (readOriginator (u8 bs 3)).isNone
    code := decide (6 ≤ bs.length) && !codeKnown (u8 bs 5) }

/-- The bytes are a frame begun and not complete (R179). -/
def isPartial (bs : List Byte) : Bool :=
  match bs with
  | [] => false
  | [_] => true
  | _ :: n :: _ => lengthOk n.toNat && decide (bs.length < n.toNat + 4)

end Sys2Proof.Machine
end

