-- ==== Sys2Proof/Machine/Starts.lean ====
section
/-! DEFINITION. The Mode Controller's operations: starts, start-up, halt (R190 to R197), and the Station Data Store's part in
them (R16 to R20). -/

namespace Sys2Proof.Machine

/-! ### Starts (R191, R192) -/

/-- The stored image is damaged by a start or a loss of supply that falls while ACTIVATE writes it (R17). -/
def State.storedNow (s : State) : Stored :=
  match s.slu.inProgress with
  | some q => if q.cmd = .activate then { s.sds.stored with damaged := true } else s.sds.stored
  | none => s.sds.stored

/-- The Supervisory Link Unit after a warm start (R172, R186): the input and response queues and the holders kept. -/
def Slu.warm (u : Slu) : Slu :=
  { u with gateCentre := none, gatePanel := none, rx := .draining, inProgress := none, noticeQ := [.system], noticeCount := 0 }

/-- A warm start (R192): restrictions, holders, verify pass count, stored image and the input and response queues are kept;
everything else takes its start values; the start check runs. -/
def State.warmStart (s : State) (cause : StartCause) : State :=
  { s with
    mdc := ⟨.checking, .unconfigured, cause, none, none, false, .idle⟩
    sds := ⟨s.storedNow, none, s.sds.verifyCount, none, false, LoadRecord.closed, [], s.sds.lastCheck⟩
    est := { Est.empty with secRestr := s.est.secRestr, ptRestr := s.est.ptRestr, sigRestr := s.est.sigRestr }
    flu := Flu.empty
    rsu := Rsu.start
    bdu := ⟨[], []⟩
    slu := s.slu.warm
    releaseDue := false }

/-- RESTART BLANK: as a warm start, but no start check; mode UNCONFIGURED (R193). -/
def State.blankStart (s : State) : State :=
  let t := s.warmStart .warmCommand
  { t with mdc.power := .running }

/-- A cold start (R191). -/
def State.coldNow (s : State) : State := State.coldStart s.storedNow s.freeCount s.pending

/-! ### The end of the start check (R18) -/

/-- Keeps the restrictions on indices below a bound (R16, log 31). -/
def dropAbove {α : Type} (n : Nat) (l : List (Nat × α)) : List (Nat × α) := l.filter fun x => x.1 < n

/-- The records of an image that has passed (R21 to R23, R42, R43, R139, R140). -/
def State.install (s : State) (m : Image) : State :=
  let addrs := ascending m.controllers
  { s with
    sds.active := some ⟨m, s.sds.stored.crc⟩
    est := { sections := List.replicate m.sections.length SectionRec.start
             points := List.replicate m.points.length PointRec.start
             signals := List.replicate m.signals.length SignalRec.start
             secRestr := dropAbove m.sections.length s.est.secRestr
             ptRestr := dropAbove m.points.length s.est.ptRestr
             sigRestr := dropAbove m.signals.length s.est.sigRestr }
    flu := ⟨addrs.map fun a => ⟨a, .unknown, 0⟩, addrs.head?, .none, none⟩
    bdu := ⟨List.replicate 4 Link.start, List.replicate m.ports.length Port.start⟩ }

/-- The holders after a start check: a cold start takes the image's defaults or NONE (R167). -/
def State.startHolders (s : State) (areas : List Holder) : State :=
  if s.mdc.cause = .cold then { s with slu.holders := areas } else s

/-- The start check has passed: STARTING (R18, R194). -/
def State.enterStarting (s : State) (r : CheckResult) : State :=
  let m := readImage s.sds.stored.bytes
  let s1 := (s.install m).startHolders m.areas
  { s1 with
    sds.lastCheck := r
    mdc := { s1.mdc with power := .running, mode := .starting, startupMs := some 10000, startupExpired := false,
                         startCrc := .running } }

/-- The start check has failed: UNCONFIGURED (R18). -/
def State.enterUnconfigured (s : State) (r : CheckResult) : State :=
  let s1 := s.startHolders (List.replicate 8 .none)
  { s1 with
    sds.lastCheck := r
    mdc := { s1.mdc with power := .running, mode := .unconfigured } }

/-- The start check of the stored image ends (R18). -/
def State.endCheck (s : State) : State :=
  let r := s.sds.stored.check
  if r.code = 0 then (((s.enterStarting r).note .system).sendPoll).sendChanges
  else (s.enterUnconfigured r).note .system

/-! ### OPERATIONAL and HALTED (R194 to R196) -/

/-- Enqueues every reference in class order (R185). -/
def State.noteAll (s : State) : State := s.each s.allRefs State.note

/-- The mode record on leaving STARTING. -/
def Mdc.leaveStarting (m : Mdc) (mode : Mode) (halt : Option HaltReason) : Mdc :=
  { m with mode, halt, startupMs := none, startupExpired := false, startCrc := .idle }

/-- Entry into OPERATIONAL (R194, R195). -/
def State.enterOperational (s : State) : State :=
  let s1 := s.loseUnknown
  { s1 with mdc := s1.mdc.leaveStarting .operational none, sds.verifyMs := some 600000 }.noteAll

/-- Entry into OPERATIONAL where the CRC has matched and start-up polling is complete or the timer has expired (R194). -/
def State.tryOperational (s : State) : State :=
  if s.mdc.mode = .starting ∧ s.mdc.startCrc = .matched ∧ (s.pollingComplete || s.mdc.startupExpired) then s.enterOperational
  else s

/-- Every signal to STOP (R42). -/
def State.stopSignals (s : State) : State :=
  { s with est.signals := s.est.signals.map fun r => { r with commanded := .stop } }

/-- Entry into HALTED (R196): signals STOP, equipped links DISTURBED, the timers stopped, UNKNOWN controllers LOST. -/
def State.enterHalted (s : State) (r : HaltReason) : State :=
  let s1 := s.loseUnknown.stopSignals
  let s2 := s1.each ((List.range s1.bdu.links.length).filter s1.equipped) fun t l => t.disturb l
  { s2 with mdc := s2.mdc.leaveStarting .halted (some r), sds.verifyMs := none, sds.verifyPass := false }

/-! ### CRC computations (R18 to R20) -/

/-- The CRC equals the image CRC. -/
def State.crcMatches (s : State) (crc : Crc32) : Bool := s.sds.active.any fun a => decide (a.crc = crc)

/-- One more verify pass; 65,535 is followed by 0 (R19, R20). -/
def State.countPass (s : State) : State := { s with sds.verifyCount := (s.sds.verifyCount + 1) % 65536 }

/-- The CRC of the active copy computed in STARTING (R18, R194). -/
def State.startingCrc (s : State) (crc : Crc32) : State :=
  if s.mdc.mode ≠ .starting ∨ s.mdc.startCrc ≠ .running then s
  else if s.crcMatches crc then
    let s1 := s.countPass
    { s1 with mdc.startCrc := .matched }.tryOperational
  else s.enterHalted .startingImage

/-- The start-up timer expires (R194): OPERATIONAL where the CRC has matched, else it waits for the match. -/
def State.startupExpiry (s : State) : State :=
  if s.mdc.startupMs.isNone then s
  else { s with mdc.startupMs := none, mdc.startupExpired := true }.tryOperational

/-- The verify timer expires: a pass begins (R19). -/
def State.verifyExpiry (s : State) : State :=
  if s.sds.verifyMs.isNone then s else { s with sds.verifyMs := none, sds.verifyPass := true }

/-- A verify pass ends (R19). -/
def State.verifyEnd (s : State) (crc : Crc32) : State :=
  if !s.sds.verifyPass then s
  else if s.crcMatches crc then
    let s1 := s.countPass
    { s1 with sds.verifyMs := some 600000, sds.verifyPass := false }.note .system
  else s.enterHalted .image

/-! ### The load (R13 to R16) -/

/-- The bytes of the load buffer from 0 over a length. -/
def State.loaded (s : State) (n : Nat) : List Byte := Memory.readFrom s.sds.buffer 0 n

/-- The originator is the one that opened the load, in mode LOADING (R14 to R16). -/
def State.ownsLoad (s : State) (o : Originator) : Bool :=
  decide (s.mdc.mode = .loading) && decide (s.sds.load.owner = some o)

/-- LOAD_BEGIN (R13). -/
def State.cmdLoadBegin (s : State) (o : Originator) (len : Nat) : Answer :=
  if !(decide (1 ≤ len) && decide (len ≤ Config.imageBytes)) then s.refuse .badParameter
  else if s.mdc.mode ≠ .unconfigured ∧ s.mdc.mode ≠ .halted then s.refuse .notPermitted
  else
    ({ s with
        sds.load := ⟨.opened, len, some o, some s.mdc.mode, none⟩
        sds.buffer := []
        mdc.mode := .loading }, .done, .none)

/-- LOAD_SEGMENT (R14). R14 gives its refusals no order: NOT_PERMITTED is tested before BAD_PARAMETER (log 20, DESIGN CHOICE). -/
def State.cmdLoadSegment (s : State) (o : Originator) (offset : Nat) (bytes : List Byte) : Answer :=
  if !s.ownsLoad o || decide (s.sds.load.state = .closed) then s.refuse .notPermitted
  else if s.sds.load.declared < offset + bytes.length then s.refuse .badParameter
  else
    ({ s with
        sds.buffer := Memory.writeAll s.sds.buffer offset bytes
        sds.load := { s.sds.load with state := .opened, crc := none } }, .done, .none)

/-- The refusals of LOAD_END (R15). -/
def State.loadEndRefusal (s : State) (o : Originator) (len : Nat) : Option Res :=
  if !s.ownsLoad o || decide (s.sds.load.state = .closed) then some .notPermitted
  else if len ≠ s.sds.load.declared then some .badParameter
  else none

/-- The structural checks of LOAD_END have ended (R15). -/
def State.endLoadChecks (s : State) (len : Nat) (crc : Crc32) : Answer :=
  let r := structuralChecks (s.loaded len) crc
  if r.code = 0 then
    ({ s with sds.lastCheck := r, sds.load := { s.sds.load with state := .accepted, crc := some crc } }, .accepted, .none)
  else
    ({ s with sds.lastCheck := r, sds.load := { s.sds.load with state := .opened, crc := none } }, .rejected, .check r)

/-- ACTIVATE is taken: LOADING, ACCEPTED, its owner (R16). -/
def State.mayActivate (s : State) (o : Originator) : Bool := s.ownsLoad o && decide (s.sds.load.state = .accepted)

/-- The stored image after ACTIVATE's write, whose read-back gave a CRC (R16, log 5). -/
def State.writeStored (s : State) (crc : Crc32) : State :=
  let want := s.sds.load.crc.getD 0
  { s with
    sds.stored := ⟨s.loaded s.sds.load.declared, want, decide (crc ≠ want)⟩
    sds.load := LoadRecord.closed }

/-- The reply to ACTIVATE: DONE where the stored image reads back with the accepted CRC (R16). -/
def State.activateRes (s : State) (crc : Crc32) : Res := if s.sds.load.crc.getD 0 = crc then .done else .fault

end Sys2Proof.Machine
end

