-- ==== Sys2Proof/Machine/Elements.lean ====
section
/-! DEFINITION. The commands the Element State Table and the holder table answer: MOVE_POINT, RESTORE_SECTION, the restrictions,
GIVE_CONTROL, TAKE_CONTROL (R27, R32, R38, R40, R167 to R171, R177, R178). -/

namespace Sys2Proof.Machine

/-- The control area of an element (R5 to R7). -/
def State.areaOf (s : State) (e : ElemRef) : Nat :=
  match e.cls with
  | .sect => (s.secDef e.idx).area
  | .point => (s.ptDef e.idx).area
  | .signal => (s.sigDef e.idx).area

/-- The part is STARTING or OPERATIONAL. -/
def State.startingOrOperational (s : State) : Bool := decide (s.mdc.mode = .starting) || s.operational

/-! ### MOVE_POINT (R32) -/

/-- A lock or a flank claim on the point stands for another position (R32). -/
def PointRec.heldElsewhere (r : PointRec) (p : Pos) : Bool :=
  (r.owner.isSome && decide (r.lockedPos ≠ some p)) || (decide (r.claims ≠ 0) && decide (r.claimPos ≠ some p))

/-- The element-side checks of MOVE_POINT, in their order (R32); DONE where the point lies there already. -/
def State.moveRefusal (s : State) (i : Nat) (p : Pos) : Option Res :=
  if !s.operational then some .notOperational
  else if (s.pt i).pos = .moving then some .busy
  else if s.atRest i p then some .done
  else if (s.ptRestr i).noMove then some .blocked
  else if (s.pt i).heldElsewhere p then some .inUse
  else if !s.secClear (s.ptDef i).fouling then some .conflict
  else none

/-- MOVE_POINT (R32). -/
def State.cmdMovePoint (s : State) (o : Originator) (i pos : Nat) : Answer :=
  match readPos pos with
  | none => s.refuse .badParameter
  | some p =>
    if Config.maxPoints ≤ i then s.refuse .badParameter
    else if !s.defined ⟨.point, i⟩ then s.refuse .unknown
    else if !s.holds o (s.ptDef i).area then s.refuse .notInControl
    else match s.moveRefusal i p with
    | some r => s.refuse r
    | none => (s.beginMove i p, .accepted, .none)

/-! ### RESTORE_SECTION (R27) -/

/-- The checks of RESTORE_SECTION at PREPARE and EXECUTE (R27, R176). -/
def State.restoreRefusal (s : State) (o : Originator) (i : Nat) : Option Res :=
  if Config.maxSections ≤ i then some .badParameter
  else if !s.defined ⟨.sect, i⟩ then some .unknown
  else if !s.holds o (s.secDef i).area then some .notInControl
  else if !s.operational then some .notOperational
  else if (s.sec i).occ ≠ .disturbed then some .notPermitted
  else if (s.sec i).owner.isSome then some .inUse
  else match (s.sec i).last with
  | .clear => none
  | .occupied => none
  | _ => some .fault

/-- The occupancy a last report gives (R27). -/
def SecReport.occ : SecReport → Occ
  | .clear => .clear
  | .occupied => .occupied
  | _ => .disturbed

/-- RESTORE_SECTION executed (R27): the occupancy takes the last report, the sweep flag is false. -/
def State.restore (s : State) (i : Nat) : State := s.modSec i fun r => { r with occ := r.last.occ, sweep := false }

/-! ### Restrictions (R38, R40, R177, R178) -/

/-- A restriction admitted by an element's class (R38); `v` is the value of SPEED. -/
inductive Restriction where
  | secNoRoute (i : Nat)
  | speed (i v : Nat)
  | ptNoRoute (i : Nat)
  | noMove (i : Nat)
  | noFlankMove (i : Nat)
  | sigNoRoute (i : Nat)
  | noClear (i : Nat)
  deriving DecidableEq, Repr

/-- A restriction from its codes: NO_ROUTE 0, SPEED 1, NO_MOVE 2, NO_FLANK_MOVE 3, NO_CLEAR 4; none where the class or the
restriction is unknown, the index is outside its class range, or the class does not admit it (R177). -/
def readRestriction (cls idx code value : Nat) : Option Restriction :=
  match readElem cls idx with
  | none => none
  | some ⟨.sect, i⟩ =>
    match code with
    | 0 => some (.secNoRoute i)
    | 1 => if value ≤ 250 then some (.speed i value) else none
    | _ => none
  | some ⟨.point, i⟩ =>
    match code with
    | 0 => some (.ptNoRoute i)
    | 2 => some (.noMove i)
    | 3 => some (.noFlankMove i)
    | _ => none
  | some ⟨.signal, i⟩ =>
    match code with
    | 0 => some (.sigNoRoute i)
    | 4 => some (.noClear i)
    | _ => none

/-- The element a restriction is on. -/
def Restriction.elem : Restriction → ElemRef
  | .secNoRoute i => ⟨.sect, i⟩
  | .speed i _ => ⟨.sect, i⟩
  | .ptNoRoute i => ⟨.point, i⟩
  | .noMove i => ⟨.point, i⟩
  | .noFlankMove i => ⟨.point, i⟩
  | .sigNoRoute i => ⟨.signal, i⟩
  | .noClear i => ⟨.signal, i⟩

/-- The lower of a SPEED present and the value added, which is at least 10 (R38). -/
def lowerSpeed (present : Option Nat) (v : Nat) : Nat :=
  match present with
  | some w => min w (max 10 v)
  | none => max 10 v

/-- Adds a restriction (R38). -/
def State.addRestriction (s : State) : Restriction → State
  | .secNoRoute i => s.setSecRestr i { s.secRestr i with noRoute := true }
  | .speed i v => s.setSecRestr i { s.secRestr i with speed := some (lowerSpeed (s.secRestr i).speed v) }
  | .ptNoRoute i => s.setPtRestr i { s.ptRestr i with noRoute := true }
  | .noMove i => s.setPtRestr i { s.ptRestr i with noMove := true }
  | .noFlankMove i => s.setPtRestr i { s.ptRestr i with noFlankMove := true }
  | .sigNoRoute i => s.setSigRestr i { s.sigRestr i with noRoute := true }
  | .noClear i => s.setSigRestr i { s.sigRestr i with noClear := true }

/-- Removes a restriction; one not present leaves the set unchanged (R40). -/
def State.removeRestriction (s : State) : Restriction → State
  | .secNoRoute i => s.setSecRestr i { s.secRestr i with noRoute := false }
  | .speed i _ => s.setSecRestr i { s.secRestr i with speed := none }
  | .ptNoRoute i => s.setPtRestr i { s.ptRestr i with noRoute := false }
  | .noMove i => s.setPtRestr i { s.ptRestr i with noMove := false }
  | .noFlankMove i => s.setPtRestr i { s.ptRestr i with noFlankMove := false }
  | .sigNoRoute i => s.setSigRestr i { s.sigRestr i with noRoute := false }
  | .noClear i => s.setSigRestr i { s.sigRestr i with noClear := false }

/-- A removal is refused while the element is relied on (R40, R178). -/
def State.restrictionInUse (s : State) : Restriction → Bool
  | .secNoRoute i => (s.sec i).owner.isSome
  | .speed i _ => (s.sec i).owner.isSome
  | .ptNoRoute i => (s.pt i).owner.isSome
  | .noMove i => decide ((s.pt i).claims ≠ 0)
  | .noFlankMove i => decide ((s.pt i).claims ≠ 0)
  | .sigNoRoute i => (s.sig i).owner.isSome
  | .noClear _ => false

/-- The checks ADD_RESTRICTION and REMOVE_RESTRICTION share, in their order (R177, R178). -/
def State.restrictionRefusal (s : State) (o : Originator) (x : Restriction) : Option Res :=
  if !s.startingOrOperational then some .notOperational
  else if !s.defined x.elem then some .unknown
  else if !s.holds o (s.areaOf x.elem) then some .notInControl
  else none

/-- ADD_RESTRICTION (R38, R177). -/
def State.cmdAddRestriction (s : State) (o : Originator) (cls idx code value : Nat) : Answer :=
  match readRestriction cls idx code value with
  | none => s.refuse .badParameter
  | some x =>
    match s.restrictionRefusal o x with
    | some r => s.refuse r
    | none => (s.addRestriction x, .done, .none)

/-- The checks of REMOVE_RESTRICTION at PREPARE and EXECUTE (R178). -/
def State.removeRefusal (s : State) (o : Originator) (cls idx code : Nat) : Option Res :=
  match readRestriction cls idx code 0 with
  | none => some .badParameter
  | some x =>
    match s.restrictionRefusal o x with
    | some r => some r
    | none => if s.restrictionInUse x then some .inUse else none

/-- REMOVE_RESTRICTION executed (R40). -/
def State.removeNow (s : State) (cls idx code : Nat) : State :=
  match readRestriction cls idx code 0 with
  | some x => s.removeRestriction x
  | none => s

/-! ### Authority (R167, R170, R171) -/

/-- Writes the holder of an area (R167). -/
def State.setHolder (s : State) (a : Nat) (h : Holder) : State := { s with slu.holders := s.slu.holders.set a h }

/-- GIVE_CONTROL (R170; the order of its checks: log 20). -/
def State.cmdGiveControl (s : State) (o : Originator) (a h : Nat) : Answer :=
  match (readHolder h).filter fun x => x ≠ ownHolder o with
  | none => s.refuse .badParameter
  | some x =>
    if Config.maxAreas ≤ a then s.refuse .badParameter
    else if !s.holds o a then s.refuse .notInControl
    else if !s.startingOrOperational then s.refuse .notOperational
    else (s.setHolder a x, .done, .none)

/-- The checks of TAKE_CONTROL at PREPARE and EXECUTE (R171). -/
def State.takeRefusal (s : State) (a : Nat) : Option Res :=
  if Config.maxAreas ≤ a then some .badParameter
  else if !s.startingOrOperational then some .notOperational
  else none

end Sys2Proof.Machine
end

