-- ==== Sys2Proof/Machine/Supervisory.lean ====
section
/-! DEFINITION. The Supervisory Link Unit: two-step gates (R172 to R176), taking commands (R181), replies (R182), the transmit
arbiter (R183, R184). -/

namespace Sys2Proof.Machine

/-! ### Two-step commands (R173, R174, R176) -/

/-- The inner command is one of the seven two-step commands (R176). -/
def innerTwoStep : Inner → Bool
  | .other _ _ => false
  | _ => true

/-- The inner command is RESTART. -/
def innerRestart : Inner → Bool
  | .restart _ => true
  | _ => false

/-- The checks of a two-step command, the same at PREPARE and at EXECUTE (R176). -/
def State.innerRefusal (s : State) (o : Originator) : Inner → Option Res
  | .restoreSection i => s.restoreRefusal o i
  | .forcedRelease i route => s.forcedRefusal o i route
  | .removeRestriction cls idx r => s.removeRefusal o cls idx r
  | .forceDirection p => s.forceDirRefusal o p
  | .clearRemoteClaims l => s.clearRemoteRefusal o l
  | .takeControl a => s.takeRefusal a
  | .restart k => if k ≤ 1 then none else some .badParameter
  | .other _ _ => some .notPermitted

/-- The part is in mode HALTED, where PREPARE and EXECUTE serve RESTART alone (R173, R174). -/
def State.haltedFor (s : State) (x : Inner) : Bool := decide (s.mdc.mode = .halted) && !innerRestart x

/-- PREPARE (R173): the gate is replaced, whether the checks pass or fail. -/
def State.cmdPrepare (s : State) (o : Originator) (x : Inner) : Answer :=
  let no (r : Res) : Answer := (s.setGate o none, r, .none)
  if !innerTwoStep x then no .notPermitted
  else if s.haltedFor x then no .notOperational
  else match s.innerRefusal o x with
  | some r => no r
  | none => (s.setGate o (some ⟨x, s.twoStepWindow * 1000⟩), .prepared, .none)

/-- Why an EXECUTE does not act, by the gate and the re-check (R174). -/
def State.executeRefusal (s : State) (o : Originator) (x : Inner) : Option Res :=
  if s.haltedFor x then some .notOperational else
  match s.gate o with
  | none => some .noPrepare
  | some g => if g.inner ≠ x then some .mismatch else s.innerRefusal o x

/-- The effect of a two-step command whose re-check has passed; RESTART's start is made after its reply (R193). -/
def State.innerAct (s : State) (o : Originator) : Inner → Answer
  | .restoreSection i => (s.restore i, .done, .none)
  | .forcedRelease i _ =>
    let t := s.forcedRelease i
    (t, .done, t.slotContent i)
  | .removeRestriction cls idx r => (s.removeNow cls idx r, .done, .none)
  | .forceDirection p => (s.forceDirection p, .done, .none)
  | .clearRemoteClaims l => (s.clearRemote l, .done, .none)
  | .takeControl a => (s.setHolder a (ownHolder o), .done, .none)
  | .restart _ => s.refuse .done
  | .other _ _ => s.refuse .notPermitted

/-- EXECUTE (R174): the gate is emptied, whatever the outcome. -/
def State.cmdExecute (s : State) (o : Originator) (x : Inner) : Answer :=
  let t := s.setGate o none
  match s.executeRefusal o x with
  | some r => t.refuse r
  | none => t.innerAct o x

/-! ### The outcome of each command (R189) -/

/-- Hands a command to the block that owns it: the state it leaves, the result code and the content (R189). A two-step
command sent on its own is refused TWO_STEP (R176). LOAD_END and ACTIVATE are answered when their work has ended. -/
def State.handOver (s : State) (o : Originator) : Cmd → Answer
  | .loadBegin len => s.cmdLoadBegin o len
  | .loadSegment offset bytes => s.cmdLoadSegment o offset bytes
  | .loadEnd _ _ => s.refuse .notPermitted
  | .activate => s.refuse .notPermitted
  | .setRoute route store lifetime => s.cmdSetRoute o route store lifetime
  | .reclear route => s.cmdReclear o route
  | .cancelRoute route => s.cmdCancelRoute o route
  | .forcedRelease _ _ => s.refuse .twoStep
  | .movePoint i p => s.cmdMovePoint o i p
  | .addRestriction cls idx r v => s.cmdAddRestriction o cls idx r v
  | .removeRestriction _ _ _ => s.refuse .twoStep
  | .restoreSection _ => s.refuse .twoStep
  | .requestDirection p => s.cmdRequestDirection o p
  | .forceDirection _ => s.refuse .twoStep
  | .clearRemoteClaims _ => s.refuse .twoStep
  | .giveControl a h => s.cmdGiveControl o a h
  | .takeControl _ => s.refuse .twoStep
  | .prepare x => s.cmdPrepare o x
  | .execute x => s.cmdExecute o x
  | .restart _ => s.refuse .twoStep
  | .status => s.cmdStatus
  | .getElement cls idx => s.cmdGetElement cls idx
  | .getPort p => s.cmdGetPort p
  | .getLink l => s.cmdGetLink l
  | .getInstance i => s.cmdGetInstance i
  | .readTable t start => s.cmdReadTable t start

/-! ### Replies and the arbiter (R182 to R184) -/

/-- Places the reply to a command in the response queue (R182). -/
def State.reply (s : State) (q : QCmd) (r : Res) (c : Content) : State :=
  s.respond (.reply q.tag (cmdCode q.cmd) q.originator r c)

/-- Sends a notice for the oldest reference whose object has a record; the references without one are dropped (R184). -/
def State.sendNotice (s : State) : List Ref → State
  | [] => { s with slu.noticeQ := [] }
  | ref :: rest =>
    match s.record ref with
    | some r =>
      { s with slu.noticeQ := rest, slu.line := some (.notice s.slu.noticeCount ref r)
               slu.noticeCount := (s.slu.noticeCount + 1) % 256 }
    | none => s.sendNotice rest

/-- The transmit arbiter on a free line: the oldest response, else a notice; no notice until the mode is set after a start
(R183, R190). -/
def State.arbiter (s : State) : State :=
  match s.slu.line, s.slu.respQ with
  | some _, _ => s
  | none, f :: rest => { s with slu.respQ := rest, slu.line := some f }
  | none, [] => if s.mdc.power = .running then s.sendNotice s.slu.noticeQ else s

/-! ### Taking commands (R181) -/

/-- An executed RESTART: the start of its kind, NORMAL 0 or BLANK 1 (R193). -/
def State.restartNow (s : State) (k : Nat) : State := if k = 0 then s.warmStart .warmCommand else s.blankStart

/-- The RESTART an EXECUTE carries out, where its checks pass (R193). -/
def State.restartOf (s : State) (q : QCmd) : Option Nat :=
  match q.cmd with
  | .execute (.restart k) => if (s.executeRefusal q.originator (.restart k)).isNone then some k else none
  | _ => none

/-- A command is answered in the act in which it is taken: its effect, what follows it, its reply (R181). A RESTART's reply
is placed before its start begins (R193). -/
def State.answerNow (s : State) (q : QCmd) : State :=
  match s.restartOf q with
  | some k => (s.reply q .done .none).restartNow k
  | none =>
    let a := s.handOver q.originator q.cmd
    (finish s a.1).reply q a.2.1 a.2.2

/-- A query, which changes no state (R187). -/
def isQuery : Cmd → Bool
  | .status => true
  | .getElement _ _ => true
  | .getPort _ => true
  | .getLink _ => true
  | .getInstance _ => true
  | .readTable _ _ => true
  | _ => false

/-- A query's reply. -/
def State.answerQuery (s : State) (q : QCmd) : State :=
  let a := s.handOver q.originator q.cmd
  s.reply q a.2.1 a.2.2

/-- Runs a command that has been taken (R181): LOAD_END and ACTIVATE stay in progress where they are not refused. -/
def State.runCmd (s : State) (q : QCmd) : State :=
  match q.cmd with
  | .loadEnd len _ =>
    match s.loadEndRefusal q.originator len with
    | some r => s.reply q r .none
    | none => { s with slu.inProgress := some q }
  | .activate =>
    if s.mayActivate q.originator then { s with slu.inProgress := some q } else s.reply q .notPermitted .none
  | c => if isQuery c then s.answerQuery q else s.answerNow q

/-- A command may be taken: the mode is set, none is in progress, the response queue has room (R181, R182, R190). -/
def State.mayTake (s : State) : Bool :=
  decide (s.mdc.power = .running) && s.slu.inProgress.isNone && decide (s.slu.respQ.length < Config.responseDepth)

/-- Takes waiting commands, the oldest first, while one may be taken; the arbiter acts after each (R181, R183). -/
def State.takeCommands : Nat → State → State
  | 0, s => s
  | n + 1, s =>
    match s.slu.inputQ with
    | [] => s
    | q :: rest =>
      if s.mayTake then State.takeCommands n (({ s with slu.inputQ := rest }.runCmd q).arbiter) else s

/-- The arbiter, then the commands that may be taken (R181, R183). Where a start check ends with a free line, the system reference
and commands waiting, R183 gives no order: the arbiter begins the notice first (log 46, DESIGN CHOICE). -/
def State.settleLine (s : State) : State := State.takeCommands (Config.inputDepth + 1) s.arbiter

/-- A readable command arrives: queued, or OVERRUN where four wait (R181). -/
def State.enqueue (s : State) (q : QCmd) : State :=
  if Config.inputDepth ≤ s.slu.inputQ.length then
    s.faultReport { Faults.empty with overrun := true } (some (q.tag, originatorCode q.originator, cmdCode q.cmd))
  else { s with slu.inputQ := s.slu.inputQ ++ [q] }

/-- The receiver's state. -/
def State.setRx (s : State) (x : Rx) : State := { s with slu.rx := x }

/-- A frame with a fault has ended: the fault report, the receiver (R179, R180). -/
def State.badFrame (s : State) (f : Faults) (h : Option (Nat × Nat × Nat)) (x : Rx) : State :=
  ((s.setRx x).faultReport f h).settleLine

/-- A frame without a fault has ended: the receiver hunts, the command is queued (R179, R181). -/
def State.goodFrame (s : State) (q : QCmd) : State := ((s.setRx .hunting).enqueue q).settleLine

/-- A command of the catalogue arrives in a frame (log 13): in DRAINING its bytes are discarded (R179); one whose payload
length is wrong for its code is a frame with the fault PARAMETERS (R14, R173, R174, R180). -/
def State.submit (s : State) (o : Originator) (tag : Nat) (c : Cmd) : State :=
  if s.slu.rx = .draining then s
  else if cmdSized c then s.goodFrame ⟨o, tag, c⟩
  else s.badFrame { Faults.empty with parameters := true } (some (tag, originatorCode o, cmdCode c)) .draining

/-- The part is supplied and not held in reset. -/
def State.alive (s : State) : Bool := decide (s.mdc.power = .checking) || decide (s.mdc.power = .running)

/-- The mode is set: supplied, not in reset, the start check ended. -/
def State.running (s : State) : Bool := decide (s.mdc.power = .running)

/-- What a command of the catalogue does when it arrives; nothing without supply or in reset (R191, R192). -/
def State.arrive (s : State) (o : Originator) (tag : Nat) (c : Cmd) : State := if s.alive then s.submit o tag c else s

/-- An act of the part while the mode is set: the change, what follows it, then the line (R41, R181, R183); nothing in the
other conditions. -/
def State.act (s : State) (f : State → State) : State := if s.running then (finish s (f s)).settleLine else s

end Sys2Proof.Machine
end

