-- ==== Sys2Proof/Machine/ModeCommands.lean ====
section
/-! DEFINITION. The commands of the supply, the reset line and the start (R190 to R196): meanings. -/

namespace Sys2Proof.Machine

/-- The part without supply: everything but the stored image is lost (R191, log 12). -/
def State.unpowered (s : State) : State :=
  let t := s.coldNow
  { t with mdc.power := .off }

/-- The reset line is taken: the part drives no line and holds still until the line returns high (R192). -/
def State.holdReset (s : State) : State :=
  { s with mdc.power := .held, sds.stored := s.storedNow, slu.inProgress := none, slu.line := none }

/-- A low pulse on the reset line of a length in µs: 10 µs or longer is taken, shorter than 5 µs is ignored, between the
two a free value decides (R192, log 6). -/
def State.resetLow (s : State) (lowUs : Nat) : State :=
  if 10 ≤ lowUs then s.holdReset
  else if lowUs < 5 then s
  else
    let t := { s with freeCount := s.freeCount + 1 }
    if Config.shortPulseTaken s.freeCount then t.holdReset else t

/-- POWER_ON: a cold start begins (R191, log 11). -/
def execPowerOn (s : State) : Host.Outcome State Fault Refusal := .next s.coldNow

/-- POWER_LOSS: the part ceases to drive every line and loses all but the stored image (R191). -/
def execPowerLoss (s : State) : Host.Outcome State Fault Refusal := .next s.unpowered

/-- RESET_LINE_LOW (R192); without supply, or while held already, nothing changes (log 11). -/
def execResetLineLow (lowUs : Nat) (s : State) : Host.Outcome State Fault Refusal :=
  .next (if s.alive then s.resetLow lowUs else s)

/-- RESET_LINE_RELEASE: the line returns high after a pulse that was taken, and the warm start begins (R192). -/
def execResetLineRelease (s : State) : Host.Outcome State Fault Refusal :=
  .next (if s.mdc.power = .held then (s.warmStart .warmLine).settleLine else s)

/-- START_CHECK_COMPLETE (R18, R190, R194). -/
def execStartCheckComplete (s : State) : Host.Outcome State Fault Refusal :=
  .next (if s.mdc.power = .checking then s.endCheck.settleLine else s)

/-- STARTING_CRC_COMPLETE with the CRC computed over the active copy (R18, R194, log 4). -/
def execStartingCrcComplete (crc : Crc32) (s : State) : Host.Outcome State Fault Refusal :=
  .next (s.act fun t => t.startingCrc crc)

/-- STARTUP_TIMER_EXPIRY (R194). -/
def execStartupTimerExpiry (s : State) : Host.Outcome State Fault Refusal := .next (s.act State.startupExpiry)

/-- VERIFY_TIMER_EXPIRY (R19). -/
def execVerifyTimerExpiry (s : State) : Host.Outcome State Fault Refusal := .next (s.act State.verifyExpiry)

/-- VERIFY_PASS_COMPLETE with the CRC computed over the active image (R19, log 4). -/
def execVerifyPassComplete (crc : Crc32) (s : State) : Host.Outcome State Fault Refusal :=
  .next (s.act fun t => t.verifyEnd crc)


end Sys2Proof.Machine
end

