-- ==== Sys2Proof/Machine/LoadCommands.lean ====
section
/-! DEFINITION. The load commands (R13 to R17): meanings. -/

namespace Sys2Proof.Machine

/-- LOAD_BEGIN (R13). -/
def execLoadBegin (o : Originator) (tag len : Nat) (s : State) : Host.Outcome State Fault Refusal :=
  .next (s.arrive o tag (.loadBegin len))

/-- LOAD_SEGMENT (R14). -/
def execLoadSegment (o : Originator) (tag offset : Nat) (bytes : List Byte) (s : State) : Host.Outcome State Fault Refusal :=
  .next (s.arrive o tag (.loadSegment offset bytes))

/-- LOAD_END (R15). -/
def execLoadEnd (o : Originator) (tag len : Nat) (crc : Crc32) (s : State) : Host.Outcome State Fault Refusal :=
  .next (s.arrive o tag (.loadEnd len crc))

/-- The checks of the LOAD_END in progress have ended: its reply is made, the command ends (R15, R181). -/
def State.finishLoadEnd (s : State) (q : QCmd) (len : Nat) (crc : Crc32) : State :=
  let a := s.endLoadChecks len crc
  let t := finish s a.1
  ({ t with slu.inProgress := none }.reply q a.2.1 a.2.2).settleLine

/-- LOAD_END_CHECKS_COMPLETE (R15). -/
def execLoadEndChecksComplete (s : State) : Host.Outcome State Fault Refusal :=
  .next (match s.slu.inProgress with
    | some ⟨o, tag, .loadEnd len crc⟩ => if s.running then s.finishLoadEnd ⟨o, tag, .loadEnd len crc⟩ len crc else s
    | _ => s)

/-- ACTIVATE (R16). -/
def execActivate (o : Originator) (tag : Nat) (s : State) : Host.Outcome State Fault Refusal :=
  .next (s.arrive o tag .activate)

/-- The stored image is written and read back: the reply is placed, then the warm start begins (R16, R186). -/
def State.finishActivate (s : State) (q : QCmd) (crc : Crc32) : State :=
  let t := s.writeStored crc
  (({ t with slu.inProgress := none }.reply q (s.activateRes crc) .none).warmStart .activate).settleLine

/-- ACTIVATE_WRITE_COMPLETE with the CRC of the image read back (R16, log 4). -/
def execActivateWriteComplete (crc : Crc32) (s : State) : Host.Outcome State Fault Refusal :=
  .next (match s.slu.inProgress with
    | some ⟨o, tag, .activate⟩ => if s.running then s.finishActivate ⟨o, tag, .activate⟩ crc else s
    | _ => s)


end Sys2Proof.Machine
end

