-- ==== Sys2Proof/Machine/RouteCommands.lean ====
section
/-! DEFINITION. The commands on routes (R59 to R81, R113): meanings. -/

namespace Sys2Proof.Machine

/-- SET_ROUTE (R59). -/
def execSetRoute (o : Originator) (tag route store lifetime : Nat) (s : State) : Host.Outcome State Fault Refusal :=
  .next (s.arrive o tag (.setRoute route store lifetime))

/-- RECLEAR (R75). -/
def execReclear (o : Originator) (tag route : Nat) (s : State) : Host.Outcome State Fault Refusal :=
  .next (s.arrive o tag (.reclear route))

/-- CANCEL_ROUTE (R77). -/
def execCancelRoute (o : Originator) (tag route : Nat) (s : State) : Host.Outcome State Fault Refusal :=
  .next (s.arrive o tag (.cancelRoute route))

/-- FORCED_RELEASE sent on its own: TWO_STEP (R176); its effect is EXECUTE's (R113). -/
def execForcedRelease (o : Originator) (tag slot route : Nat) (s : State) : Host.Outcome State Fault Refusal :=
  .next (s.arrive o tag (.forcedRelease slot route))


end Sys2Proof.Machine
end

