-- ==== Sys2Proof/Machine/ElementCommands.lean ====
section
/-! DEFINITION. The commands on elements (R27, R32, R38, R40, R177, R178): meanings. -/

namespace Sys2Proof.Machine

/-- MOVE_POINT (R32). -/
def execMovePoint (o : Originator) (tag pt pos : Nat) (s : State) : Host.Outcome State Fault Refusal :=
  .next (s.arrive o tag (.movePoint pt pos))

/-- RESTORE_SECTION sent on its own: TWO_STEP (R176); its effect is EXECUTE's (R27). -/
def execRestoreSection (o : Originator) (tag sec : Nat) (s : State) : Host.Outcome State Fault Refusal :=
  .next (s.arrive o tag (.restoreSection sec))

/-- ADD_RESTRICTION (R38, R177). -/
def execAddRestriction (o : Originator) (tag cls idx restriction value : Nat) (s : State) : Host.Outcome State Fault Refusal :=
  .next (s.arrive o tag (.addRestriction cls idx restriction value))

/-- REMOVE_RESTRICTION sent on its own: TWO_STEP (R176); its effect is EXECUTE's (R40). -/
def execRemoveRestriction (o : Originator) (tag cls idx restriction : Nat) (s : State) : Host.Outcome State Fault Refusal :=
  .next (s.arrive o tag (.removeRestriction cls idx restriction))


end Sys2Proof.Machine
end

