-- ==== Sys2Proof/Machine/BoundaryCommands.lean ====
section
/-! DEFINITION. The commands on ports and links (R149, R153, R165): meanings. -/

namespace Sys2Proof.Machine

/-- REQUEST_DIRECTION (R149). -/
def execRequestDirection (o : Originator) (tag port : Nat) (s : State) : Host.Outcome State Fault Refusal :=
  .next (s.arrive o tag (.requestDirection port))

/-- FORCE_DIRECTION sent on its own: TWO_STEP (R176); its effect is EXECUTE's (R153). -/
def execForceDirection (o : Originator) (tag port : Nat) (s : State) : Host.Outcome State Fault Refusal :=
  .next (s.arrive o tag (.forceDirection port))

/-- CLEAR_REMOTE_CLAIMS sent on its own: TWO_STEP (R176); its effect is EXECUTE's (R165). -/
def execClearRemoteClaims (o : Originator) (tag link : Nat) (s : State) : Host.Outcome State Fault Refusal :=
  .next (s.arrive o tag (.clearRemoteClaims link))


end Sys2Proof.Machine
end

