-- ==== Sys2Proof/Machine/AuthorityCommands.lean ====
section
/-! DEFINITION. The commands of authority and the two-step gate (R170 to R176, R193): meanings. -/

namespace Sys2Proof.Machine

/-- GIVE_CONTROL (R170). -/
def execGiveControl (o : Originator) (tag area holder : Nat) (s : State) : Host.Outcome State Fault Refusal :=
  .next (s.arrive o tag (.giveControl area holder))

/-- TAKE_CONTROL sent on its own: TWO_STEP (R176); its effect is EXECUTE's (R171). -/
def execTakeControl (o : Originator) (tag area : Nat) (s : State) : Host.Outcome State Fault Refusal :=
  .next (s.arrive o tag (.takeControl area))

/-- PREPARE (R173). -/
def execPrepare (o : Originator) (tag : Nat) (inner : Inner) (s : State) : Host.Outcome State Fault Refusal :=
  .next (s.arrive o tag (.prepare inner))

/-- EXECUTE (R174, R193). -/
def execExecute (o : Originator) (tag : Nat) (inner : Inner) (s : State) : Host.Outcome State Fault Refusal :=
  .next (s.arrive o tag (.execute inner))

/-- RESTART sent on its own: TWO_STEP (R176); its effect is EXECUTE's (R193). -/
def execRestart (o : Originator) (tag kind : Nat) (s : State) : Host.Outcome State Fault Refusal :=
  .next (s.arrive o tag (.restart kind))


end Sys2Proof.Machine
end

