-- ==== Sys2Proof/Machine/QueryCommands.lean ====
section
/-! DEFINITION. The queries (R58, R187, R188): meanings. -/

namespace Sys2Proof.Machine

/-- STATUS (R187). -/
def execStatus (o : Originator) (tag : Nat) (s : State) : Host.Outcome State Fault Refusal :=
  .next (s.arrive o tag .status)

/-- GET_ELEMENT (R187). -/
def execGetElement (o : Originator) (tag cls idx : Nat) (s : State) : Host.Outcome State Fault Refusal :=
  .next (s.arrive o tag (.getElement cls idx))

/-- GET_PORT (R187). -/
def execGetPort (o : Originator) (tag port : Nat) (s : State) : Host.Outcome State Fault Refusal :=
  .next (s.arrive o tag (.getPort port))

/-- GET_LINK (R187). -/
def execGetLink (o : Originator) (tag link : Nat) (s : State) : Host.Outcome State Fault Refusal :=
  .next (s.arrive o tag (.getLink link))

/-- GET_INSTANCE (R58). -/
def execGetInstance (o : Originator) (tag slot : Nat) (s : State) : Host.Outcome State Fault Refusal :=
  .next (s.arrive o tag (.getInstance slot))

/-- READ_TABLE (R188). -/
def execReadTable (o : Originator) (tag table start : Nat) (s : State) : Host.Outcome State Fault Refusal :=
  .next (s.arrive o tag (.readTable table start))


end Sys2Proof.Machine
end

