-- ==== Sys2Proof/Machine/SupervisoryLine.lean ====
section
/-! DEFINITION. The events of the supervisory line (R179 to R183): meanings. -/

namespace Sys2Proof.Machine

/-- A complete frame (R179, R180, R181). -/
def State.completeFrame (s : State) (bs : List Byte) : State :=
  let f := frameFaults bs
  match frameCommand bs with
  | some q =>
    if f = Faults.empty then s.goodFrame q else s.badFrame f (reportHeader f bs) .draining
  | none => s.badFrame f (reportHeader f bs) .draining

/-- SUP_FRAME_COMPLETE with the bytes since the receiver began hunting (R179, R180); in DRAINING they are discarded, and
bytes that are no complete frame are none (log 33). -/
def execSupFrameComplete (bytes : List Byte) (s : State) : Host.Outcome State Fault Refusal :=
  .next (if s.alive && decide (s.slu.rx ≠ .draining) && isFrame (hunt bytes) then s.completeFrame (hunt bytes) else s)

/-- SUP_FRAME_LENGTH_FAULT with the length byte (R179, R180). -/
def execSupFrameLengthFault (length : Byte) (s : State) : Host.Outcome State Fault Refusal :=
  .next (if s.alive && decide (s.slu.rx ≠ .draining) && !lengthOk length.toNat then
      s.badFrame { Faults.empty with length := true } none .draining
    else s)

/-- SUP_INTERBYTE_GAP with the bytes received before the gap and the byte that ends it (R179, R180). -/
def execSupInterbyteGap (received : List Byte) (following : Byte) (s : State) : Host.Outcome State Fault Refusal :=
  .next (if s.alive && decide (s.slu.rx ≠ .draining) && isPartial (hunt received) then
      s.badFrame (gapFaults (hunt received)) (reportHeader (gapFaults (hunt received)) (hunt received))
        (if following = 0xC3 then .receiving else .hunting)
    else s)

/-- SUP_DRAIN_IDLE: the line has been idle for 2 ms (R179). -/
def execSupDrainIdle (s : State) : Host.Outcome State Fault Refusal :=
  .next (if s.alive && decide (s.slu.rx = .draining) then s.setRx .hunting else s)

/-- TRANSMIT_LINE_FREE: the frame being sent has gone out whole (R183). -/
def execTransmitLineFree (s : State) : Host.Outcome State Fault Refusal :=
  .next (if s.alive then { s with slu.line := none }.settleLine else s)


end Sys2Proof.Machine
end

