-- ==== Sys2Proof/Machine/FieldLine.lean ====
section
/-! DEFINITION. The events of the field bus (R44 to R52): meanings. -/

namespace Sys2Proof.Machine

/-- A poll is outstanding with its answer wait open, the mode set. -/
def State.polling (s : State) : Bool := s.running && decide (s.flu.poll = .waiting)

/-- The poll ends in `t`: the poll position moves on, start-up may be complete, and what changed since `s` is handed on
(R44, R52). -/
def State.afterPoll (s t : State) : State := finish s t.endPoll.tryOperational

/-- A frame ends inside the wait: the poll ends with it, and the next poll is sent (R44, R46). -/
def State.frameInWait (s : State) (bs : List Byte) : State := ((s.afterPoll (s.takeAnswer bs)).sendPoll).settleLine

/-- FIELD_ANSWER_RECEIVED with the frame's bytes (R46 to R48, log 34); outside the wait they are discarded. -/
def execFieldAnswerReceived (bytes : List Byte) (s : State) : Host.Outcome State Fault Refusal :=
  .next (if s.polling then s.frameInWait bytes else s)

/-- FIELD_FRAME_INVALID with the frame's bytes: a failed check ends the poll as a missed poll (R46, R49, log 34). -/
def execFieldFrameInvalid (bytes : List Byte) (s : State) : Host.Outcome State Fault Refusal :=
  .next (if s.polling then s.frameInWait bytes else s)

/-- The wait expires (R46): a missed poll; the next poll at once, or after the frame still arriving. -/
def State.waitExpired (s : State) (arriving : Bool) : State :=
  let t := s.afterPoll s.missAnswer
  (if arriving then { t with flu.poll := .lateFrame } else t.sendPoll).settleLine

/-- ANSWER_WAIT_EXPIRY, with whether a frame is still arriving (R46). -/
def execAnswerWaitExpiry (arriving : Bool) (s : State) : Host.Outcome State Fault Refusal :=
  .next (if s.polling then s.waitExpired arriving else s)

/-- FIELD_LINE_IDLE: the line has been idle for 50 µs after a late frame, and the next poll is sent (R46). -/
def execFieldLineIdle (s : State) : Host.Outcome State Fault Refusal :=
  .next (if s.running && decide (s.flu.poll = .lateFrame) then s.sendPoll else s)


end Sys2Proof.Machine
end

