-- ==== Sys2Proof/Machine/TimerCommands.lean ====
section
/-! DEFINITION. The expiries of the running timers (logs 2 and 3): meanings. -/

namespace Sys2Proof.Machine

/-- A throw timer expires (R31). -/
def State.throwExpiry (s : State) (i : Nat) : State :=
  if (s.pt i).throwMs.isNone then s else
  (s.modPt i fun r => { r with pos := .lost, commanded := none, throwMs := none, detectionLost := true }).releaseEvent

/-- The timer of slot `i` runs in a state. -/
def State.timing (s : State) (i : Nat) (st : SlotState) : Bool :=
  decide ((s.slot i).state = st) && (s.slot i).timerMs.isSome

/-- A store entry's lifetime reaches 0 (R81). -/
def State.expireEntry (s : State) (route : Nat) : State :=
  if s.rsu.store.any fun e => e.route = route then (s.leaveStore route .expired).note .store else s

/-- THROW_TIMER_EXPIRY (R31). -/
def execThrowTimerExpiry (pt : Nat) (s : State) : Host.Outcome State Fault Refusal := .next (s.act fun t => t.throwExpiry pt)

/-- SETTING_TIMER_EXPIRY (R71). -/
def execSettingTimerExpiry (slot : Nat) (s : State) : Host.Outcome State Fault Refusal :=
  .next (s.act fun t => if (t.slot slot).timerMs.isSome then t.settingExpiry slot else t)

/-- APPROACH_TIMER_EXPIRY (R112). -/
def execApproachTimerExpiry (slot : Nat) (s : State) : Host.Outcome State Fault Refusal :=
  .next (s.act fun t => if t.timing slot .approachLocked then t.endSlot slot .approachReleased else t)

/-- RELEASE_TIMER_EXPIRY (R114). -/
def execReleaseTimerExpiry (slot : Nat) (s : State) : Host.Outcome State Fault Refusal :=
  .next (s.act fun t => if t.timing slot .releaseTiming then t.endSlot slot .forced else t)

/-- OVERLAP_TIMER_EXPIRY (R130). -/
def execOverlapTimerExpiry (slot : Nat) (s : State) : Host.Outcome State Fault Refusal :=
  .next (s.act fun t => if t.timing slot .berthed then t.releaseOverlap slot else t)

/-- STORE_ENTRY_EXPIRY (R81). -/
def execStoreEntryExpiry (route : Nat) (s : State) : Host.Outcome State Fault Refusal :=
  .next (s.act fun t => t.expireEntry route)

/-- TWO_STEP_WINDOW_EXPIRY: the gate empties, and nothing is enqueued (R172). -/
def execTwoStepWindowExpiry (o : Originator) (s : State) : Host.Outcome State Fault Refusal :=
  .next (if s.running then s.setGate o none else s)


end Sys2Proof.Machine
end

