-- ==== Sys2Proof/Machine/LinkCommands.lean ====
section
/-! DEFINITION. The events of the neighbour links (R141 to R147): meanings. A telegram is classed by the checks of R142, whichever row it arrives by (log 34). -/

namespace Sys2Proof.Machine

/-- HELLO_RECEIVED (R142, R144). -/
def execHelloReceived (link : Nat) (bytes : List Byte) (s : State) : Host.Outcome State Fault Refusal :=
  .next (s.act fun t => t.receive link bytes)

/-- STATUS_TELEGRAM_RECEIVED (R142, R144, R147). -/
def execStatusTelegramReceived (link : Nat) (bytes : List Byte) (s : State) : Host.Outcome State Fault Refusal :=
  .next (s.act fun t => t.receive link bytes)

/-- HALT_RECEIVED (R142, R145). -/
def execHaltReceived (link : Nat) (bytes : List Byte) (s : State) : Host.Outcome State Fault Refusal :=
  .next (s.act fun t => t.receive link bytes)

/-- TELEGRAM_DISCARDED: a telegram that fails a check, or a duplicate, changes nothing (R142). -/
def execTelegramDiscarded (link : Nat) (bytes : List Byte) (s : State) : Host.Outcome State Fault Refusal :=
  .next (s.act fun t => t.receive link bytes)

/-- SEQUENCE_JUMP (R142, R145). -/
def execSequenceJump (link : Nat) (bytes : List Byte) (s : State) : Host.Outcome State Fault Refusal :=
  .next (s.act fun t => t.receive link bytes)

/-- LINK_TIMEOUT (R143, R145). -/
def execLinkTimeout (link : Nat) (s : State) : Host.Outcome State Fault Refusal :=
  .next (s.act fun t => if (t.link link).timeoutMs.isSome then t.disturb link else t)

/-- The part may send on the link and has sent on it since the start. -/
def State.hasSent (s : State) (l : Nat) : Bool := s.running && s.sends l && (s.link l).sinceMs.isSome

/-- TELEGRAM_SEND_TIMER: 250 ms since the previous telegram (R141). -/
def execTelegramSendTimer (link : Nat) (s : State) : Host.Outcome State Fault Refusal :=
  .next (if s.hasSent link then s.send link else s)

/-- TELEGRAM_CHANGE_SPACING: the 50 ms after the previous telegram are complete, and a changed content goes (R141). -/
def execTelegramChangeSpacing (link : Nat) (s : State) : Host.Outcome State Fault Refusal :=
  .next (if s.hasSent link && s.changed link then s.send link else s)


end Sys2Proof.Machine
end

