-- ==== Sys2Proof/Machine/Dispatch.lean ====
section
/-! DEFINITION. One arm per command, in the order of spec/opcode_table.json. -/

namespace Sys2Proof.Machine

/-- The effect of a command on everything but the queue of waiting commands. -/
def exec (i : Instr) (s : State) : Host.Outcome State Fault Refusal :=
  match i with
  | .powerOn => Sys2Proof.Machine.execPowerOn s
  | .powerLoss => Sys2Proof.Machine.execPowerLoss s
  | .resetLineLow lowUs => Sys2Proof.Machine.execResetLineLow lowUs s
  | .resetLineRelease => Sys2Proof.Machine.execResetLineRelease s
  | .startCheckComplete => Sys2Proof.Machine.execStartCheckComplete s
  | .startingCrcComplete crc => Sys2Proof.Machine.execStartingCrcComplete crc s
  | .startupTimerExpiry => Sys2Proof.Machine.execStartupTimerExpiry s
  | .verifyTimerExpiry => Sys2Proof.Machine.execVerifyTimerExpiry s
  | .verifyPassComplete crc => Sys2Proof.Machine.execVerifyPassComplete crc s
  | .loadBegin o tag len => Sys2Proof.Machine.execLoadBegin o tag len s
  | .loadSegment o tag offset bytes => Sys2Proof.Machine.execLoadSegment o tag offset bytes s
  | .loadEnd o tag len crc => Sys2Proof.Machine.execLoadEnd o tag len crc s
  | .loadEndChecksComplete => Sys2Proof.Machine.execLoadEndChecksComplete s
  | .activate o tag => Sys2Proof.Machine.execActivate o tag s
  | .activateWriteComplete crc => Sys2Proof.Machine.execActivateWriteComplete crc s
  | .setRoute o tag route store lifetime => Sys2Proof.Machine.execSetRoute o tag route store lifetime s
  | .reclear o tag route => Sys2Proof.Machine.execReclear o tag route s
  | .cancelRoute o tag route => Sys2Proof.Machine.execCancelRoute o tag route s
  | .forcedRelease o tag slot route => Sys2Proof.Machine.execForcedRelease o tag slot route s
  | .movePoint o tag pt pos => Sys2Proof.Machine.execMovePoint o tag pt pos s
  | .restoreSection o tag sec => Sys2Proof.Machine.execRestoreSection o tag sec s
  | .addRestriction o tag cls idx restriction value => Sys2Proof.Machine.execAddRestriction o tag cls idx restriction value s
  | .removeRestriction o tag cls idx restriction => Sys2Proof.Machine.execRemoveRestriction o tag cls idx restriction s
  | .requestDirection o tag port => Sys2Proof.Machine.execRequestDirection o tag port s
  | .forceDirection o tag port => Sys2Proof.Machine.execForceDirection o tag port s
  | .clearRemoteClaims o tag link => Sys2Proof.Machine.execClearRemoteClaims o tag link s
  | .giveControl o tag area holder => Sys2Proof.Machine.execGiveControl o tag area holder s
  | .takeControl o tag area => Sys2Proof.Machine.execTakeControl o tag area s
  | .prepare o tag inner => Sys2Proof.Machine.execPrepare o tag inner s
  | .execute o tag inner => Sys2Proof.Machine.execExecute o tag inner s
  | .restart o tag kind => Sys2Proof.Machine.execRestart o tag kind s
  | .status o tag => Sys2Proof.Machine.execStatus o tag s
  | .getElement o tag cls idx => Sys2Proof.Machine.execGetElement o tag cls idx s
  | .getPort o tag port => Sys2Proof.Machine.execGetPort o tag port s
  | .getLink o tag link => Sys2Proof.Machine.execGetLink o tag link s
  | .getInstance o tag slot => Sys2Proof.Machine.execGetInstance o tag slot s
  | .readTable o tag table start => Sys2Proof.Machine.execReadTable o tag table start s
  | .supFrameComplete bytes => Sys2Proof.Machine.execSupFrameComplete bytes s
  | .supFrameLengthFault length => Sys2Proof.Machine.execSupFrameLengthFault length s
  | .supInterbyteGap received following => Sys2Proof.Machine.execSupInterbyteGap received following s
  | .supDrainIdle => Sys2Proof.Machine.execSupDrainIdle s
  | .transmitLineFree => Sys2Proof.Machine.execTransmitLineFree s
  | .fieldAnswerReceived bytes => Sys2Proof.Machine.execFieldAnswerReceived bytes s
  | .fieldFrameInvalid bytes => Sys2Proof.Machine.execFieldFrameInvalid bytes s
  | .answerWaitExpiry arriving => Sys2Proof.Machine.execAnswerWaitExpiry arriving s
  | .fieldLineIdle => Sys2Proof.Machine.execFieldLineIdle s
  | .throwTimerExpiry pt => Sys2Proof.Machine.execThrowTimerExpiry pt s
  | .settingTimerExpiry slot => Sys2Proof.Machine.execSettingTimerExpiry slot s
  | .approachTimerExpiry slot => Sys2Proof.Machine.execApproachTimerExpiry slot s
  | .releaseTimerExpiry slot => Sys2Proof.Machine.execReleaseTimerExpiry slot s
  | .overlapTimerExpiry slot => Sys2Proof.Machine.execOverlapTimerExpiry slot s
  | .storeEntryExpiry route => Sys2Proof.Machine.execStoreEntryExpiry route s
  | .twoStepWindowExpiry o => Sys2Proof.Machine.execTwoStepWindowExpiry o s
  | .helloReceived link bytes => Sys2Proof.Machine.execHelloReceived link bytes s
  | .statusTelegramReceived link bytes => Sys2Proof.Machine.execStatusTelegramReceived link bytes s
  | .haltReceived link bytes => Sys2Proof.Machine.execHaltReceived link bytes s
  | .telegramDiscarded link bytes => Sys2Proof.Machine.execTelegramDiscarded link bytes s
  | .sequenceJump link bytes => Sys2Proof.Machine.execSequenceJump link bytes s
  | .linkTimeout link => Sys2Proof.Machine.execLinkTimeout link s
  | .telegramSendTimer link => Sys2Proof.Machine.execTelegramSendTimer link s
  | .telegramChangeSpacing link => Sys2Proof.Machine.execTelegramChangeSpacing link s

end Sys2Proof.Machine
end

