-- ==== Sys2Proof/Safety.lean ====
section
/-! DEFINITION. What the statements about the part are said in: what may follow an act (frames), when a command of the host is
answered in its own act, the invariants every step keeps, and the frames and telegrams as a sender builds them. -/

namespace Sys2Proof.Machine

/-! ### What follows an act (R41)

After its own change an act hands the change on: instances, port acceptances and remote claim entries take it, stored
requests are retried, notices are enqueued, telegrams go. `Follows s t` says what of `s` all that leaves in `t`. -/

/-- A section record keeps what its controller's reports gave it. -/
structure SecKept (r r' : SectionRec) : Prop where
  occ : r'.occ = r.occ
  sweep : r'.sweep = r.sweep
  last : r'.last = r.last

/-- A point record keeps what its controller's reports gave it, unless, in OPERATIONAL (`op`), a movement of `ms` ms begins
from rest (R30, R65, R80). -/
structure PtKept (op : Bool) (ms : Nat) (r r' : PointRec) : Prop where
  last : r'.last = r.last
  detectionLost : r'.detectionLost = r.detectionLost
  move : (r'.pos = r.pos ∧ r'.commanded = r.commanded ∧ r'.throwMs = r.throwMs) ∨
    (op = true ∧ ∃ p : Pos, r.pos = p.other.rest ∧ r'.pos = .moving ∧ r'.commanded = some p ∧ r'.throwMs = some ms)

/-- A signal record keeps its reported aspect and LAMP; outside OPERATIONAL its commanded aspect changes to STOP only. -/
structure SigKept (op : Bool) (r r' : SignalRec) : Prop where
  reported : r'.reported = r.reported
  lamp : r'.lamp = r.lamp
  commanded : op = true ∨ r'.commanded = r.commanded ∨ r'.commanded = .stop

/-- A port record keeps all but its acceptances; a view kept OUT in a conflict can become NEUTRAL (R152). -/
structure PortKept (r r' : Port) : Prop where
  prev : r'.prev = r.prev
  conflict : r'.conflict = r.conflict
  dirAns : r'.dirAns = r.dirAns
  nbDirAns : r'.nbDirAns = r.nbDirAns
  nbAcc : r'.nbAcc = r.nbAcc
  nbAccTag : r'.nbAccTag = r.nbAccTag
  nbView : r'.nbView = r.nbView
  nbSec : r'.nbSec = r.nbSec
  view : r'.view = r.view ∨ (r.view = .out ∧ r.conflict = true ∧ r'.view = .neutral)

/-- The tags and requests of a link's table, place by place. -/
def Link.asked (k : Link) : List (Option (Nat × Ask)) := k.table.map fun x => x.map fun y => (y.tag, y.ask)

/-- A link record keeps its state, what it knows of the neighbour, and the requests of its table. -/
structure LinkKept (r r' : Link) : Prop where
  state : r'.state = r.state
  seen : r'.seen = r.seen
  answered : r'.answered = r.answered
  nbPorts : r'.nbPorts = r.nbPorts
  config : r'.config = r.config
  lastSeq : r'.lastSeq = r.lastSeq
  timeoutMs : r'.timeoutMs = r.timeoutMs
  lastRefusal : r'.lastRefusal = r.lastRefusal
  asked : r'.asked = r.asked

/-- `t` is `s` but for what handing a change on, retries, notices, telegrams and the transmit line can do. -/
structure Follows (s t : State) : Prop where
  mdc : t.mdc = s.mdc
  sds : t.sds = s.sds
  flu : t.flu = s.flu
  secRestr : t.est.secRestr = s.est.secRestr
  ptRestr : t.est.ptRestr = s.est.ptRestr
  sigRestr : t.est.sigRestr = s.est.sigRestr
  holders : t.slu.holders = s.slu.holders
  gateCentre : t.slu.gateCentre = s.slu.gateCentre
  gatePanel : t.slu.gatePanel = s.slu.gatePanel
  rx : t.slu.rx = s.slu.rx
  pending : t.pending = s.pending
  freeCount : t.freeCount = s.freeCount
  sections : t.est.sections.length = s.est.sections.length
  points : t.est.points.length = s.est.points.length
  signals : t.est.signals.length = s.est.signals.length
  slots : t.rsu.slots.length = s.rsu.slots.length
  links : t.bdu.links.length = s.bdu.links.length
  ports : t.bdu.ports.length = s.bdu.ports.length
  sec : ∀ i, SecKept (s.sec i) (t.sec i)
  pt : ∀ i, PtKept s.operational (s.throwLimit * 1000) (s.pt i) (t.pt i)
  sig : ∀ i, SigKept s.operational (s.sig i) (t.sig i)
  link : ∀ l, LinkKept (s.link l) (t.link l)
  port : ∀ p, PortKept (s.port p) (t.port p)
  store : List.Sublist t.rsu.store s.rsu.store

/-! ### A command of the host answered in its own act (R181 to R183) -/

/-- The frames on their way out: the one being sent, then the response queue. -/
def State.outgoing (s : State) : List Frame := s.slu.line.toList ++ s.slu.respQ

/-- The line is served: a line free of a frame finds neither a response nor a notice waiting (R183). -/
def State.served (s : State) : Prop := s.slu.line = none → s.slu.respQ = [] ∧ s.slu.noticeQ = []

/-- The part takes a command at once: the mode is set, the receiver hunts (R179), none is in progress, none waits, the response
queue has room (R181, R182); the line is served, and no release event stands between acts (`State.queuesHold`). -/
structure State.ready (s : State) : Prop where
  running : s.mdc.power = .running
  hunting : s.slu.rx = .hunting
  idle : s.slu.inProgress = none
  empty : s.slu.inputQ = []
  room : s.slu.respQ.length < 8
  served : s.served
  settled : s.releaseDue = false

/-- The command `i`, in `s`, has the effect that makes `b` of `s`, and is answered in its own act with the frame `f`, which goes
out last; `t` is what follows the effect (`finish`), but for the line and the response queue. -/
structure Answered (s : State) (i : Instr) (f : Frame) (b t : State) : Prop where
  next : exec i s = .next t
  sent : t.outgoing = s.outgoing ++ [f]
  effect : t = { finish s b with slu.line := t.slu.line, slu.respQ := t.slu.respQ }
  follows : Follows b t
  inputQ : t.slu.inputQ = []
  inProgress : t.slu.inProgress = none

/-- The command `i`, in `s`, changes nothing but the line and the response queue, where the frame `f` goes out last. -/
structure Replied (s : State) (i : Instr) (f : Frame) (t : State) : Prop where
  next : exec i s = .next t
  sent : t.outgoing = s.outgoing ++ [f]
  effect : t = { s with slu.line := t.slu.line, slu.respQ := t.slu.respQ }

/-- The frame event `i`, in `s`, changes nothing but the receiver, which drains, and the line and the response queue, where a fault
report with the set `f` and the header `h` goes out last (R179, R180). -/
structure FaultSent (s : State) (i : Instr) (f : Faults) (h : Option (Nat × Nat × Nat)) (t : State) : Prop where
  next : exec i s = .next t
  sent : t.outgoing = s.outgoing ++ [.faultReport f h]
  effect : t = { s with slu.rx := .draining, slu.line := t.slu.line, slu.respQ := t.slu.respQ }

/-- The event `i`, in `s`, has the effect that makes `b` of `s`; then follows what `finish` says, the line is served, and the
commands that wait and may be taken are taken (`State.settleLine`). -/
def Acted (s : State) (i : Instr) (b : State) : Prop := exec i s = .next (finish s b).settleLine

/-- The gate of `o` holds the inner command `x`, and the mode serves it (R173, R174). -/
def State.preparedFor (s : State) (o : Originator) (x : Inner) : Prop :=
  (s.mdc.mode = .halted → innerRestart x = true) ∧ ∃ g, s.gate o = some g ∧ g.inner = x

/-- How a two-step command `x` of `o` is treated but for its effect (R173, R174, R176): `row` is the command sent on its own,
`why` the reply of the first of its checks that fails, the same at PREPARE and at EXECUTE. -/
structure TwoStep (s : State) (o : Originator) (tag : Nat) (x : Inner) (row : Instr) (why : Option Res) : Prop where
  alone : ∃ t, Answered s row (.reply tag (innerCode x) o .twoStep .none) s t
  halted : s.mdc.mode = .halted → innerRestart x = false →
    (∃ t, Answered s (.prepare o tag x) (.reply tag 18 o .notOperational .none) (s.setGate o none) t)
    ∧ ∃ t, Answered s (.execute o tag x) (.reply tag 19 o .notOperational .none) (s.setGate o none) t
  prepareRefused : ∀ r, (s.mdc.mode = .halted → innerRestart x = true) → why = some r →
    ∃ t, Answered s (.prepare o tag x) (.reply tag 18 o r .none) (s.setGate o none) t
  prepared : (s.mdc.mode = .halted → innerRestart x = true) → why = none →
    ∃ t, Answered s (.prepare o tag x) (.reply tag 18 o .prepared .none) (s.setGate o (some ⟨x, s.twoStepWindow * 1000⟩)) t
  executeRefused : ∀ r, s.preparedFor o x → why = some r →
    ∃ t, Answered s (.execute o tag x) (.reply tag 19 o r .none) (s.setGate o none) t

/-- A link without what sending a telegram changes (R141). -/
def Link.unsent (k : Link) : Link := { k with nextSeq := 0, sinceMs := none, lastSent := none }

/-! ### A warm start (R192) -/

/-- `t` is what a warm start with the mode record `m` makes of `s`. Kept: the stored image, damaged where ACTIVATE was writing it
(R17), the verify count, the last check result, the restrictions, the holders, the input and response queues with the frame on the
line, the queue of commands (R20, R38, R167, R186, R192). All else takes its start value (R21 to R23, R43, R55, R79, R139, R172). The
frames that go out of the response queue are `t`'s own. -/
structure WarmStarted (s : State) (m : Mdc) (t : State) : Prop where
  mdc : t.mdc = m
  bytes : t.sds.stored.bytes = s.sds.stored.bytes ∧ t.sds.stored.crc = s.sds.stored.crc
  damaged : t.sds.stored.damaged = true ↔
    s.sds.stored.damaged = true ∨ ∃ q, s.slu.inProgress = some q ∧ q.cmd = .activate
  store : t.sds = { s.sds with
    stored := t.sds.stored, active := none, verifyMs := none, verifyPass := false, load := LoadRecord.closed, buffer := [] }
  est : t.est = { s.est with sections := [], points := [], signals := [] }
  flu : t.flu = Flu.empty
  slots : t.rsu.slots.length = 48 ∧ ∀ i, t.slot i = Slot.start
  requests : t.rsu.store = [] ∧ t.rsu.lastRemoval = none
  bdu : t.bdu = ⟨[], []⟩
  slu : t.slu = { s.slu with
    gateCentre := none, gatePanel := none, rx := .draining, inProgress := none, noticeQ := [.system], noticeCount := 0
    respQ := t.slu.respQ, line := t.slu.line }
  rest : t.releaseDue = false ∧ t.pending = s.pending ∧ t.freeCount = s.freeCount

/-- The mode record when the start check begins (R190; the mode UNCONFIGURED while it runs: log 7). -/
def Mdc.checking (cause : StartCause) : Mdc := ⟨.checking, .unconfigured, cause, none, none, false, .idle⟩

/-! ### Leaving STARTING, HALTED (R49, R52, R194 to R196) -/

/-- A controller with this address is UNKNOWN. -/
def State.unknownAt (s : State) (a : Nat) : Bool := s.flu.ctrls.any fun c => decide (c.addr = a ∧ c.state = .unknown)

/-- `t` is `s` with each UNKNOWN controller declared LOST with all it serves: its sections DISTURBED, its points LOST, its signals
reported UNKNOWN; every other controller and element is as in `s` (R49, R52). A movement that ends so is a release event (R31). -/
structure UnknownLost (s t : State) : Prop where
  ctrls : t.flu.ctrls = s.flu.ctrls.map fun c => if s.unknownAt c.addr = true then { c with state := .lost } else c
  sec : ∀ k, t.sec k = if k < s.image.sections.length ∧ s.unknownAt (s.secDef k).ctrl = true then
      { s.sec k with occ := .disturbed, sweep := false, last := .noReport }
    else s.sec k
  pt : ∀ k, t.pt k = if k < s.image.points.length ∧ s.unknownAt (s.ptDef k).ctrl = true then
      { s.pt k with pos := .lost, commanded := none, throwMs := none, last := .noReport }
    else s.pt k
  sig : ∀ k, t.sig k = if k < s.image.signals.length ∧ s.unknownAt (s.sigDef k).ctrl = true then
      { s.sig k with reported := .unknown }
    else s.sig k
  due : t.releaseDue = true ↔ s.releaseDue = true
    ∨ ∃ k, k < s.image.points.length ∧ s.unknownAt (s.ptDef k).ctrl = true ∧ (s.pt k).pos = .moving
  sections : t.est.sections.length = s.est.sections.length
  points : t.est.points.length = s.est.points.length
  signals : t.est.signals.length = s.est.signals.length
  rest : t = { s with flu.ctrls := t.flu.ctrls, est.sections := t.est.sections, est.points := t.est.points,
                      est.signals := t.est.signals, releaseDue := t.releaseDue }

/-- The entry into OPERATIONAL makes `b` of `s`: UNKNOWN controllers LOST, the start-up stopped, the verify timer at 600 s, every
reference in the notice queue (R19, R52, R185, R194, R195). -/
def EntersOperational (s b : State) : Prop := ∃ u, UnknownLost s u
  ∧ b = { u with mdc := ⟨s.mdc.power, .operational, s.mdc.cause, none, none, false, .idle⟩
                 sds.verifyMs := some 600000, slu.noticeQ := b.slu.noticeQ }
  ∧ s.slu.noticeQ <+: b.slu.noticeQ ∧ ∀ r ∈ s.allRefs, r ∈ b.slu.noticeQ

/-- What leaving UP does to a port: its neighbour's section UNKNOWN, both direction answers none, a request taken back (R145). -/
def Port.fallen (q : Port) : Port :=
  { q with nbSec := .unknown, dirAns := .none, nbDirAns := .none
           view := if q.view = .requesting then q.prev.getD .neutral else q.view
           prev := if q.view = .requesting then none else q.prev }

/-- The entry into HALTED makes `b` of `s`: UNKNOWN controllers LOST, every signal commanded STOP, the equipped links DISTURBED with
their ports, the start-up and the verify timer stopped (R42, R52, R145, R146, R196). -/
def EntersHalted (s : State) (r : HaltReason) (b : State) : Prop := ∃ u, UnknownLost s u
  ∧ b = { u with mdc := ⟨s.mdc.power, .halted, s.mdc.cause, some r, none, false, .idle⟩
                 sds := { s.sds with verifyMs := none, verifyPass := false }
                 est.signals := u.est.signals.map fun x => { x with commanded := .stop }
                 bdu := b.bdu, slu.noticeQ := b.slu.noticeQ }
  ∧ b.bdu.links.length = s.bdu.links.length ∧ b.bdu.ports.length = s.bdu.ports.length
  ∧ (∀ l, b.link l = if s.equipped l = true then
      { s.link l with state := .disturbed, lastSeq := none, seen := false, answered := false, nbPorts := none, timeoutMs := none }
    else s.link l)
  ∧ (let falls (p : Nat) : Prop := p < s.image.ports.length ∧ s.equipped (s.portDef p).link = true
        ∧ (s.link (s.portDef p).link).state = .up
    (∀ p, falls p → b.port p = (s.port p).fallen ∧ Ref.port p ∈ b.slu.noticeQ) ∧ ∀ p, ¬falls p → b.port p = s.port p)
  ∧ (∀ l, s.equipped l = true → (s.link l).state = .up → Ref.link l ∈ b.slu.noticeQ) ∧ s.slu.noticeQ <+: b.slu.noticeQ

/-! ### What stands (R59, R69, R73, R82) -/

/-- The element a claim entry names is as R82 has it for an intact entry: the point at rest in the position, the signal proven STOP
without LAMP, the section CLEAR; a port is no element. -/
def State.elemStands (s : State) : ClaimOn → Prop
  | .point p x => (s.pt p).pos = x.rest
  | .signal g => (s.sig g).commanded = .stop ∧ (s.sig g).reported = .stop ∧ (s.sig g).lamp = false
  | .sect k => (s.sec k).occ = .clear
  | .port _ => True

/-- The shared PORT_FLANK request of slot `i` on port `p` is GRANTED (R97). -/
def State.flankAnswered (s : State) (i p : Nat) : Prop :=
  ∃ r ∈ (s.slot i).remote, r.status = .granted ∧ ∃ a, r.what = .ask a ∧ a.flank = true ∧ a.idx = p

/-- What a claim entry of slot `i` names is proven as R69 and R71 have it: its element as R82 asks, or the port's shared PORT_FLANK
request GRANTED; the link of the request is a condition of its own there (R164). -/
def State.flankHolds (s : State) (i : Nat) : ClaimOn → Prop
  | .point p x => s.elemStands (.point p x)
  | .signal g => s.elemStands (.signal g)
  | .sect k => s.elemStands (.sect k)
  | .port p => s.flankAnswered i p

/-- What a claim entry of slot `i` names is as R82 has it for an intact entry: its element, or the port's shared PORT_FLANK request
GRANTED with its link UP. -/
def State.stands (s : State) (i : Nat) : ClaimOn → Prop
  | .point p x => s.elemStands (.point p x)
  | .signal g => s.elemStands (.signal g)
  | .sect k => s.elemStands (.sect k)
  | .port p => s.flankAnswered i p ∧ (s.link (s.portDef p).link).state = .up

/-- The controller of a signal is LOST (R60, R73). -/
def State.ctrlLost (s : State) (g : Nat) : Prop := ∃ c, s.ctrl? (s.sigDef g).ctrl = some c ∧ c.state = .lost

/-- `h` is the set of hold causes that stand for slot `i` (R73); `zero` says whether path section 0 OCCUPIED counts, as it does in
every state but CLEARED. -/
structure State.CausesAre (s : State) (i : Nat) (zero : Prop) (h : Holds) : Prop where
  point : h.point = true ↔ ∃ q ∈ (s.slotRoute i).points, (s.pt q.1).pos ≠ q.2.rest
  sect : h.sect = true ↔ (∃ k ∈ (s.slotRoute i).sections, (s.sec k).occ = .disturbed)
    ∨ (∃ k ∈ (s.slotRoute i).sections.drop 1, (s.sec k).occ = .occupied)
    ∨ (zero ∧ ∃ k ∈ (s.slotRoute i).sections.take 1, (s.sec k).occ = .occupied)
  flank : h.flank = true ↔ ∃ c ∈ (s.slot i).claims, ¬s.stands i c.what
  neighbour : h.neighbour = true ↔ ∃ r ∈ (s.slot i).remote, r.status ≠ .granted ∨ (s.link r.link).state ≠ .up
  lamp : h.lamp = (s.sig (s.slotRoute i).entry).lamp
  noClear : h.noClear = (s.sigRestr (s.slotRoute i).entry).noClear
  controller : h.controller = true ↔ s.ctrlLost (s.slotRoute i).entry
  halted : h.halted = true ↔ s.mdc.mode = .halted ∨ (s.mdc.mode = .loading ∧ s.sds.load.origin = some .halted)

/-- `x` is the first element of a route that fails: its sections in order, then its points in order, then its entry signal (R59). -/
structure FirstFailing (d : RouteDef) (sec : Nat → Prop) (pt : Nat × Pos → Prop) (entry : Prop) (x : Option ElemRef) : Prop where
  none : x = none ↔ (∀ k ∈ d.sections, ¬sec k) ∧ (∀ q ∈ d.points, ¬pt q) ∧ ¬entry
  sect : ∀ before k after, d.sections = before ++ k :: after → sec k → (∀ j ∈ before, ¬sec j) → x = some ⟨.sect, k⟩
  point : (∀ k ∈ d.sections, ¬sec k) → ∀ before q after, d.points = before ++ q :: after → pt q → (∀ j ∈ before, ¬pt j) →
    x = some ⟨.point, q.1⟩
  signal : (∀ k ∈ d.sections, ¬sec k) → (∀ q ∈ d.points, ¬pt q) → entry → x = some ⟨.signal, d.entry⟩

/-- Section `k` of `l` is locked by slot `i` and changed into OCCUPIED in the act (R133). -/
def hitIn (old s : State) (i : Nat) (l : List Nat) (k : Nat) : Prop :=
  k ∈ l ∧ (s.sec k).owner = some (.slot i) ∧ (old.sec k).occ ≠ .occupied ∧ (s.sec k).occ = .occupied

/-- `t` is `s` with the mark UNEXPECTED on each section of `l` that is hit and, where one is, on slot `i`, which is enqueued (R133,
R138). -/
structure Marked (old s : State) (i : Nat) (l : List Nat) (t : State) : Prop where
  hit : ∀ k, hitIn old s i l k → t.sec k = { s.sec k with unexpected := true } ∧ Ref.slot i ∈ t.slu.noticeQ
    ∧ t.slot i = { s.slot i with marks := { (s.slot i).marks with unexpected := true } }
  spared : ∀ k, ¬hitIn old s i l k → t.sec k = s.sec k
  slots : ∀ j, j ≠ i → t.slot j = s.slot j
  none : (∀ k, ¬hitIn old s i l k) → t = s
  rest : t = { s with est.sections := t.est.sections, rsu.slots := t.rsu.slots, slu.noticeQ := t.slu.noticeQ }

/-- The train's entry makes `t` of `s`: OCCUPIED with both indices 0, the entry signal STOP and released; where a path section above
0 is OCCUPIED, the lowest such takes the mark SEQUENCE with the instance; the release of the signal is a release event, and the
instance is enqueued (R119, R121, R138). -/
structure TrainIn (s : State) (i : Nat) (t : State) : Prop where
  slot : let ahead := ∃ k ∈ (s.slotRoute i).path.drop 1, (s.sec k).occ = .occupied
    t.slot i = { s.slot i with state := .occupied, head := some 0, release := some 0, timerMs := none, holds := Holds.empty,
                               marks := (t.slot i).marks }
    ∧ (ahead → (t.slot i).marks = { (s.slot i).marks with sequence := true }) ∧ (¬ahead → (t.slot i).marks = (s.slot i).marks)
  marked : ∀ before k after, (s.slotRoute i).path.drop 1 = before ++ k :: after → (s.sec k).occ = .occupied →
    (∀ x ∈ before, (s.sec x).occ ≠ .occupied) → t.sec k = { s.sec k with sequence := true } ∧ ∀ x, x ≠ k → t.sec x = s.sec x
  spared : (∀ k ∈ (s.slotRoute i).path.drop 1, (s.sec k).occ ≠ .occupied) → ∀ x, t.sec x = s.sec x
  entry : (s.slotRoute i).entry < s.est.signals.length → (t.sig (s.slotRoute i).entry).commanded = .stop
    ∧ (t.sig (s.slotRoute i).entry).owner = if (s.sig (s.slotRoute i).entry).owner = some i then none
        else (s.sig (s.slotRoute i).entry).owner
  kept : t.sig (s.slotRoute i).entry = { s.sig (s.slotRoute i).entry with
    commanded := (t.sig (s.slotRoute i).entry).commanded, owner := (t.sig (s.slotRoute i).entry).owner }
  signals : ∀ g, g ≠ (s.slotRoute i).entry → t.sig g = s.sig g
  released : (s.sig (s.slotRoute i).entry).owner = some i → t.releaseDue = true ∧ Ref.signal (s.slotRoute i).entry ∈ t.slu.noticeQ
  unreleased : (s.sig (s.slotRoute i).entry).owner ≠ some i → t.releaseDue = s.releaseDue
  noted : Ref.slot i ∈ t.slu.noticeQ ∧ s.slu.noticeQ <+: t.slu.noticeQ
  slots : ∀ j, j ≠ i → t.slot j = s.slot j
  rest : t = { s with est.sections := t.est.sections, est.signals := t.est.signals, rsu.slots := t.rsu.slots,
                      slu.noticeQ := t.slu.noticeQ, releaseDue := t.releaseDue }

/-- Path section 0 of slot `i`'s route changed into OCCUPIED in the act (R119). -/
def entersIn (old s : State) (i : Nat) : Prop :=
  ∃ k, (s.slotRoute i).path.head? = some k ∧ (old.sec k).occ ≠ .occupied ∧ (s.sec k).occ = .occupied

/-! ### Invariants -/

/-- LOAD_END or ACTIVATE: the commands that stay in progress (R181). -/
def lastingCmd : Cmd → Bool
  | .loadEnd _ _ => true
  | .activate => true
  | _ => false

/-- The queues and tables hold no more than their size (R55, R79, R167, R181, R182, R184), the line is served, a command
waits only behind one in progress or a full response queue, no release event stands between acts (R80). -/
structure State.queuesHold (s : State) : Prop where
  slots : s.rsu.slots.length = 48
  store : s.rsu.store.length ≤ 16
  holders : s.slu.holders.length = 8
  inputQ : s.slu.inputQ.length ≤ 4
  respQ : s.slu.respQ.length ≤ 8
  kept : s.slu.inProgress.isSome → s.slu.respQ.length ≤ 7
  lasting : ∀ q, s.slu.inProgress = some q → lastingCmd q.cmd
  noticeQ : s.slu.noticeQ.Nodup
  noticeCount : s.slu.noticeCount < 256
  served : s.mdc.power = .running → s.served
  waiting : s.mdc.power = .running → s.slu.inputQ ≠ [] → s.slu.inProgress.isSome ∨ s.slu.respQ.length = 8
  settled : s.releaseDue = false

/-- Each link's table has 16 entries and its request list holds at most 16; tags and sequences stay in range (R139, R141,
R163). -/
def State.linksHold (s : State) : Prop :=
  ∀ k ∈ s.bdu.links, k.table.length = 16 ∧ k.outgoing.length ≤ 16 ∧ k.nextTag < 256 ∧ k.nextSeq < 16

/-- The load buffer and the three restriction tables have the canonical form; the buffer lists no byte at or above its size
(R1, R13, R14, R38). -/
structure State.canonical (s : State) : Prop where
  buffer : Memory.wf s.sds.buffer = true
  size : ∀ x ∈ s.sds.buffer, x.1 < 65536
  declared : s.sds.load.declared ≤ 65536
  secRestr : Sparse.wf SecRestr.empty s.est.secRestr = true
  ptRestr : Sparse.wf PtRestr.empty s.est.ptRestr = true
  sigRestr : Sparse.wf SigRestr.empty s.est.sigRestr = true

/-- Outside OPERATIONAL every signal is commanded STOP (R33, R42). -/
def State.signalsStop (s : State) : Prop :=
  s.mdc.mode ≠ .operational → ∀ r ∈ s.est.signals, r.commanded = .stop

/-- A signal commanded PROCEED or RESTRICTED is owned by an instance in CLEARING or CLEARED and carries neither a flank hold nor
NO_CLEAR (R33). What that rests on: a signal is owned as the entry signal of a live instance and then carries no flank hold (R35,
R86, R160), and an instance from SETTING to HELD owns its entry signal (R65); the start check has none live (R55). -/
structure State.clearedOwned (s : State) : Prop where
  away : ∀ g, (s.sig g).commanded ≠ .stop → ∃ i, (s.sig g).owner = some i
    ∧ ((s.slot i).state = .clearing ∨ (s.slot i).state = .cleared) ∧ (s.sig g).holds = 0 ∧ (s.sigRestr g).noClear = false
  owned : ∀ g i, (s.sig g).owner = some i → s.live i = true ∧ (s.slotRoute i).entry = g ∧ (s.sig g).holds = 0
  entry : ∀ i, (s.slot i).state = .setting ∨ (s.slot i).state = .clearing ∨ (s.slot i).state = .cleared ∨ (s.slot i).state = .held →
    (s.slotRoute i).entry < s.est.signals.length → (s.sig (s.slotRoute i).entry).owner = some i
  checking : s.mdc.power = .checking → ∀ i, s.live i = false

/-- What the mode says of the rest (R1, R13, R18, R19, R190, R194 to R196). A LOADING begun from HALTED keeps the active image and
the halt reason; one begun from UNCONFIGURED has neither (R13, R190). -/
structure State.modesLegal (s : State) : Prop where
  checking : s.mdc.power = .checking → s.mdc.mode = .unconfigured
  active : s.mdc.mode = .starting ∨ s.mdc.mode = .operational ∨ s.mdc.mode = .halted ∨ s.sds.load.origin = some .halted →
    s.sds.active.isSome
  inactive : s.mdc.power = .checking ∨ s.mdc.mode = .unconfigured ∨ s.sds.load.origin = some .unconfigured → s.sds.active = none
  startup : s.mdc.startupMs.isSome ∨ s.mdc.startupExpired ∨ s.mdc.startCrc ≠ .idle → s.mdc.mode = .starting
  verify : s.sds.verifyMs.isSome ∨ s.sds.verifyPass → s.mdc.mode = .operational
  onePass : ¬(s.sds.verifyMs.isSome ∧ s.sds.verifyPass)
  load : s.sds.load.state ≠ .closed ↔ s.mdc.mode = .loading
  origin : s.mdc.mode = .loading → s.sds.load.origin = some .unconfigured ∨ s.sds.load.origin = some .halted
  closed : s.sds.load.state = .closed → s.sds.load = LoadRecord.closed
  halt : s.mdc.halt.isSome ↔ s.mdc.mode = .halted ∨ s.sds.load.origin = some .halted
  working : s.slu.inProgress.isSome → s.mdc.mode = .loading

/-- A point record whose fields agree: MOVING with a commanded position and a running throw timer; at rest as commanded,
the timer stopped; LOST with NONE commanded, the timer stopped (R22, R29 to R31). -/
def PointRec.agreeing (r : PointRec) : Prop :=
  match r.pos with
  | .moving => r.commanded.isSome ∧ r.throwMs.isSome
  | .lost => r.commanded = none ∧ r.throwMs = none
  | .normal => r.commanded = some .normal ∧ r.throwMs = none
  | .reverse => r.commanded = some .reverse ∧ r.throwMs = none

/-- Every point record's fields agree. -/
def State.pointsAgree (s : State) : Prop := ∀ r ∈ s.est.points, r.agreeing

/-- A slot that owns a lock holds a live instance (R35, R57). -/
structure State.ownersLive (s : State) : Prop where
  sec : ∀ r ∈ s.est.sections, ∀ i, r.owner = some (.slot i) → s.live i
  pt : ∀ r ∈ s.est.points, ∀ i, r.owner = some (.slot i) → s.live i
  sig : ∀ r ∈ s.est.signals, ∀ i, r.owner = some i → s.live i

/-- Each claim count holds 0–48 (R36). -/
structure State.countsHold (s : State) : Prop where
  sec : ∀ r ∈ s.est.sections, r.claims ≤ 48
  pt : ∀ r ∈ s.est.points, r.claims ≤ 48
  sig : ∀ r ∈ s.est.signals, r.holds ≤ 48

/-- Every claim entry: those of the slots' lists, then those of the remote claim tables (R36). -/
def State.allClaims (s : State) : List ClaimOn :=
  (s.rsu.slots.flatMap fun k => k.claims.map Claim.what)
    ++ s.bdu.links.flatMap fun k => k.table.flatMap fun x => (x.map fun y => y.claims.map Claim.what).getD []

/-- The claim count of an element is the number of claim entries that name it (R36); a FREE slot, an entry not decided and a part
in its start check have none. -/
structure State.countsExact (s : State) : Prop where
  sec : ∀ k, k < s.est.sections.length → (s.sec k).claims = countOn s.allClaims ⟨.sect, k⟩
  pt : ∀ k, k < s.est.points.length → (s.pt k).claims = countOn s.allClaims ⟨.point, k⟩
  sig : ∀ k, k < s.est.signals.length → (s.sig k).holds = countOn s.allClaims ⟨.signal, k⟩
  free : ∀ i, s.live i = false → (s.slot i).claims = []
  undecided : ∀ l e x, s.entry l e = some x → x.decided = false → x.claims = [] ∧ x.lock = none
  checking : s.mdc.power = .checking → s.allClaims = []

/-- The position a request of a neighbour asks a point to lie in (R160). -/
def Ask.position (a : Ask) : Pos := if a.state = some .normal then .normal else .reverse

/-- A point's flank claim position stands while its claim count is not 0, its locked position while it has a lock owner, and the two
agree (R35 to R37); the owner of a lock is a live instance that requires the point, or the entry that locks it. -/
structure State.positionsAgree (s : State) : Prop where
  claim : ∀ r ∈ s.est.points, r.claims = 0 ↔ r.claimPos = none
  lock : ∀ r ∈ s.est.points, r.owner = none ↔ r.lockedPos = none
  agree : ∀ r ∈ s.est.points, r.owner ≠ none → r.claims ≠ 0 → r.lockedPos = r.claimPos
  slot : ∀ k i, (s.pt k).owner = some (.slot i) → s.live i = true
    ∧ ((s.pt k).kind = some .overlap → k ∈ (s.slotRoute i).overlapPoints.map Prod.fst)
  entry : ∀ l e x k, s.entry l e = some x → x.lock = some ⟨.point, k⟩ → k < s.est.points.length →
    (s.pt k).owner = some (.remote l e) ∧ (s.pt k).lockedPos = some x.ask.position
  undecided : ∀ l e x, s.entry l e = some x → x.decided = false → x.claims = [] ∧ x.lock = none

/-- Every claim entry that names a point asks the point's flank claim position (R37). -/
def State.claimsAsk (s : State) : Prop :=
  ∀ k p, .point k p ∈ s.allClaims → k < s.est.points.length → (s.pt k).claimPos = some p

/-- No route number stands twice: not in the store, not among the live instances, not in both (R59, R79, R80). -/
structure State.storeAgrees (s : State) : Prop where
  once : (s.rsu.store.map StoreEntry.route).Nodup
  apart : ∀ e ∈ s.rsu.store, ∀ i, s.live i = true → (s.slot i).route ≠ some e.route
  live : ∀ i j n, s.live i = true → s.live j = true → (s.slot i).route = some n → (s.slot j).route = some n → i = j

/-- A live EXIT instance has its port's view OUT, a granted incoming acceptance its port's view IN (R61, R148, R155). -/
structure State.viewsAgree (s : State) : Prop where
  exit : ∀ i, s.live i = true → (s.slot i).kind = some .exit → (s.port (s.slotRoute i).exit).view = .out
  acceptance : ∀ p, (s.port p).incGranted = true → (s.port p).view = .into
  checking : s.mdc.power = .checking → ∀ i, s.live i = false

/-! ### Frames and telegrams as a sender builds them (12, R198) -/

/-- The parameter bytes of an inner command. -/
def innerPayload : Inner → List Byte
  | .restoreSection i => [byteOf i]
  | .forcedRelease slot route => byteOf slot :: be16 route
  | .removeRestriction cls idx r => [byteOf cls, byteOf idx, byteOf r]
  | .forceDirection p => [byteOf p]
  | .clearRemoteClaims l => [byteOf l]
  | .takeControl a => [byteOf a]
  | .restart k => [byteOf k]
  | .other _ params => params

/-- The payload of a command's frame. -/
def cmdPayload : Cmd → List Byte
  | .loadBegin len => be32 len
  | .loadSegment offset bytes => be16 offset ++ bytes
  | .loadEnd len crc => be32 len ++ be32 crc.toNat
  | .activate => []
  | .setRoute route store lifetime => be16 route ++ [byteOf store] ++ be16 lifetime
  | .reclear route => be16 route
  | .cancelRoute route => be16 route
  | .forcedRelease slot route => byteOf slot :: be16 route
  | .movePoint i p => [byteOf i, byteOf p]
  | .addRestriction cls idx r v => [byteOf cls, byteOf idx, byteOf r, byteOf v]
  | .removeRestriction cls idx r => [byteOf cls, byteOf idx, byteOf r]
  | .restoreSection i => [byteOf i]
  | .requestDirection p => [byteOf p]
  | .forceDirection p => [byteOf p]
  | .clearRemoteClaims l => [byteOf l]
  | .giveControl a h => [byteOf a, byteOf h]
  | .takeControl a => [byteOf a]
  | .prepare x => byteOf (innerCode x) :: innerPayload x
  | .execute x => byteOf (innerCode x) :: innerPayload x
  | .restart k => [byteOf k]
  | .status => []
  | .getElement cls idx => [byteOf cls, byteOf idx]
  | .getPort p => [byteOf p]
  | .getLink l => [byteOf l]
  | .getInstance i => [byteOf i]
  | .readTable t start => byteOf t :: be16 start

/-- The frame of the host that carries a command. -/
def hostFrame (o : Originator) (tag : Nat) (c : Cmd) : List Byte := supFrame 0 (originatorCode o) tag (cmdCode c) (cmdPayload c)

/-- The row of the opcode table that a command of the catalogue is. -/
def rowOf (o : Originator) (tag : Nat) : Cmd → Instr
  | .loadBegin len => .loadBegin o tag len
  | .loadSegment offset bytes => .loadSegment o tag offset bytes
  | .loadEnd len crc => .loadEnd o tag len crc
  | .activate => .activate o tag
  | .setRoute route store lifetime => .setRoute o tag route store lifetime
  | .reclear route => .reclear o tag route
  | .cancelRoute route => .cancelRoute o tag route
  | .forcedRelease slot route => .forcedRelease o tag slot route
  | .movePoint i p => .movePoint o tag i p
  | .addRestriction cls idx r v => .addRestriction o tag cls idx r v
  | .removeRestriction cls idx r => .removeRestriction o tag cls idx r
  | .restoreSection i => .restoreSection o tag i
  | .requestDirection p => .requestDirection o tag p
  | .forceDirection p => .forceDirection o tag p
  | .clearRemoteClaims l => .clearRemoteClaims o tag l
  | .giveControl a h => .giveControl o tag a h
  | .takeControl a => .takeControl o tag a
  | .prepare x => .prepare o tag x
  | .execute x => .execute o tag x
  | .restart k => .restart o tag k
  | .status => .status o tag
  | .getElement cls idx => .getElement o tag cls idx
  | .getPort p => .getPort o tag p
  | .getLink l => .getLink o tag l
  | .getInstance i => .getInstance o tag i
  | .readTable t start => .readTable o tag t start

/-- The answer frame of a controller with sixteen report codes (12). -/
def answerFrame (addr : Nat) (codes : List Nat) : List Byte :=
  let body := [byteOf 18, byteOf addr, byteOf 2] ++ codes.map byteOf
  byteOf 0x96 :: body ++ crc16Bytes (crc16 body)

/-- A port entry that a STATUS can carry: every number fits its byte, and a tag stands with an answer only. -/
def PortEntry.sendable (e : PortEntry) : Prop :=
  e.num < 256 ∧ (∀ t, e.acc = some t → t < 256) ∧ (∀ t, e.ansTag = some t → t < 256) ∧ (e.ansTag = none ↔ e.ans = .none)

/-- A content a telegram can carry (12, R142). -/
def TelBody.sendable : TelBody → Prop
  | .hello _ ps => 1 ≤ ps.length ∧ ps.length ≤ 2 ∧ ∀ p ∈ ps, p.num < 256
  | .status ports reqs as =>
    ports.length ≤ 2 ∧ reqs.length ≤ 16 ∧ as.length ≤ 16 ∧ (∀ e ∈ ports, e.sendable)
      ∧ (∀ q ∈ reqs, q.1 < 256 ∧ q.2.idx < 256) ∧ (∀ a ∈ as, a.tag < 256)
      ∧ (reqs.map Prod.fst).Nodup ∧ (as.map AnsItem.tag).Nodup
  | .halt => True

end Sys2Proof.Machine
end

