-- ==== Sys2Proof/Certificates/Slice0/Obligations.lean ====
section
/-! DEFINITION. The statements for the provers. An event's says `Acted s i b`: the event makes `b` of `s`. A command's says
`Answered s i f b t`: it makes `b` of `s`, `t` follows, the reply `f` goes out last. `Replied s i f t`: only the reply. -/

section
open Sys2Proof Sys2Proof.Machine

/-! ### The queue, the tick, completion, reset -/

/-- A step runs the command at the front of the queue on the state with the rest of the queue. -/
def Obligations.StepRunsFront : Prop :=
  ∀ (c : Instr) (s : State), step { s with pending := c :: s.pending } = exec c s

/-- On an empty queue one millisecond passes (the model's choice, log 1): every running timer falls, the time since each
link's last telegram rises, nothing else changes; without the mode set nothing moves. -/
def Obligations.EmptyQueueTick : Prop :=
  ∀ s : State, s.pending = [] →
    (s.mdc.power ≠ .running → step s = .next s) ∧
    (s.mdc.power = .running → ∃ t : State, step s = .next t
      ∧ t.mdc = { s.mdc with startupMs := s.mdc.startupMs.map (· - 1) }
      ∧ t.sds = { s.sds with verifyMs := s.sds.verifyMs.map (· - 1) }
      ∧ (∀ i, t.pt i = { s.pt i with throwMs := (s.pt i).throwMs.map (· - 1) })
      ∧ (∀ i, t.slot i = { s.slot i with timerMs := (s.slot i).timerMs.map (· - 1) })
      ∧ t.rsu.store = s.rsu.store.map (fun e => { e with lifeMs := e.lifeMs - 1 })
      ∧ (∀ l, t.link l = { s.link l with timeoutMs := (s.link l).timeoutMs.map (· - 1), sinceMs := (s.link l).sinceMs.map (· + 1) })
      ∧ t.slu = { s.slu with gateCentre := s.slu.gateCentre.map (fun g => { g with leftMs := g.leftMs - 1 })
                             gatePanel := s.slu.gatePanel.map (fun g => { g with leftMs := g.leftMs - 1 }) }
      ∧ { t.est with points := s.est.points } = s.est ∧ t.flu = s.flu ∧ t.bdu.ports = s.bdu.ports ∧ t.pending = []
      ∧ t.rsu.lastRemoval = s.rsu.lastRemoval ∧ t.releaseDue = s.releaseDue ∧ t.freeCount = s.freeCount
      ∧ t.est.points.length = s.est.points.length ∧ t.rsu.slots.length = s.rsu.slots.length
      ∧ t.bdu.links.length = s.bdu.links.length)

/-- Every command answers a next state, in every state, and leaves the queue of waiting commands alone; without supply, or
with the reset line held low, only the supply and the reset line act (R191, R192; log 11). -/
def Obligations.EveryCommandCompletes : Prop :=
  ∀ (i : Instr) (s : State), ∃ t : State, exec i s = .next t ∧ t.pending = s.pending
    ∧ (s.alive = false → i ≠ .powerOn → i ≠ .powerLoss → i ≠ .resetLineRelease → t = s)

/-- The state after reset: a cold start has begun (R1, R55, R79, R167, R172, R184, R190, R191; logs 7 to 10, 35, 38, 44), and it
meets every invariant stated below. -/
def Obligations.ResetState : Prop :=
  State.reset.mdc = ⟨.checking, .unconfigured, .cold, none, none, false, .idle⟩
    ∧ State.reset.sds.active = none ∧ State.reset.sds.verifyCount = 0 ∧ State.reset.sds.load.state = .closed
    ∧ (∀ a, Memory.read State.reset.sds.buffer a = 0)
    ∧ (∀ i, State.reset.slot i = Slot.start) ∧ State.reset.rsu.store = []
    ∧ State.reset.slu.holders = List.replicate 8 .none ∧ State.reset.slu.gateCentre = none ∧ State.reset.slu.gatePanel = none
    ∧ State.reset.outgoing = [] ∧ State.reset.slu.inputQ = [] ∧ State.reset.slu.noticeQ = [.system] ∧ State.reset.pending = []
    ∧ State.reset.queuesHold ∧ State.reset.linksHold ∧ State.reset.canonical ∧ State.reset.signalsStop
    ∧ State.reset.modesLegal ∧ State.reset.pointsAgree ∧ State.reset.ownersLive ∧ State.reset.countsHold
    ∧ State.reset.countsExact ∧ State.reset.positionsAgree ∧ State.reset.claimsAsk ∧ State.reset.storeAgrees ∧ State.reset.viewsAgree
    ∧ State.reset.clearedOwned

/-! ### Invariants every step keeps -/

/-- Queues and tables stay within their sizes (R55, R79, R139, R163, R167, R181, R182, R184); no route number comes to stand twice,
in the store or among the live instances (R59, R79, R80). -/
def Obligations.CapacitiesKept : Prop :=
  (∀ s t : State, s.queuesHold → s.linksHold → step s = .next t → t.queuesHold ∧ t.linksHold)
    ∧ ∀ s t : State, s.storeAgrees → step s = .next t → t.storeAgrees

/-- The load buffer and the restriction tables keep their canonical form (R1, R14, R38, R42). -/
def Obligations.CanonicalKept : Prop :=
  ∀ s t : State, s.canonical → step s = .next t → t.canonical

/-- Outside OPERATIONAL every signal stays commanded STOP (R33, R42, R196, R197); in it a signal away from STOP stays owned by an
instance in CLEARING or CLEARED, without a flank hold and without NO_CLEAR (R33). -/
def Obligations.SignalsStopKept : Prop :=
  (∀ s t : State, s.signalsStop → step s = .next t → t.signalsStop)
    ∧ ∀ s t : State, s.clearedOwned → step s = .next t → t.clearedOwned

/-- Mode, active image, start-up, verify, load and halt reason stay in agreement (R13, R18, R19, R181, R190, R194 to R196): there is
no active image in the start check, in UNCONFIGURED and in a LOADING begun from it, and a halt reason exactly in HALTED and in a
LOADING begun from it. -/
def Obligations.ModesKept : Prop :=
  ∀ s t : State, s.modesLegal → step s = .next t → t.modesLegal

/-- Position, commanded position and throw timer of every point stay in agreement (R22, R29 to R31); so do its locked position with
its lock owner, its flank claim position with its claim count, and the two positions with each other (R35 to R37); and so does the position that every
claim entry on the point asks with its flank claim position (R37), where the claim counts are exact, as they stay by `CountsKept`. -/
def Obligations.PointsAgreeKept : Prop :=
  (∀ s t : State, s.pointsAgree → step s = .next t → t.pointsAgree)
    ∧ (∀ s t : State, s.positionsAgree → step s = .next t → t.positionsAgree)
    ∧ ∀ s t : State, s.positionsAgree → s.countsExact → s.claimsAsk → step s = .next t → t.claimsAsk

/-- A slot that owns a lock holds a live instance, and stays so (R35, R57); the port of a live EXIT instance stays OUT, that of a
granted incoming acceptance IN (R61, R148, R155). -/
def Obligations.OwnersLiveKept : Prop :=
  (∀ s t : State, s.ownersLive → step s = .next t → t.ownersLive)
    ∧ ∀ s t : State, s.viewsAgree → step s = .next t → t.viewsAgree

/-- Every claim count stays within 0–48, and stays the number of claim entries that name its element (R36). -/
def Obligations.CountsKept : Prop :=
  (∀ s t : State, s.countsHold → step s = .next t → t.countsHold)
    ∧ ∀ s t : State, s.countsExact → step s = .next t → t.countsExact

/-! ### Frames and telegrams -/

/-- A telegram as sent is read back whole: identity, complement, alive byte, content (12, R141, R142, R198). -/
def Obligations.TelegramReadsBack : Prop :=
  ∀ (identity seq : Nat) (b : TelBody), identity < 65536 → seq < 16 → b.sendable →
    readTelegram (telegramBytes ⟨identity, b, seq⟩) = some ⟨identity, 65535 - identity, seq + 16 * (15 - seq), b⟩

/-- A frame of the host that carries a command with fitting operands acts as that command: the receiver hunts, the command is
queued, or reported OVERRUN, and the line is served; while the receiver drains, its bytes are discarded, as the command's row is
(R179 to R181, R198; log 13). -/
def Obligations.FrameIsItsCommand : Prop :=
  ∀ (s : State) (o : Originator) (tag : Nat) (c : Cmd), (rowOf o tag c).wf = true → cmdSized c = true →
    s.alive = true →
    let taken := State.settleLine (State.enqueue { s with slu.rx := .hunting } ⟨o, tag, c⟩)
    (s.slu.rx ≠ .draining →
      exec (.supFrameComplete (hostFrame o tag c)) s = .next taken ∧ exec (rowOf o tag c) s = .next taken
      ∧ exec (.supFrameComplete (hostFrame o tag c)) s = exec (rowOf o tag c) { s with slu.rx := .hunting })
    ∧ (s.slu.rx = .draining → exec (.supFrameComplete (hostFrame o tag c)) s = .next s ∧ exec (rowOf o tag c) s = .next s)

/-! ### What follows an act -/

/-- What follows an act leaves of it all that `Follows` names, and leaves the frames and the commands alone (R31, R41, R42,
R80, R145, R158, R164). Its order: twice the change is handed on, to the flank marks, the instances, the incoming acceptances
and the remote claim entries in turn; retry passes while release events arise, each handed on; the notice references; the
telegrams (R41, R80, R141; log 14). -/
def Obligations.FollowUpFrame : Prop :=
  ∀ old b : State, Follows b (finish old b) ∧ (finish old b).slu.line = b.slu.line ∧ (finish old b).slu.respQ = b.slu.respQ
    ∧ (finish old b).slu.inputQ = b.slu.inputQ ∧ (finish old b).slu.inProgress = b.slu.inProgress
    ∧ (finish old b).slu.noticeCount = b.slu.noticeCount ∧ b.slu.noticeQ <+: (finish old b).slu.noticeQ
    ∧ (finish old b).releaseDue = false
    ∧ (let first := handOn old b
      finish old b = (noteChanges old (State.retryLoop 18 (handOn first first))).sendChanges)
    ∧ (let live (t : State) : List Nat := (List.range t.rsu.slots.length).filter fun i => decide ((t.slot i).state ≠ .free)
      let watched := (live b).foldl (fun t i => watchClaims old t i) b
      let reacted := (live watched).foldl (fun t i => react old t i) watched
      handOn old b = ((List.range reacted.bdu.ports.length).foldl (fun t p => portEdges old t p) reacted).watchTables)
    ∧ (∀ n, let taken := { b with releaseDue := false }
      (b.releaseDue = true → b.mdc.mode = .operational → State.retryLoop (n + 1) b =
        State.retryLoop n (handOn taken (taken.rsu.store.foldl State.retryEntry taken)))
      ∧ (b.releaseDue = false ∨ b.mdc.mode ≠ .operational → State.retryLoop (n + 1) b = taken))
    ∧ (∀ e, b.retryEntry e = match b.routeChecks e.originator e.route true, b.routeDef? e.route with
      | .accepted i cs, some d => ((b.acceptRoute e.originator d i cs).leaveStore e.route .set).note .store
      | _, _ => b)

/-- Every record that an act has changed is referenced in the notice queue, once (R41, R58, R79, R138, R166, R184, R187). The flank
marks of an instance: been intact once an entry is intact, lost once it stops being so, and each such loss enqueues the instance,
that of an entry marked already too (R82, R100). -/
def Obligations.ChangesNoted : Prop :=
  (∀ (old s : State) (i : Nat),
    let t := watchClaims old s i
    (∀ w, s.intact i w = true ↔ s.stands i w)
    ∧ (t.slot i) = { s.slot i with claims := (s.slot i).claims.map fun c =>
        { c with been := c.been || s.intact i c.what, lost := c.lost || (c.been && !s.intact i c.what) } }
    ∧ (∀ j, j ≠ i → t.slot j = s.slot j) ∧ t = { s with rsu.slots := t.rsu.slots, slu.noticeQ := t.slu.noticeQ }
    ∧ ((∃ c ∈ (s.slot i).claims, c.been = true ∧ old.stands i c.what ∧ ¬s.stands i c.what) → Ref.slot i ∈ t.slu.noticeQ))
  ∧ ∀ old s t : State, t = finish old s →
    (∀ i, i < t.est.sections.length → old.sec i ≠ t.sec i ∨ old.secRestr i ≠ t.secRestr i → .sect i ∈ t.slu.noticeQ)
    ∧ (∀ i, i < t.est.points.length → (old.pt i).still ≠ (t.pt i).still ∨ old.ptRestr i ≠ t.ptRestr i → .point i ∈ t.slu.noticeQ)
    ∧ (∀ i, i < t.est.signals.length → old.sig i ≠ t.sig i ∨ old.sigRestr i ≠ t.sigRestr i → .signal i ∈ t.slu.noticeQ)
    ∧ (∀ p, p < t.bdu.ports.length → old.port p ≠ t.port p → .port p ∈ t.slu.noticeQ)
    ∧ (∀ l, l < t.bdu.links.length → (old.link l).key ≠ (t.link l).key → .link l ∈ t.slu.noticeQ)
    ∧ (∀ i, i < t.rsu.slots.length → (old.slot i).still ≠ (t.slot i).still → .slot i ∈ t.slu.noticeQ)
    ∧ (old.rsu.storeKey ≠ t.rsu.storeKey → .store ∈ t.slu.noticeQ)
    ∧ (old.systemKey ≠ t.systemKey → .system ∈ t.slu.noticeQ)
    ∧ (s.slu.noticeQ.Nodup → t.slu.noticeQ.Nodup)

/-! ### Supply, reset line, starts, modes -/

/-- POWER_ON begins a cold start, POWER_LOSS takes the supply: only the stored image stays, damaged where ACTIVATE was
writing it (R17, R191; the model's choices in the cold start's values: logs 5, 7, 9 to 12, 38, 44). -/
def Obligations.SupplyRows : Prop :=
  ∀ s : State, ∃ t : State,
    exec .powerOn s = .next t
    ∧ exec .powerLoss s = .next { t with mdc.power := .off }
    ∧ t = { State.reset with sds.stored := t.sds.stored, freeCount := s.freeCount, pending := s.pending }
    ∧ t.sds.stored.bytes = s.sds.stored.bytes ∧ t.sds.stored.crc = s.sds.stored.crc
    ∧ (t.sds.stored.damaged = true ↔ s.sds.stored.damaged = true ∨ ∃ q, s.slu.inProgress = some q ∧ q.cmd = .activate)

/-- RESET_LINE_LOW: 10 µs or longer is taken, shorter than 5 µs is ignored, between them either (log 6); without supply or
held already nothing changes (log 11). RESET_LINE_RELEASE after a pulse that was taken: a warm start with cause WARM_LINE;
what it keeps and what takes its start values (R22, R55, R79, R167, R172, R186, R192; the mode while the check runs, the buffer and
the output fields: logs 7, 10, 38), field by field (`WarmStarted`). -/
def Obligations.ResetLineRows : Prop :=
  (
    ∀ (s : State) (us : Nat), ∃ t : State, exec (.resetLineLow us) s = .next t ∧
      (let held (u : State) : Prop := u.mdc.power = .held ∧ u.slu.line = none ∧ u.slu.inProgress = none
          ∧ u.sds.stored.bytes = s.sds.stored.bytes ∧ u.sds.stored.crc = s.sds.stored.crc
          ∧ (u.sds.stored.damaged = true ↔ s.sds.stored.damaged = true ∨ ∃ q, s.slu.inProgress = some q ∧ q.cmd = .activate)
          ∧ { u with mdc.power := s.mdc.power, sds.stored := s.sds.stored, slu.inProgress := s.slu.inProgress, slu.line := s.slu.line, freeCount := s.freeCount } = s
       (s.alive = false → t = s)
        ∧ (s.alive = true → 10 ≤ us → held t ∧ t.freeCount = s.freeCount)
        ∧ (s.alive = true → us < 5 → t = s)
        ∧ (s.alive = true → 5 ≤ us → us < 10 → t.freeCount = s.freeCount + 1 ∧ (held t ∨ { t with freeCount := s.freeCount } = s))))
    ∧ (
      ∀ s : State, (s.mdc.power ≠ .held → exec .resetLineRelease s = .next s) ∧
        (s.mdc.power = .held → ∃ t : State, exec .resetLineRelease s = .next t ∧ t.outgoing = s.outgoing
          ∧ WarmStarted s (Mdc.checking .warmLine) t))

/-- START_CHECK_COMPLETE: an image that passes the ten checks is installed and the part is STARTING; one that fails leaves
it UNCONFIGURED (R16, R18, R21 to R23, R43, R139, R140, R167, R194). With the installed image the first poll goes out, to the
lowest listed address (R44, R45). The ten checks are those of LOAD_END (`LoadEndRows`), check 1 against the stored CRC; that of
an image left partly written fails (R17, R18; log 5). All else stays: the verify count, the load record and its buffer, the gates, the
receiver, the queues and the frame on the line, the requests and instances, the commands waiting (R20, R186); before the check there is
no active image (`ModesKept`), so that a failing one leaves none. -/
def Obligations.StartCheckRow : Prop :=
  (
    ∀ s : State, (s.mdc.power ≠ .checking → exec .startCheckComplete s = .next s) ∧
    (s.mdc.power = .checking → ∃ c : State, exec .startCheckComplete s = .next c.settleLine
      ∧ c.sds.lastCheck = s.sds.stored.check
      ∧ c.slu.noticeQ = (if Ref.system ∈ s.slu.noticeQ then s.slu.noticeQ else s.slu.noticeQ ++ [.system])
      ∧ c = { s with
          mdc := c.mdc, sds := { s.sds with active := c.sds.active, lastCheck := c.sds.lastCheck }, est := c.est, flu := c.flu
          bdu := c.bdu, slu := { s.slu with holders := c.slu.holders, noticeQ := c.slu.noticeQ } }
      ∧ (s.sds.stored.check.code = 0 →
          let m := readImage s.sds.stored.bytes
          c.mdc = ⟨.running, .starting, s.mdc.cause, s.mdc.halt, some 10000, false, .running⟩
          ∧ c.sds.active = some ⟨m, s.sds.stored.crc⟩
          ∧ c.est.sections = List.replicate m.sections.length SectionRec.start
          ∧ c.est.points = List.replicate m.points.length PointRec.start
          ∧ c.est.signals = List.replicate m.signals.length SignalRec.start
          ∧ (∀ i, c.secRestr i = if i < m.sections.length then s.secRestr i else SecRestr.empty)
          ∧ (∀ i, c.ptRestr i = if i < m.points.length then s.ptRestr i else PtRestr.empty)
          ∧ (∀ i, c.sigRestr i = if i < m.signals.length then s.sigRestr i else SigRestr.empty)
          ∧ c.flu.ctrls = (ascending m.controllers).map (fun a => ⟨a, .unknown, 0⟩)
          ∧ (m.controllers = [] → c.flu.poll = .none ∧ c.flu.pollPos = none ∧ c.flu.lastPoll = none)
          ∧ (m.controllers ≠ [] → ∃ a, a ∈ m.controllers ∧ (∀ x ∈ m.controllers, a ≤ x)
              ∧ c.flu.poll = .waiting ∧ c.flu.pollPos = some a ∧ c.flu.lastPoll = some (c.pollOf a))
          ∧ c.bdu.ports = List.replicate m.ports.length Port.start ∧ c.bdu.links.length = 4
          ∧ (∀ l, (c.link l).unsent = Link.start)
          ∧ c.slu.holders = (if s.mdc.cause = .cold then m.areas else s.slu.holders))
      ∧ (s.sds.stored.check.code ≠ 0 →
          c.mdc = { s.mdc with power := .running, mode := .unconfigured } ∧ c.sds.active = s.sds.active
          ∧ (s.modesLegal → c.sds.active = none) ∧ c.est = s.est ∧ c.flu = s.flu ∧ c.bdu = s.bdu
          ∧ c.slu.holders = (if s.mdc.cause = .cold then List.replicate 8 .none else s.slu.holders))))
    ∧ (
      ∀ st : Stored,
        (st.damaged = true → st.check.code = 1) ∧ (st.damaged = false → st.check = structuralChecks st.bytes st.crc))

/-- The start-up in STARTING: the CRC of the active copy matching leads to OPERATIONAL once start-up polling is complete or
the timer has expired, and the timer's expiry leads there once the CRC has matched; each controller still UNKNOWN is then
declared LOST with all it serves, every other controller and element stays; a mismatch leads to HALTED, with the same
declaration (R18, R20, R49, R52, R194 to R196). -/
def Obligations.StartUpRows : Prop :=
  ∀ (s : State) (a : Active) (crc : Crc32), s.mdc.power = .running → s.mdc.mode = .starting → s.sds.active = some a →
    let polled := (∀ x ∈ s.flu.ctrls, x.state ≠ .unknown) ∨ s.mdc.startupExpired = true
    let counted := (s.sds.verifyCount + 1) % 65536
    (s.mdc.startCrc = .running → crc = a.crc →
      (polled → ∃ b, Acted s (.startingCrcComplete crc) b ∧ EntersOperational { s with sds.verifyCount := counted } b)
      ∧ (¬polled → Acted s (.startingCrcComplete crc) { s with mdc.startCrc := .matched, sds.verifyCount := counted }))
    ∧ (s.mdc.startCrc = .running → crc ≠ a.crc →
        ∃ b, Acted s (.startingCrcComplete crc) b ∧ EntersHalted s .startingImage b)
    ∧ (s.mdc.startCrc ≠ .running → Acted s (.startingCrcComplete crc) s)
    ∧ (s.mdc.startupMs.isSome → s.mdc.startCrc = .matched →
        ∃ b, Acted s .startupTimerExpiry b ∧ EntersOperational s b)
    ∧ (s.mdc.startupMs.isSome → s.mdc.startCrc ≠ .matched →
        Acted s .startupTimerExpiry { s with mdc.startupMs := none, mdc.startupExpired := true })
    ∧ (s.mdc.startupMs = none → Acted s .startupTimerExpiry s)

/-- The verify passes of OPERATIONAL: the timer's expiry begins a pass; a pass that matches counts and starts the timer
afresh; one that does not leads to HALTED (R19, R20, R196). -/
def Obligations.VerifyRows : Prop :=
  ∀ (s : State) (a : Active) (crc : Crc32), s.mdc.power = .running → s.sds.active = some a →
    (s.sds.verifyMs.isSome → Acted s .verifyTimerExpiry { s with sds.verifyMs := none, sds.verifyPass := true })
    ∧ (s.sds.verifyPass = true → crc = a.crc → Acted s (.verifyPassComplete crc) (State.note { s with sds.verifyCount := (s.sds.verifyCount + 1) % 65536, sds.verifyMs := some 600000, sds.verifyPass := false } .system))
    ∧ (s.sds.verifyPass = true → crc ≠ a.crc → ∃ b, Acted s (.verifyPassComplete crc) b ∧ EntersHalted s .image b)
    ∧ (s.sds.verifyMs = none → Acted s .verifyTimerExpiry s)
    ∧ (s.sds.verifyPass = false → Acted s (.verifyPassComplete crc) s)

/-! ### The load -/

/-- LOAD_BEGIN (R13). -/
def Obligations.LoadBeginRow : Prop :=
  ∀ (s : State) (o : Originator) (tag len : Nat), s.ready →
    (¬(1 ≤ len ∧ len ≤ 65536) → ∃ t, Answered s (.loadBegin o tag len) (.reply tag 1 o .badParameter .none) s t)
    ∧ (1 ≤ len → len ≤ 65536 → s.mdc.mode ≠ .unconfigured → s.mdc.mode ≠ .halted →
        ∃ t, Answered s (.loadBegin o tag len) (.reply tag 1 o .notPermitted .none) s t)
    ∧ (1 ≤ len → len ≤ 65536 → s.mdc.mode = .unconfigured ∨ s.mdc.mode = .halted →
        ∃ t, Answered s (.loadBegin o tag len) (.reply tag 1 o .done .none)
            { s with sds.load := ⟨.opened, len, some o, some s.mdc.mode, none⟩, sds.buffer := [], mdc.mode := .loading } t
          ∧ ∀ a, Memory.read t.sds.buffer a = 0)

/-- LOAD_SEGMENT: the bytes stand from the offset on, every other byte as before, the load is OPEN; a wrong length is a frame with
the fault PARAMETERS, and the receiver drains (R14, R179, R180; log 13). That a segment with both grounds is NOT_PERMITTED and not
BAD_PARAMETER is the model's choice (log 20). -/
def Obligations.LoadSegmentRow : Prop :=
  ∀ (s : State) (o : Originator) (tag offset : Nat) (bs : List Byte), s.ready →
    (bs.length = 0 ∨ 200 < bs.length → ∃ t, FaultSent s (.loadSegment o tag offset bs)
        { Faults.empty with parameters := true } (some (tag, originatorCode o, 2)) t)
    ∧ (1 ≤ bs.length → bs.length ≤ 200 →
        ¬(s.mdc.mode = .loading ∧ s.sds.load.owner = some o ∧ s.sds.load.state ≠ .closed) →
        ∃ t, Answered s (.loadSegment o tag offset bs) (.reply tag 2 o .notPermitted .none) s t)
    ∧ (1 ≤ bs.length → bs.length ≤ 200 → s.mdc.mode = .loading → s.sds.load.owner = some o → s.sds.load.state ≠ .closed →
        (s.sds.load.declared < offset + bs.length → ∃ t,
          Answered s (.loadSegment o tag offset bs) (.reply tag 2 o .badParameter .none) s t)
        ∧ (offset + bs.length ≤ s.sds.load.declared → Memory.wf s.sds.buffer = true → ∃ m t,
          Answered s (.loadSegment o tag offset bs) (.reply tag 2 o .done .none)
            { s with sds.load := { s.sds.load with state := .opened, crc := none }, sds.buffer := m } t
          ∧ (∀ k, k < bs.length → Memory.read m (offset + k) = bs.getD k 0)
          ∧ ∀ a, a < offset ∨ offset + bs.length ≤ a → Memory.read m a = Memory.read s.sds.buffer a))

/-- LOAD_END stays in progress until its checks have ended; they answer ACCEPTED with the CRC kept, or REJECTED with the first
check that fails and its record (R15, R181). The ten checks run in the order of their codes: the CRC, the identity with its
complement, then ranges, references, connections, path continuity, entry signal, exit, approach chain, list lengths; the first
that fails gives code and record (R2, R15). The model's choices: NOT_PERMITTED goes before BAD_PARAMETER (log 20); the record of a CRC
that differs, that check 5 asks the PORT connection of each port's named end, and that check 4 asks only an equipped link of a remote
item on a route without an exit port (log 24); a route with an empty path (log 25). Checks 4, 5 and 10 pass exactly where R15's
table finds nothing, over every route of an image whose numbers are distinct, as check 3 has it; what checks 3 and 6 to 9 test is named by the model's functions. -/
def Obligations.LoadEndRows : Prop :=
  (
    ∀ (s : State) (o : Originator) (tag len : Nat) (crc : Crc32),
      (s.ready →
        (¬(s.mdc.mode = .loading ∧ s.sds.load.owner = some o ∧ s.sds.load.state ≠ .closed) →
          ∃ t, Replied s (.loadEnd o tag len crc) (.reply tag 3 o .notPermitted .none) t)
        ∧ (s.mdc.mode = .loading → s.sds.load.owner = some o → s.sds.load.state ≠ .closed → len ≠ s.sds.load.declared →
          ∃ t, Replied s (.loadEnd o tag len crc) (.reply tag 3 o .badParameter .none) t)
        ∧ (s.mdc.mode = .loading → s.sds.load.owner = some o → s.sds.load.state ≠ .closed → len = s.sds.load.declared →
          exec (.loadEnd o tag len crc) s = .next { s with slu.inProgress := some ⟨o, tag, .loadEnd len crc⟩ }))
      ∧ (s.mdc.power = .running → s.slu.inProgress = some ⟨o, tag, .loadEnd len crc⟩ → Memory.wf s.sds.buffer = true →
          let r := structuralChecks ((List.range len).map fun a => Memory.read s.sds.buffer a) crc
          (r.code = 0 →
            let c := finish s { s with sds.lastCheck := r, sds.load := { s.sds.load with state := .accepted, crc := some crc } }
            exec .loadEndChecksComplete s = .next (State.respond { c with slu.inProgress := none } (.reply tag 3 o .accepted .none)).settleLine)
          ∧ (r.code ≠ 0 →
            let c := finish s { s with sds.lastCheck := r, sds.load := { s.sds.load with state := .opened, crc := none } }
            exec .loadEndChecksComplete s = .next (State.respond { c with slu.inProgress := none } (.reply tag 3 o .rejected (.check r))).settleLine)))
    ∧ (
      ∀ (bs : List Byte) (crc : Crc32),
        let r := structuralChecks bs crc
        let m := readImage bs
        let sound := 1 ≤ u16 bs 0 ∧ u16 bs 0 ≤ 65534 ∧ u16 bs 2 = 65535 - u16 bs 0
        let byRoute (ok alone : RouteDef → Bool) : Option (RecClass × Nat) :=
          ((m.routesInOrder.filter fun d => !if d.path = [] then alone d else ok d).map fun d => (RecClass.route, d.number)).head?
        let found : List (Nat × Option (RecClass × Nat)) :=
          [(3, failRanges bs), (4, failReferences m), (5, failConnections m), (6, byRoute m.continuous m.overlapAlone),
           (7, byRoute m.entryOk fun _ => true), (8, byRoute m.exitOk fun _ => true), (9, byRoute m.chainOk m.chainOk),
           (10, failLengths m)]
        (crc32 bs ≠ crc → r = ⟨1, some (.header, 0)⟩)
        ∧ (crc32 bs = crc → ¬sound → r = ⟨2, some (.header, 0)⟩)
        ∧ (crc32 bs = crc → sound →
          ((∀ x ∈ found, x.2 = none) → r = ⟨0, none⟩)
          ∧ ∀ before after c e, found = before ++ (c, some e) :: after → (∀ x ∈ before, x.2 = none) → r = ⟨c, some e⟩)
        ∧ (∀ d, d ∈ m.routesInOrder → d ∈ m.routes) ∧ (m.routesInOrder.map RouteDef.number).Pairwise (· ≤ ·)
        ∧ ((m.routes.map RouteDef.number).Nodup → List.Perm m.routesInOrder m.routes)
        ∧ (failRanges bs = none → (m.routes.map RouteDef.number).Nodup))
    ∧ (
      ∀ m : Image,
        let sect (k : Nat) : Prop := k < m.sections.length
        let point (k : Nat) : Prop := k < m.points.length
        let equipped (l : Nat) : Prop := (m.links.getD l default).neighbour ≠ 0
        let defined (c : Conn) : Prop := match c with
          | .joint k _ => sect k
          | .leg p _ => point p
          | .port p => p < m.ports.length
          | .buffer => True
        let named (x : ElemRef) : Prop := match x.cls with
          | .sect => sect x.idx
          | .point => point x.idx
          | .signal => x.idx < m.signals.length
        let channels := (m.sections.map fun d => (d.ctrl, d.chan)) ++ (m.points.map fun d => (d.ctrl, d.chan))
          ++ m.signals.map fun d => (d.ctrl, d.chan)
        let carried (l : Nat) : Nat := (m.ports.filter fun p => decide (p.link = l)).length
        let joined (k : Nat) (e : SecEnd) : Prop := match m.conn k e with
          | .joint t f => t ≠ k ∧ m.conn t f = .joint k e
          | .leg p l => (m.points.getD p default).at l = k
          | .port p => (m.ports.getD p default).sec = k ∧ (m.ports.getD p default).e = e
          | .buffer => True
        let once (p : Nat) (l : Leg) : Prop := ∃ k < m.sections.length, ∃ e, m.conn k e = .leg p l
          ∧ ∀ t < m.sections.length, ∀ f, m.conn t f = .leg p l → t = k ∧ f = e
        (failReferences m = none ↔
          (∀ d ∈ m.sections, defined d.endA ∧ defined d.endB)
          ∧ (∀ d ∈ m.points, sect d.tip ∧ sect d.normal ∧ sect d.reverse ∧ sect d.fouling)
          ∧ (∀ d ∈ m.signals, sect d.sec) ∧ (m.signals.map fun d => (d.sec, d.e)).Nodup
          ∧ (∀ d ∈ m.ports, equipped d.link ∧ sect d.sec) ∧ (∀ d ∈ m.links, ∀ x ∈ d.window, named x)
          ∧ channels.Nodup ∧ (∀ c ∈ channels, c.1 ∈ m.controllers)
          ∧ ∀ d ∈ m.routesInOrder, d.entry < m.signals.length
            ∧ d.exit < (if d.kind = .exit then m.ports.length else m.signals.length)
            ∧ (∀ k ∈ d.path ++ d.overlapSecs ++ d.chain, sect k)
            ∧ (∀ p ∈ d.pathPoints, point p.pt ∧ p.fouling < d.path.length) ∧ (∀ q ∈ d.overlapPoints, point q.1)
            ∧ ∀ x ∈ d.remoteItems, equipped x.link ∧ (d.kind = .exit → x.link = (m.ports.getD d.exit default).link))
        ∧ (failConnections m = none ↔
          (∀ k < m.sections.length, joined k .a ∧ joined k .b)
          ∧ (∀ p < m.points.length, once p .tip ∧ once p .normal ∧ once p .reverse)
          ∧ (∀ d ∈ m.points, d.tip ≠ d.normal ∧ d.tip ≠ d.reverse ∧ d.normal ≠ d.reverse)
          ∧ ∀ p < m.ports.length, m.conn (m.ports.getD p default).sec (m.ports.getD p default).e = .port p)
        ∧ (failLengths m = none ↔
          (∀ l < m.links.length, carried l ≤ 2 ∧ (equipped l → 1 ≤ carried l))
          ∧ ∀ d ∈ m.routesInOrder, 1 ≤ d.path.length ∧ d.path.length ≤ 16 ∧ d.pathPoints.length ≤ 12 ∧ d.overlapSecs.length ≤ 4
            ∧ d.overlapPoints.length ≤ 4 ∧ d.remoteItems.length ≤ 4 ∧ d.chain.length ≤ 6
            ∧ (d.kind ≠ .main → d.overlapSecs = [] ∧ d.overlapPoints = []) ∧ (d.kind ≠ .exit → d.remoteItems = [])))

/-- ACTIVATE stays in progress while the stored image is written; the reply is placed, DONE where the image reads back with the
accepted CRC and FAULT where it does not, and the warm start begins (R16, R181, R186, R192; logs 4, 5; the mode while its check
runs and the buffer's bytes: logs 7, 10); what it keeps and what takes its start values: `WarmStarted`. -/
def Obligations.ActivateRows : Prop :=
  ∀ (s : State) (o : Originator) (tag : Nat) (crc : Crc32),
    (s.ready →
      (¬(s.mdc.mode = .loading ∧ s.sds.load.owner = some o ∧ s.sds.load.state = .accepted) →
        ∃ t, Replied s (.activate o tag) (.reply tag 4 o .notPermitted .none) t)
      ∧ (s.mdc.mode = .loading → s.sds.load.owner = some o → s.sds.load.state = .accepted →
        exec (.activate o tag) s = .next { s with slu.inProgress := some ⟨o, tag, .activate⟩ }))
    ∧ (s.mdc.power = .running → s.slu.inProgress = some ⟨o, tag, .activate⟩ → Memory.wf s.sds.buffer = true →
        let want := s.sds.load.crc.getD 0
        ∃ t : State, exec (.activateWriteComplete crc) s = .next t
          ∧ t.outgoing = s.outgoing ++ [.reply tag 4 o (if want = crc then .done else .fault) .none]
          ∧ (let image := (List.range s.sds.load.declared).map fun a => Memory.read s.sds.buffer a
            let written := { s with sds.stored := ⟨image, want, decide (crc ≠ want)⟩, slu.inProgress := none }
            WarmStarted written (Mdc.checking .activate) t))

/-! ### Routes -/

/-- SET_ROUTE: the checks in their order, each with its reply; CONFLICT with the store flag stores the request while the store
has room; a request that passes is accepted, and the reply names the slot and its state (R4, R59 to R65, R168, R169). Checks 5, 6
and 8: the element they find, what counts as absent by a donor's overlap, the free slot, the room for requests (R60, R62, R63). What
the checks come to in their order, for a stored request on a retry pass too, whose own entry is no duplicate (R59, R80). Numbers that
no field carries are BAD_PARAMETER by log 21. -/
def Obligations.SetRouteRow : Prop :=
  (
    ∀ (s : State) (o : Originator) (tag route store life : Nat), s.ready →
      let i := Instr.setRoute o tag route store life
      let no (r : Res) (x : Content) : Prop := ∃ t, Answered s i (.reply tag 5 o r x) s t
      (¬(1 ≤ route ∧ route ≤ 512) ∨ 1 < store ∨ 65535 < life → no .badParameter .none)
      ∧ (1 ≤ route → route ≤ 512 → store ≤ 1 → life ≤ 65535 →
        (s.operational = false → no .notOperational .none)
        ∧ (s.operational = true → s.routeDef? route = none → no .unknown .none)
        ∧ ∀ d, s.operational = true → s.routeDef? route = some d →
          let held := s.holds o (s.sigDef d.entry).area = true
          let twice := (∃ k, s.live k = true ∧ (s.slot k).route = some route) ∨ ∃ e ∈ s.rsu.store, e.route = route
          (¬held → no .notInControl .none)
          ∧ (held → twice → no .duplicate .none)
          ∧ (held → ¬twice → ∀ e, s.blockedBy d = some e → no .blocked (.elem e))
          ∧ (held → ¬twice → s.blockedBy d = none → ∀ e, s.faultyOf d = some e → no .fault (.elem e))
          ∧ (held → ¬twice → s.blockedBy d = none → s.faultyOf d = none → d.kind = .exit →
              (s.port d.exit).view ≠ .out ∨ (s.link (s.portDef d.exit).link).state ≠ .up → no .direction .none)
          ∧ (held → ¬twice → s.blockedBy d = none → s.faultyOf d = none →
              (d.kind = .exit → (s.port d.exit).view = .out ∧ (s.link (s.portDef d.exit).link).state = .up) →
              (∀ e, s.check8 d = .refused .fault e → no .fault (elemContent e))
              ∧ (∀ e, s.check8 d = .refused .conflict e → store = 0 ∨ 16 ≤ s.rsu.store.length → no .conflict (elemContent e))
              ∧ (∀ e, s.check8 d = .refused .conflict e → store = 1 → s.rsu.store.length < 16 →
                  let secs := if life = 0 then s.defaultLifetime else if life < 10 then 10 else if 600 < life then 600 else life
                  ∃ t, Answered s i (.reply tag 5 o .stored .none)
                    { s with rsu.store := s.rsu.store ++ [⟨route, o, secs * 1000⟩] } t)
              ∧ (∀ slot cs, s.check8 d = .accepted slot cs →
                  let b := s.acceptRoute o d slot cs
                  ((b.slot slot).state = .setting ∨ (b.slot slot).state = .clearing)
                  ∧ ∃ t, Answered s i (.reply tag 5 o .accepted (.slotState slot (b.slot slot).state)) b t))))
    ∧ (
      ∀ (s : State) (d : RouteDef),
        let n := s.needOf d
        let giver (m : Nat) : Prop := ((s.slot m).state = .occupied ∨ (s.slot m).state = .berthed)
          ∧ (s.slot m).kind ≠ some .exit ∧ (s.slotRoute m).exit = d.entry
        let absent (o : Option Owner) (k : Option LockKind) : Prop := k = some .overlap ∧ o ≠ none ∧ o = (s.donor d).map Owner.slot
        let search := s.searchAll n d.protPoints []
        let free := ∃ m, m < s.rsu.slots.length ∧ s.live m = false
        let room (cs : List Claim) : Prop := ∀ l, l < s.bdu.links.length →
          let posts := (d.remoteItems.filter fun x => decide (x.link = l)).length
            + ((flankPorts cs).filter fun p => decide ((s.portDef p).link = l)).length
          posts = 0 ∨ (s.link l).outgoing.length + posts ≤ 16
        FirstFailing d (fun k => (s.secRestr k).noRoute = true)
          (fun q => (s.ptRestr q.1).noRoute = true ∨ ((s.pt q.1).pos ≠ q.2.rest ∧ (s.ptRestr q.1).noMove = true))
          ((s.sigRestr d.entry).noRoute = true ∨ (s.sigRestr d.entry).noClear = true) (s.blockedBy d)
        ∧ FirstFailing d (fun k => (s.sec k).occ = .disturbed) (fun q => (s.pt q.1).pos = .lost)
          ((s.sig d.entry).lamp = true ∨ s.ctrlLost d.entry) (s.faultyOf d)
        ∧ (s.donor d = none ↔ ∀ m, ¬giver m) ∧ (∀ j, s.donor d = some j ↔ giver j ∧ ∀ m, m < j → ¬giver m)
        ∧ n.secs = d.sections ∧ n.points = d.points ∧ n.entry = some d.entry ∧ n.donor = s.donor d ∧ n.limit = 32 ∧ n.remote = false
        ∧ (s.donor d = none → n.absent = [])
        ∧ (∀ j, s.donor d = some j → n.absent = ((s.slot j).claims.filter Claim.ofOverlap).map Claim.what)
        ∧ FirstFailing d
          (fun k => (s.sec k).occ ≠ .clear ∨ ((s.sec k).owner ≠ none ∧ ¬absent (s.sec k).owner (s.sec k).kind)
            ∨ (s.sec k).claims - countOn n.absent ⟨.sect, k⟩ ≠ 0)
          (fun q => (s.pt q.1).pos = .moving ∨ ((s.pt q.1).owner ≠ none ∧ ¬absent (s.pt q.1).owner (s.pt q.1).kind)
            ∨ ((s.pt q.1).claims - countOn n.absent ⟨.point, q.1⟩ ≠ 0 ∧ (s.pt q.1).claimPos = some q.2.other)
            ∨ ((s.pt q.1).pos = q.2.other.rest ∧ (s.sec (s.ptDef q.1).fouling).occ ≠ .clear))
          ((s.sig d.entry).owner ≠ none ∨ (s.sig d.entry).holds ≠ 0) (s.takenOf n d)
        ∧ (¬free → s.check8 d = .refused .conflict none)
        ∧ (free → ∀ e, s.takenOf n d = some e → s.check8 d = .refused .conflict (some e))
        ∧ (free → s.takenOf n d = none →
          (search = .limit → s.check8 d = .refused .fault none)
          ∧ (∀ p, search = .conflict p → s.check8 d = .refused .conflict (some ⟨.point, p⟩))
          ∧ (∀ cs, search = .success cs → room cs →
              ∃ m, s.check8 d = .accepted m cs ∧ s.live m = false ∧ ∀ j, j < m → s.live j = true)
          ∧ (∀ cs, search = .success cs → ¬room cs → s.check8 d = .refused .conflict none)))
    ∧ (
      ∀ (s : State) (o : Originator) (route : Nat) (retry : Bool),
        let verdict := s.routeChecks o route retry
        let live := ∃ k, s.live k = true ∧ (s.slot k).route = some route
        let stored := ∃ e ∈ s.rsu.store, e.route = route
        let fresh := ¬live ∧ (stored → retry = true)
        (s.operational = false → verdict = .refused .notOperational none)
        ∧ (s.operational = true → s.routeDef? route = none → verdict = .refused .unknown none)
        ∧ ∀ d, s.operational = true → s.routeDef? route = some d →
          let held := s.holds o (s.sigDef d.entry).area = true
          let usable := d.kind = .exit → (s.port d.exit).view = .out ∧ (s.link (s.portDef d.exit).link).state = .up
          (¬held → verdict = .refused .notInControl none)
          ∧ (held → ¬fresh → verdict = .refused .duplicate none)
          ∧ (held → fresh → ∀ e, s.blockedBy d = some e → verdict = .refused .blocked (some e))
          ∧ (held → fresh → s.blockedBy d = none → ∀ e, s.faultyOf d = some e → verdict = .refused .fault (some e))
          ∧ (held → fresh → s.blockedBy d = none → s.faultyOf d = none → ¬usable → verdict = .refused .direction none)
          ∧ (held → fresh → s.blockedBy d = none → s.faultyOf d = none → usable → verdict = s.check8 d))

/-- The acceptance: the lowest FREE slot takes the instance, its elements are locked, points in the other position begin to
move, the requests go to the links, the setting timer starts; it clears at once exactly where the test of R69 holds, else it waits in
SETTING (R56, R65 to R67, R69). Of a donor's overlap, what the route uses passes to the new instance and the rest is released, its
overlap claims leave with the requests they alone named, each element they leave changed is enqueued, and every other instance and
element keeps what it has (R41, R63, R66, R99; the order of the requests: log 32). A claimed point lies in its claim position or
begins its movement there (R37, R96; its count and claim position agree before by the invariant of `PointsAgreeKept`); a newly locked section loses its marks (R28); the requests stand in the links' lists with the
tags the instance holds; occupancies, reports and all else stay. -/
def Obligations.AcceptanceEffect : Prop :=
  ∀ (s : State) (o : Originator) (route i : Nat) (retry : Bool) (cs : List Claim) (d : RouteDef),
    s.routeChecks o route retry = .accepted i cs → s.routeDef? route = some d →
    let b := s.acceptRoute o d i cs
    let k := b.slot i
    (s.live i = false ∧ (∀ j, j < i → s.live j = true) ∧ k.route = some d.number ∧ k.kind = some d.kind ∧ k.originator = some o
      ∧ k.reason = .none ∧ k.head = none ∧ k.release = none ∧ k.marks = Marks.empty ∧ k.holds = Holds.empty
      ∧ k.timerMs = some (s.settingTimeout * 1000) ∧ k.claims.map (fun c => (c.what, c.prot)) = cs.map (fun c => (c.what, c.prot))
      ∧ (∀ c ∈ k.claims, c.lost = false) ∧ k.pendingPts = b.pendingOf i
      ∧ k.remote.map (fun r => (r.what, r.link)) = s.postsOf d cs ∧ (∀ r ∈ k.remote, r.status = .pending)
      ∧ Ref.slot i ∈ b.slu.noticeQ)
    ∧ (∀ x ∈ d.path, x < s.est.sections.length → (b.sec x).owner = some (.slot i)
        ∧ (b.sec x).kind = some (if d.overlapSecs.contains x then .overlap else .path))
    ∧ (∀ x ∈ d.overlapSecs, x < s.est.sections.length → (b.sec x).owner = some (.slot i) ∧ (b.sec x).kind = some .overlap)
    ∧ ((d.points.map Prod.fst).Nodup → ∀ q ∈ d.points, q.1 < s.est.points.length →
        (b.pt q.1).owner = some (.slot i) ∧ (b.pt q.1).lockedPos = some q.2
        ∧ (b.pt q.1).kind = some (if (d.overlapPoints.map Prod.fst).contains q.1 then .overlap else .path)
        ∧ ((s.pt q.1).pos = q.2.rest → (b.pt q.1).pos = q.2.rest)
        ∧ ((s.pt q.1).pos = q.2.other.rest → (b.pt q.1).pos = .moving ∧ (b.pt q.1).commanded = some q.2
            ∧ (b.pt q.1).throwMs = some (s.throwLimit * 1000)))
    ∧ (d.entry < s.est.signals.length → (b.sig d.entry).owner = some i)
    ∧ ((k.state = .setting ∧ k.figures = none ∧ (b.sig d.entry).commanded = (s.sig d.entry).commanded)
      ∨ (k.state = .clearing ∧ k.figures = some (s.figuresOf d) ∧ k.pendingPts = []
        ∧ (d.entry < s.est.signals.length →
            (b.sig d.entry).commanded = if d.kind = .shunt then .restricted else .proceed)))
    ∧ (let before := { b with est.signals := b.est.signals.modify d.entry fun r => { r with commanded := (s.sig d.entry).commanded } }
      let clears := b.pendingOf i = [] ∧ (∀ c ∈ k.claims, before.stands i c.what)
        ∧ (∀ r ∈ k.remote, r.status = .granted ∧ (b.link r.link).state = .up) ∧ (∀ x ∈ d.sections, (b.sec x).occ = .clear)
        ∧ (b.sig d.entry).lamp = false ∧ (b.sigRestr d.entry).noClear = false ∧ ¬b.ctrlLost d.entry
      k.state = .clearing ↔ clears)
    ∧ (let mine := d.points.map Prod.fst
      let gone := match s.donor d with
        | some j => ((s.slot j).claims.filter Claim.ofOverlap).map Claim.what
        | none => []
      let left := match s.donor d with
        | some j => (s.slot j).claims.filter fun c => !c.ofOverlap
        | none => []
      let claimed (p : Nat) (x : Pos) : Prop := ∃ c ∈ cs, c.what = .point p x
      let emptied (p : Nat) : Prop := countOn gone ⟨.point, p⟩ ≠ 0 ∧ (s.pt p).claims ≤ countOn gone ⟨.point, p⟩
      let unmoved (p : Nat) : Prop := (b.pt p).pos = (s.pt p).pos ∧ (b.pt p).commanded = (s.pt p).commanded
        ∧ (b.pt p).throwMs = (s.pt p).throwMs
      let takenBack (l : Nat) (o : OutReq) : Bool := decide (some o.slot = s.donor d)
        && (s.slot o.slot).remote.any fun r => idleFlank left r && decide (r.link = l ∧ r.tag = o.tag)
      let asks (l : Nat) : List Ask := (s.postsOf d cs).filterMap fun x => match x.1 with
        | .ask a => if x.2 = l then some a else none
        | .acceptance _ => none
      (∀ p x, p < s.est.points.length → claimed p x →
          (((s.pt p).claims = 0 ↔ (s.pt p).claimPos = none) → (b.pt p).claimPos = some x)
          ∧ (p ∉ mine → ((s.pt p).pos = x.other.rest → (b.pt p).pos = .moving ∧ (b.pt p).commanded = some x
              ∧ (b.pt p).throwMs = some (s.throwLimit * 1000))
            ∧ ((s.pt p).pos ≠ x.other.rest → unmoved p)))
      ∧ (∀ p, (∀ x, ¬claimed p x) → (emptied p → (b.pt p).claimPos = none)
          ∧ (¬emptied p → (b.pt p).claimPos = (s.pt p).claimPos) ∧ (p ∉ mine → unmoved p))
      ∧ (mine.Nodup → ∀ q ∈ d.points, (s.pt q.1).pos ≠ q.2.other.rest → unmoved q.1)
      ∧ (∀ c ∈ k.claims, c.been = true ↔ b.stands i c.what)
      ∧ (∀ x ∈ d.sections, x < s.est.sections.length →
          (b.sec x).unexpected = false ∧ (b.sec x).vanished = false ∧ (b.sec x).sequence = false)
      ∧ (∀ x, x ∉ d.sections → (b.sec x).unexpected = (s.sec x).unexpected ∧ (b.sec x).vanished = (s.sec x).vanished
          ∧ (b.sec x).sequence = (s.sec x).sequence)
      ∧ (∀ x, (b.sec x).occ = (s.sec x).occ ∧ (b.sec x).sweep = (s.sec x).sweep ∧ (b.sec x).last = (s.sec x).last)
      ∧ (∀ x, (b.pt x).last = (s.pt x).last ∧ (b.pt x).detectionLost = (s.pt x).detectionLost)
      ∧ (∀ x, (b.sig x).reported = (s.sig x).reported ∧ (b.sig x).lamp = (s.sig x).lamp)
      ∧ b.bdu.links.length = s.bdu.links.length
      ∧ (∀ l, b.link l = { s.link l with outgoing := (b.link l).outgoing, nextTag := (b.link l).nextTag })
      ∧ (∀ l, l < s.bdu.links.length →
          let kept := (s.link l).outgoing.filter fun o => !takenBack l o
          kept <+: (b.link l).outgoing
          ∧ ((b.link l).outgoing.drop kept.length).map (fun o => (o.ask, o.slot)) = (asks l).map fun a => (a, i))
      ∧ (∀ r ∈ k.remote, ∀ a, r.what = .ask a → r.link < s.bdu.links.length → OutReq.mk r.tag a i ∈ (b.link r.link).outgoing)
      ∧ b.bdu.ports.length = s.bdu.ports.length
      ∧ (∀ p, d.kind ≠ .exit ∨ p ≠ d.exit → b.port p = s.port p)
      ∧ (d.kind = .exit → d.exit < s.bdu.ports.length → ∃ r ∈ k.remote, r.what = .acceptance d.exit
          ∧ b.port d.exit = { s.port d.exit with outAcc := some (r.tag, i) })
      ∧ s.slu.noticeQ <+: b.slu.noticeQ
      ∧ b = { s with
          est.sections := b.est.sections, est.points := b.est.points, est.signals := b.est.signals
          rsu.slots := b.rsu.slots, bdu := b.bdu, slu.noticeQ := b.slu.noticeQ, releaseDue := b.releaseDue })
    ∧ (let gone := match s.donor d with
        | some j => ((s.slot j).claims.filter Claim.ofOverlap).map Claim.what
        | none => []
      let given (o : Option Owner) (k : Option LockKind) : Prop := k = some .overlap ∧ o ≠ none ∧ o = (s.donor d).map Owner.slot
      let prior := match s.donor d with
        | some j => s.slotRoute j
        | none => default
      (∀ m, m ≠ i → some m ≠ s.donor d → b.slot m = s.slot m)
      ∧ (∀ j, s.donor d = some j →
        let left := (s.slot j).claims.filter fun c => !c.ofOverlap
        b.slot j = { s.slot j with claims := left, remote := (s.slot j).remote.filter fun r => !idleFlank left r }
        ∧ Ref.slot j ∈ b.slu.noticeQ
        ∧ ∀ r ∈ (s.slot j).remote, idleFlank left r = true → ∀ o ∈ (b.link r.link).outgoing, ¬(o.tag = r.tag ∧ o.slot = j))
      ∧ (∀ x, x ∉ d.sections →
        (x ∈ prior.overlapSecs → given (s.sec x).owner (s.sec x).kind →
            (b.sec x).owner = none ∧ (b.sec x).kind = none ∧ b.releaseDue = true)
        ∧ (¬(x ∈ prior.overlapSecs ∧ given (s.sec x).owner (s.sec x).kind) →
            (b.sec x).owner = (s.sec x).owner ∧ (b.sec x).kind = (s.sec x).kind))
      ∧ (∀ x, x ∉ d.points.map Prod.fst →
        (x ∈ prior.overlapPoints.map Prod.fst → given (s.pt x).owner (s.pt x).kind →
            (b.pt x).owner = none ∧ (b.pt x).kind = none ∧ (b.pt x).lockedPos = none ∧ b.releaseDue = true)
        ∧ (¬(x ∈ prior.overlapPoints.map Prod.fst ∧ given (s.pt x).owner (s.pt x).kind) →
            (b.pt x).owner = (s.pt x).owner ∧ (b.pt x).kind = (s.pt x).kind ∧ (b.pt x).lockedPos = (s.pt x).lockedPos))
      ∧ (∀ x, x ≠ d.entry → (b.sig x).owner = (s.sig x).owner ∧ (b.sig x).commanded = (s.sig x).commanded)
      ∧ (∀ x, x < s.est.sections.length →
        (b.sec x).claims = (s.sec x).claims - countOn gone ⟨.sect, x⟩ + countOn (cs.map Claim.what) ⟨.sect, x⟩)
      ∧ (∀ x, x < s.est.points.length →
        (b.pt x).claims = (s.pt x).claims - countOn gone ⟨.point, x⟩ + countOn (cs.map Claim.what) ⟨.point, x⟩)
      ∧ (∀ x, x < s.est.signals.length →
        (b.sig x).holds = (s.sig x).holds - countOn gone ⟨.signal, x⟩ + countOn (cs.map Claim.what) ⟨.signal, x⟩)
      ∧ ((∃ c ∈ gone, c.elem? ≠ none ∧ b.claimCount c = 0) → b.releaseDue = true)
      ∧ (∀ c ∈ gone, ∀ x,
        (c.elem? = some ⟨.sect, x⟩ → (b.sec x).claims ≠ (s.sec x).claims → Ref.sect x ∈ b.slu.noticeQ)
        ∧ (c.elem? = some ⟨.point, x⟩ → (b.pt x).claims ≠ (s.pt x).claims ∨ (b.pt x).claimPos ≠ (s.pt x).claimPos →
            Ref.point x ∈ b.slu.noticeQ)
        ∧ (c.elem? = some ⟨.signal, x⟩ → (b.sig x).holds ≠ (s.sig x).holds → Ref.signal x ∈ b.slu.noticeQ))
      ∧ (∀ p, p ∈ flankPorts cs ↔ ∃ c ∈ cs, c.what = .port p) ∧ (flankPorts cs).Nodup)

/-- RECLEAR: the refusals in their order; a HELD instance without causes goes CLEARING with fresh figures, its aspect and a
full setting timer (R75). -/
def Obligations.ReclearRow : Prop :=
  ∀ (s : State) (o : Originator) (tag route : Nat), s.ready →
    let no (r : Res) : Prop := ∃ t, Answered s (.reclear o tag route) (.reply tag 6 o r .none) s t
    (¬(1 ≤ route ∧ route ≤ 512) → no .badParameter)
    ∧ (1 ≤ route → route ≤ 512 →
      (s.operational = false → no .notOperational)
      ∧ (s.operational = true → s.routeDef? route = none → no .unknown)
      ∧ ∀ d, s.operational = true → s.routeDef? route = some d →
        (s.holds o (s.sigDef d.entry).area = false → no .notInControl)
        ∧ (s.holds o (s.sigDef d.entry).area = true →
          (s.liveSlot route = none → no .unknown)
          ∧ ∀ i, s.liveSlot route = some i →
            ((s.slot i).state ≠ .held → no .notPermitted)
            ∧ ((s.slot i).state = .held → (s.slot i).holds ≠ Holds.empty → no .fault)
            ∧ ((s.slot i).state = .held → (s.slot i).holds = Holds.empty →
              let ptsLeft := s.pendingOf i
              ∃ t, Answered s (.reclear o tag route) (.reply tag 6 o .done .none)
                { s with
                  rsu.slots := s.rsu.slots.modify i fun k =>
                    { k with state := .clearing, figures := some (s.figuresOf d), timerMs := some (s.settingTimeout * 1000), pendingPts := ptsLeft }
                  est.signals := s.est.signals.modify d.entry fun r =>
                    { r with commanded := if (s.slot i).kind = some .shunt then .restricted else .proceed } } t)))

/-- CANCEL_ROUTE: the refusals in their order, and what becomes of the instance or the stored request (R77, R111; the
reply's content for a stored request: log 47). -/
def Obligations.CancelRouteRow : Prop :=
  ∀ (s : State) (o : Originator) (tag route : Nat), s.ready →
    let i := Instr.cancelRoute o tag route
    let no (r : Res) : Prop := ∃ t, Answered s i (.reply tag 7 o r .none) s t
    (¬(1 ≤ route ∧ route ≤ 512) → no .badParameter)
    ∧ (1 ≤ route → route ≤ 512 →
      (s.operational = false → no .notOperational)
      ∧ (s.operational = true → s.routeDef? route = none → no .unknown)
      ∧ ∀ d, s.operational = true → s.routeDef? route = some d →
        (s.holds o (s.sigDef d.entry).area = false → no .notInControl)
        ∧ (s.holds o (s.sigDef d.entry).area = true →
          (∀ k, s.liveSlot route = some k →
            ((s.slot k).state = .setting →
              ∃ t, Answered s i (.reply tag 7 o .done (.slotEnded k .cancelled)) (s.endSlot k .cancelled) t)
            ∧ ((s.slot k).state = .clearing ∨ (s.slot k).state = .cleared ∨ (s.slot k).state = .held →
              ∃ t, Answered s i (.reply tag 7 o .done
                (if s.approachOccupied k then .slotState k .approachLocked else .slotEnded k .cancelled)) (s.cancelCleared k) t)
            ∧ ((s.slot k).state = .occupied ∨ (s.slot k).state = .berthed → no .inUse)
            ∧ ((s.slot k).state = .approachLocked ∨ (s.slot k).state = .releaseTiming → no .busy))
          ∧ (s.liveSlot route = none → (∃ e ∈ s.rsu.store, e.route = route) →
              ∃ t, Answered s i (.reply tag 7 o .done .none)
                (State.note { s with rsu.store := s.rsu.store.filter (fun e => !decide (e.route = route)), rsu.lastRemoval := some (route, .cancelled) } .store) t)
          ∧ (s.liveSlot route = none → ¬(∃ e ∈ s.rsu.store, e.route = route) → no .unknown)))

/-- The cancellation of a cleared route: with the approach occupied the instance goes APPROACH_LOCKED for its release time and
keeps all it holds; without, it ends CANCELLED (`EndFreesAll` says what that leaves); either way the entry signal goes to STOP
(R110, R111; log 17). The approach is occupied where SHORT stands, where one of the first k chain sections is OCCUPIED or
DISTURBED, and where a port on one of them has an incoming acceptance granted (R110). -/
def Obligations.CancelClearedEffect : Prop :=
  ∀ (s : State) (i : Nat),
    let d := s.slotRoute i
    let ms := match (s.slot i).figures with
      | some f => f.t * 1000
      | none => 0
    (∀ f, (s.slot i).figures = some f →
      let near := d.chain.take f.k
      (s.approachOccupied i = true ↔ f.short = true
        ∨ (∃ k ∈ near, (s.sec k).occ = .occupied ∨ (s.sec k).occ = .disturbed)
        ∨ ∃ p, p < s.bdu.ports.length ∧ (s.portDef p).sec ∈ near
          ∧ ((s.port p).inc = .waiting ∨ (s.port p).inc = .receiving ∨ (s.port p).inc = .completed)))
    ∧ (s.live i = true →
      let b := s.cancelCleared i
      (s.approachOccupied i = true →
        b = { s with
          rsu.slots := s.rsu.slots.modify i fun k => { k with state := .approachLocked, holds := Holds.empty, timerMs := some ms }
          est.signals := if (s.sig d.entry).owner = some i then
            s.est.signals.modify d.entry fun r => { r with commanded := .stop } else s.est.signals })
      ∧ (s.approachOccupied i = false → b = s.endSlot i .cancelled ∧ (b.slot i).state = .free ∧ (b.slot i).reason = .cancelled
          ∧ (∀ k, (b.sec k).owner ≠ some (.slot i)) ∧ (∀ k, (b.pt k).owner ≠ some (.slot i)) ∧ ∀ k, (b.sig k).owner ≠ some i)
      ∧ ((s.sig d.entry).owner = some i → (b.sig d.entry).commanded = .stop)
      ∧ (∀ g, g ≠ d.entry → (b.sig g).commanded = (s.sig g).commanded))

/-- The end of an instance frees all it holds and leaves everything else as it was: its locks, its claims with their counts, its
requests; its entry signal goes STOP; a view kept OUT in a conflict becomes NEUTRAL with the last EXIT instance (R35 to R37, R56,
R57, R152, R154, R163; log 17). The freed elements are enqueued and a release event stands (R41, R80). -/
def Obligations.EndFreesAll : Prop :=
  ∀ (s : State) (i : Nat) (r : EndReason), i < s.rsu.slots.length →
    let b := s.endSlot i r
    let gone := (s.slot i).claims.map Claim.what
    let mine := some (Owner.slot i)
    let entry := (s.slotRoute i).entry
    let exit := (s.slotRoute i).exit
    (b.slot i = { Slot.start with route := (s.slot i).route, kind := (s.slot i).kind, originator := (s.slot i).originator, reason := r, marks := (s.slot i).marks })
    ∧ (∀ j, j ≠ i → b.slot j = s.slot j)
    ∧ (∀ k, b.sec k = { s.sec k with
        owner := if (s.sec k).owner = mine then none else (s.sec k).owner
        kind := if (s.sec k).owner = mine then none else (s.sec k).kind
        claims := (s.sec k).claims - countOn gone ⟨.sect, k⟩ })
    ∧ (∀ k, b.pt k = { s.pt k with
        owner := if (s.pt k).owner = mine then none else (s.pt k).owner
        kind := if (s.pt k).owner = mine then none else (s.pt k).kind
        lockedPos := if (s.pt k).owner = mine then none else (s.pt k).lockedPos
        claimPos := if countOn gone ⟨.point, k⟩ ≠ 0 ∧ (s.pt k).claims ≤ countOn gone ⟨.point, k⟩ then none else (s.pt k).claimPos
        claims := (s.pt k).claims - countOn gone ⟨.point, k⟩ })
    ∧ (∀ k, b.sig k = { s.sig k with
        owner := if (s.sig k).owner = some i then none else (s.sig k).owner
        holds := (s.sig k).holds - countOn gone ⟨.signal, k⟩
        commanded := if k = entry ∧ (s.sig k).owner = some i then .stop else (s.sig k).commanded })
    ∧ (∀ k, ((s.sec k).owner = mine → Ref.sect k ∈ b.slu.noticeQ ∧ b.releaseDue = true)
        ∧ ((s.pt k).owner = mine → Ref.point k ∈ b.slu.noticeQ ∧ b.releaseDue = true)
        ∧ ((s.sig k).owner = some i → Ref.signal k ∈ b.slu.noticeQ ∧ b.releaseDue = true))
    ∧ (b.releaseDue = true ↔ s.releaseDue = true ∨ (∃ k < s.est.sections.length, (s.sec k).owner = mine)
        ∨ (∃ k < s.est.points.length, (s.pt k).owner = mine) ∨ (∃ k < s.est.signals.length, (s.sig k).owner = some i)
        ∨ ∃ c ∈ gone, s.claimCount c ≠ 0 ∧ b.claimCount c = 0)
    ∧ (∀ l, b.link l = { s.link l with outgoing := (s.link l).outgoing.filter fun o =>
        !(decide (o.slot = i) && (s.slot i).remote.any fun q => decide (q.link = l ∧ q.tag = o.tag) && (match q.what with
          | .ask _ => true
          | .acceptance _ => false)) })
    ∧ (∀ p, b.port p = { s.port p with
        outAcc := if (s.slot i).remote.any (fun q => decide (q.what = .acceptance p ∧ (s.port p).outAcc = some (q.tag, i))) then none
          else (s.port p).outAcc
        view := (b.port p).view })
    ∧ (∀ p, (s.slot i).kind = some .exit → p = exit → (s.port p).conflict = true → (s.port p).view = .out →
        (∀ j, j ≠ i → s.live j = true → (s.slot j).kind = some .exit → (s.slotRoute j).exit ≠ p) → (b.port p).view = .neutral)
    ∧ (∀ p, ¬((s.slot i).kind = some .exit ∧ p = exit ∧ (s.port p).conflict = true ∧ (s.port p).view = .out
          ∧ ∀ j, j ≠ i → s.live j = true → (s.slot j).kind = some .exit → (s.slotRoute j).exit ≠ p) →
        (b.port p).view = (s.port p).view)
    ∧ b.est.secRestr = s.est.secRestr ∧ b.est.ptRestr = s.est.ptRestr ∧ b.est.sigRestr = s.est.sigRestr
    ∧ b.rsu.store = s.rsu.store ∧ b.rsu.lastRemoval = s.rsu.lastRemoval ∧ b.mdc = s.mdc ∧ b.sds = s.sds ∧ b.flu = s.flu
    ∧ s.slu.noticeQ <+: b.slu.noticeQ ∧ b.slu = { s.slu with noticeQ := b.slu.noticeQ } ∧ b.pending = s.pending
    ∧ b.freeCount = s.freeCount

/-! ### Timers -/

/-- SETTING_TIMER_EXPIRY: SETTING ends SETTING_FAILED with the first cause that stands, CLEARING is cancelled (R71; a GRANTED request
on a lost link is NEIGHBOUR, R164, log 18); a stopped timer, or the timer of another state, does nothing (logs 2, 3). What a change does
to an instance in SETTING (R68, R69, R72), in CLEARING (R70, R73) and, where no train enters, in CLEARED and HELD (R73, R74, R100, R101;
log 16); `react` is what `finish` has each instance do with a change. An image that has passed gives every route a path section 0 (R11).
The causes are recorded with the entry signal at STOP: an owned entry signal is held by no claim entry, by the invariants of
`SignalsStopKept` and `CountsKept`, so that the aspect is none of them. -/
def Obligations.SettingExpiryRow : Prop :=
  (
    ∀ (s : State) (i : Nat), s.mdc.power = .running →
      let d := s.slotRoute i
      let pend := s.pendingOf i
      let points := ∃ p ∈ pend, p ∈ d.points.map Prod.fst
      let flank := pend ≠ [] ∨ ∃ c ∈ (s.slot i).claims, ¬s.flankHolds i c.what
      let neighbour := ∃ r ∈ (s.slot i).remote, r.status ≠ .granted ∨ (s.link r.link).state ≠ .up
      let fault := ∃ k ∈ d.sections, (s.sec k).occ = .disturbed
      let fails (c : FailCause) : Prop :=
        Acted s (.settingTimerExpiry i) ((s.refreshPending i).endSlot i (.settingFailed c))
      ((s.slot i).timerMs.isSome → (s.slot i).state = .setting →
        (points → fails .points) ∧ (¬points → flank → fails .flank) ∧ (¬points → ¬flank → neighbour → fails .neighbour)
        ∧ (¬points → ¬flank → ¬neighbour → fault → fails .fault)
        ∧ (¬points → ¬flank → ¬neighbour → ¬fault → fails .signal))
      ∧ ((s.slot i).timerMs.isSome → (s.slot i).state = .clearing → Acted s (.settingTimerExpiry i) (s.cancelCleared i))
      ∧ ((s.slot i).timerMs.isSome → (s.slot i).state ≠ .setting → (s.slot i).state ≠ .clearing →
          Acted s (.settingTimerExpiry i) s)
      ∧ ((s.slot i).timerMs = none → Acted s (.settingTimerExpiry i) s))
    ∧ (
      ∀ (old s : State) (i : Nat),
        let d := s.slotRoute i
        let pend := s.pendingOf i
        let entry := s.sig d.entry
        let free := s.CausesAre i False Holds.empty
        let noCause := s.CausesAre i True Holds.empty
        let stopped (u : State) : List SignalRec := u.est.signals.modify d.entry fun r => { r with commanded := .stop }
        let clears := pend = [] ∧ (∀ c ∈ (s.slot i).claims, s.stands i c.what)
          ∧ (∀ r ∈ (s.slot i).remote, r.status = .granted ∧ (s.link r.link).state = .up)
          ∧ (∀ k ∈ d.sections, (s.sec k).occ = .clear)
          ∧ entry.lamp = false ∧ (s.sigRestr d.entry).noClear = false ∧ ¬s.ctrlLost d.entry ∧ s.mdc.mode = .operational
        let proven := (entry.commanded = .stop ∧ entry.reported = .stop) ∨ (entry.commanded = .proceed ∧ entry.reported = .proceed)
          ∨ (entry.commanded = .restricted ∧ entry.reported = .restricted)
        let refused := ∃ r ∈ (s.slot i).remote, r.status = .refused
        let hit := ∃ k ∈ d.sections, hitIn old s i d.sections k
        (pend.Nodup ∧ ∀ p, p ∈ pend ↔ (∃ q ∈ d.points, q.1 = p ∧ (s.pt p).pos ≠ q.2.rest)
          ∨ ∃ c ∈ (s.slot i).claims, (c.what = .point p .normal ∧ (s.pt p).pos ≠ .normal)
              ∨ (c.what = .point p .reverse ∧ (s.pt p).pos ≠ .reverse))
        ∧ ((s.slot i).state = .setting →
          (hit → ∃ u, Marked old s i d.sections u ∧ react old s i = u.endSlot i (.settingFailed .fault))
          ∧ (¬hit → refused → react old s i = s.endSlot i (.settingFailed .neighbour))
          ∧ (¬hit → ¬refused → clears → react old s i = { s with
              rsu.slots := s.rsu.slots.modify i fun k =>
                { k with state := .clearing, figures := some (s.figuresOf d), pendingPts := [] }
              est.signals := s.est.signals.modify d.entry fun r =>
                { r with commanded := if (s.slot i).kind = some .shunt then .restricted else .proceed } })
          ∧ (¬hit → ¬refused → ¬clears →
              react old s i = { s with rsu.slots := s.rsu.slots.modify i fun k => { k with pendingPts := pend } }))
        ∧ ((s.slot i).state = .clearing →
          (noCause → react old s i = { s with rsu.slots := s.rsu.slots.modify i fun k => { k with
              pendingPts := pend
              state := if proven then .cleared else .clearing
              timerMs := if proven then none else k.timerMs } })
          ∧ (¬noCause → s.clearedOwned → s.countsExact → ∀ h, s.CausesAre i True h → ∃ u, Marked old s i d.sections u ∧ react old s i = { u with
              rsu.slots := u.rsu.slots.modify i fun k => { k with state := .held, holds := h, timerMs := none, pendingPts := pend }
              est.signals := stopped u }))
        ∧ (d.path ≠ [] → (s.slot i).state = .cleared → ¬entersIn old s i →
          (free → react old s i = s)
          ∧ (¬free → s.clearedOwned → s.countsExact → ∀ h, s.CausesAre i True h → ∃ u, Marked old s i d.beyondEntry u ∧ react old s i = { u with
              rsu.slots := u.rsu.slots.modify i fun k => { k with state := .held, holds := h, timerMs := none }
              est.signals := stopped u }))
        ∧ ((s.slot i).state = .held → ¬entersIn old s i → ∀ h, s.CausesAre i True h →
          ∃ u, Marked old s i d.beyondEntry u
            ∧ react old s i = { u with rsu.slots := u.rsu.slots.modify i fun k => { k with holds := h } }))

/-- The timers of APPROACH_LOCKED, RELEASE_TIMING and BERTHED: the instance ends APPROACH_RELEASED or FORCED; the overlap is
released, and the instance stays BERTHED and is enqueued: its overlap locks, its overlap claims with their counts, its RESERVE
requests and each PORT_FLANK request that no entry names any more go, which is a release event; all else stays (R36, R80, R97, R98,
R112, R114, R130, R138); a timer that does not run does nothing (logs 2, 3). What a change does to an instance in APPROACH_LOCKED
and RELEASE_TIMING, and the train's entry from CLEARED, from HELD and from APPROACH_LOCKED, with the evaluation that follows in the
act (R112, R114, R119 to R121, R133; log 15). -/
def Obligations.ReleaseExpiryRows : Prop :=
  (
    ∀ (s : State) (i : Nat), s.mdc.power = .running →
      let runs (st : SlotState) : Prop := (s.slot i).state = st ∧ (s.slot i).timerMs.isSome = true
      (runs .approachLocked → Acted s (.approachTimerExpiry i) (s.endSlot i .approachReleased))
      ∧ (¬runs .approachLocked → Acted s (.approachTimerExpiry i) s)
      ∧ (runs .releaseTiming → Acted s (.releaseTimerExpiry i) (s.endSlot i .forced))
      ∧ (¬runs .releaseTiming → Acted s (.releaseTimerExpiry i) s)
      ∧ (¬runs .berthed → Acted s (.overlapTimerExpiry i) s)
      ∧ (runs .berthed → ∃ b, Acted s (.overlapTimerExpiry i) b
          ∧ (let d := s.slotRoute i
            let gone := ((s.slot i).claims.filter Claim.ofOverlap).map Claim.what
            let left := (s.slot i).claims.filter fun c => !c.ofOverlap
            let withdrawn (r : RemoteReq) : Bool := match r.what with
              | .ask a => !a.flank || (!gone.isEmpty && idleFlank left r)
              | .acceptance _ => false
            let freedSec (k : Nat) : Prop := k ∈ d.overlapSecs ∧ (s.sec k).owner = some (.slot i) ∧ (s.sec k).kind = some .overlap
            let freedPt (k : Nat) : Prop := k ∈ d.overlapPoints.map Prod.fst ∧ (s.pt k).owner = some (.slot i)
              ∧ (s.pt k).kind = some .overlap
            (b.slot i = { s.slot i with claims := left, remote := (s.slot i).remote.filter fun r => !withdrawn r, timerMs := none })
            ∧ (∀ j, j ≠ i → b.slot j = s.slot j) ∧ Ref.slot i ∈ b.slu.noticeQ
            ∧ (∀ k, b.sec k = { s.sec k with
                owner := if freedSec k then none else (s.sec k).owner
                kind := if freedSec k then none else (s.sec k).kind
                claims := (s.sec k).claims - countOn gone ⟨.sect, k⟩ })
            ∧ (∀ k, b.pt k = { s.pt k with
                owner := if freedPt k then none else (s.pt k).owner
                kind := if freedPt k then none else (s.pt k).kind
                lockedPos := if freedPt k then none else (s.pt k).lockedPos
                claimPos := if countOn gone ⟨.point, k⟩ ≠ 0 ∧ (s.pt k).claims ≤ countOn gone ⟨.point, k⟩ then none
                  else (s.pt k).claimPos
                claims := (s.pt k).claims - countOn gone ⟨.point, k⟩ })
            ∧ (∀ k, b.sig k = { s.sig k with holds := (s.sig k).holds - countOn gone ⟨.signal, k⟩ })
            ∧ (b.releaseDue = true ↔ s.releaseDue = true ∨ (∃ k ∈ d.overlapSecs, freedSec k)
                ∨ (∃ k ∈ d.overlapPoints.map Prod.fst, freedPt k)
                ∨ ∃ c ∈ gone, s.claimCount c ≠ 0 ∧ b.claimCount c = 0)
            ∧ (∀ l, b.link l = { s.link l with outgoing := (s.link l).outgoing.filter fun o =>
                !(decide (o.slot = i) && (s.slot i).remote.any fun r => withdrawn r && decide (r.link = l ∧ r.tag = o.tag)) })
            ∧ b.bdu.ports = s.bdu.ports ∧ s.slu.noticeQ <+: b.slu.noticeQ
            ∧ b = { s with
                est.sections := b.est.sections, est.points := b.est.points, est.signals := b.est.signals
                rsu.slots := b.rsu.slots, bdu.links := b.bdu.links, slu.noticeQ := b.slu.noticeQ, releaseDue := b.releaseDue })))
    ∧ (
      ∀ (old s : State) (i : Nat),
        let d := s.slotRoute i
        let atStop (u : State) : Prop := Ref.slot i ∈ u.slu.noticeQ ∧ u = { s with
          rsu.slots := s.rsu.slots.modify i fun k => { k with marks := { k.marks with passedAtStop := true } }
          slu.noticeQ := u.slu.noticeQ }
        ((s.slot i).state = .cleared → entersIn old s i → ∃ u, TrainIn s i u ∧ react old s i = evaluate old u i)
        ∧ ((s.slot i).state = .held ∨ (s.slot i).state = .approachLocked → entersIn old s i →
            ∃ w, atStop w ∧ ∃ u, TrainIn w i u ∧ react old s i = evaluate old u i)
        ∧ ((s.slot i).state = .approachLocked → ¬entersIn old s i →
            ∃ u, Marked old s i d.beyondEntry u ∧ react old s i = u)
        ∧ ((s.slot i).state = .releaseTiming →
          ((s.slot i).head ≠ none → react old s i = s)
          ∧ ((s.slot i).head = none → ¬entersIn old s i → ∃ u, Marked old s i d.beyondEntry u ∧ react old s i = u)
          ∧ ((s.slot i).head = none → entersIn old s i →
              ∃ w, atStop w ∧ ∃ u, Marked old w i d.beyondEntry u ∧ react old s i = u))
        ∧ ((s.slot i).state = .free → react old s i = s))

/-- THROW_TIMER_EXPIRY: the point goes LOST with DETECTION_LOST, a release event (R31). STORE_ENTRY_EXPIRY removes the entry with
EXPIRED (R81). TWO_STEP_WINDOW_EXPIRY empties the gate and enqueues nothing (R172). A stopped timer does nothing (log 2). -/
def Obligations.ThrowStoreWindowExpiryRows : Prop :=
  ∀ (s : State) (i route : Nat), s.mdc.power = .running →
    ((s.pt i).throwMs.isSome → Acted s (.throwTimerExpiry i)
      { s with
        est.points := s.est.points.modify i fun r => { r with pos := .lost, commanded := none, throwMs := none, detectionLost := true }
        releaseDue := true })
    ∧ ((s.pt i).throwMs = none → Acted s (.throwTimerExpiry i) s)
    ∧ ((∃ e ∈ s.rsu.store, e.route = route) → Acted s (.storeEntryExpiry route)
      (State.note { s with rsu.store := s.rsu.store.filter (fun e => !decide (e.route = route)), rsu.lastRemoval := some (route, .expired) } .store))
    ∧ (¬(∃ e ∈ s.rsu.store, e.route = route) → Acted s (.storeEntryExpiry route) s)
    ∧ exec (.twoStepWindowExpiry .centre) s = .next { s with slu.gateCentre := none }
    ∧ exec (.twoStepWindowExpiry .panel) s = .next { s with slu.gatePanel := none }

/-! ### Elements -/

/-- MOVE_POINT: the refusals in their order, and the movement begun (R4, R30, R32, R168, R169). -/
def Obligations.MovePointRow : Prop :=
  ∀ (s : State) (o : Originator) (tag i code : Nat), s.ready →
    let row := Instr.movePoint o tag i code
    let no (r : Res) : Prop := ∃ t, Answered s row (.reply tag 9 o r .none) s t
    (1 < code ∨ 96 ≤ i → no .badParameter)
    ∧ ∀ p : Pos, code = p.code → i < 96 →
      (s.image.points.length ≤ i → no .unknown)
      ∧ (i < s.image.points.length →
        (s.holds o (s.ptDef i).area = false → no .notInControl)
        ∧ (s.holds o (s.ptDef i).area = true →
          (s.operational = false → no .notOperational)
          ∧ (s.operational = true →
            ((s.pt i).pos = .moving → no .busy)
            ∧ ((s.pt i).pos = p.rest → no .done)
            ∧ ((s.pt i).pos = .lost ∨ (s.pt i).pos = p.other.rest →
              let against := ((s.pt i).owner ≠ none ∧ (s.pt i).lockedPos ≠ some p) ∨ ((s.pt i).claims ≠ 0 ∧ (s.pt i).claimPos ≠ some p)
              ((s.ptRestr i).noMove = true → no .blocked)
              ∧ ((s.ptRestr i).noMove = false → against → no .inUse)
              ∧ ((s.ptRestr i).noMove = false → ¬against → (s.sec (s.ptDef i).fouling).occ ≠ .clear → no .conflict)
              ∧ ((s.ptRestr i).noMove = false → ¬against → (s.sec (s.ptDef i).fouling).occ = .clear →
                ∃ t, Answered s row (.reply tag 9 o .accepted .none)
                  { s with est.points := s.est.points.modify i fun r =>
                      { r with pos := .moving, commanded := some p, throwMs := some (s.throwLimit * 1000) } } t)))))

/-- ADD_RESTRICTION: the refusals in their order; the restriction joins the set, SPEED at the lower of the values and at least
10 (R38, R168, R177; log 21). -/
def Obligations.AddRestrictionRow : Prop :=
  ∀ (s : State) (o : Originator) (tag cls idx code value : Nat), s.ready →
    let row := Instr.addRestriction o tag cls idx code value
    let no (r : Res) : Prop := ∃ t, Answered s row (.reply tag 10 o r .none) s t
    let secOk := cls = 0 ∧ idx < 240 ∧ (code = 0 ∨ (code = 1 ∧ value ≤ 250))
    let ptOk := cls = 1 ∧ idx < 96 ∧ (code = 0 ∨ code = 2 ∨ code = 3)
    let sigOk := cls = 2 ∧ idx < 160 ∧ (code = 0 ∨ code = 4)
    let mode := s.mdc.mode = .starting ∨ s.mdc.mode = .operational
    (¬(secOk ∨ ptOk ∨ sigOk) → no .badParameter)
    ∧ (secOk ∨ ptOk ∨ sigOk → ¬mode → no .notOperational)
    ∧ (secOk → mode →
      (s.image.sections.length ≤ idx → no .unknown)
      ∧ (idx < s.image.sections.length → s.holds o (s.secDef idx).area = false → no .notInControl)
      ∧ (idx < s.image.sections.length → s.holds o (s.secDef idx).area = true → ∃ m t,
          Answered s row (.reply tag 10 o .done .none) { s with est.secRestr := m } t
          ∧ (∀ j, j ≠ idx → Sparse.get SecRestr.empty m j = s.secRestr j)
          ∧ (code = 0 → Sparse.get SecRestr.empty m idx = { s.secRestr idx with noRoute := true })
          ∧ (code = 1 → Sparse.get SecRestr.empty m idx = { s.secRestr idx with
              speed := some (match (s.secRestr idx).speed with
                | some w => min w (max 10 value)
                | none => max 10 value) })))
    ∧ (ptOk → mode →
      (s.image.points.length ≤ idx → no .unknown)
      ∧ (idx < s.image.points.length → s.holds o (s.ptDef idx).area = false → no .notInControl)
      ∧ (idx < s.image.points.length → s.holds o (s.ptDef idx).area = true → ∃ m t,
          Answered s row (.reply tag 10 o .done .none) { s with est.ptRestr := m } t
          ∧ (∀ j, j ≠ idx → Sparse.get PtRestr.empty m j = s.ptRestr j)
          ∧ Sparse.get PtRestr.empty m idx = { s.ptRestr idx with
              noRoute := (s.ptRestr idx).noRoute || decide (code = 0)
              noMove := (s.ptRestr idx).noMove || decide (code = 2)
              noFlankMove := (s.ptRestr idx).noFlankMove || decide (code = 3) }))
    ∧ (sigOk → mode →
      (s.image.signals.length ≤ idx → no .unknown)
      ∧ (idx < s.image.signals.length → s.holds o (s.sigDef idx).area = false → no .notInControl)
      ∧ (idx < s.image.signals.length → s.holds o (s.sigDef idx).area = true → ∃ m t,
          Answered s row (.reply tag 10 o .done .none) { s with est.sigRestr := m } t
          ∧ (∀ j, j ≠ idx → Sparse.get SigRestr.empty m j = s.sigRestr j)
          ∧ Sparse.get SigRestr.empty m idx = { s.sigRestr idx with
              noRoute := (s.sigRestr idx).noRoute || decide (code = 0)
              noClear := (s.sigRestr idx).noClear || decide (code = 4) }))

/-- The sweep of a DISTURBED section: the six rows of R26's table; the last report is written in every case; the loss of the
controller ends the sweep. -/
def Obligations.SweepTable : Prop :=
  ∀ r : SectionRec, r.occ = .disturbed →
    (r.sweep = false →
      r.report .occupied = { r with last := .occupied, sweep := true }
      ∧ r.report .clear = { r with last := .clear }
      ∧ r.report .disturbed = { r with last := .disturbed })
    ∧ (r.sweep = true →
      r.report .occupied = { r with last := .occupied }
      ∧ r.report .clear = { r with last := .clear, occ := .clear, sweep := false }
      ∧ r.report .disturbed = { r with last := .disturbed, sweep := false }
      ∧ (r.report .clear).occ ≠ r.occ ∧ r.lose.sweep = false)

/-! ### Authority, the two-step gate -/

/-- GIVE_CONTROL: the refusals (their order: log 20), and the new holder (R167, R170). -/
def Obligations.GiveControlRow : Prop :=
  ∀ (s : State) (o : Originator) (tag a code : Nat), s.ready →
    let row := Instr.giveControl o tag a code
    let no (r : Res) : Prop := ∃ t, Answered s row (.reply tag 16 o r .none) s t
    let own := match o with
      | .centre => Holder.centre
      | .panel => Holder.panel
    (8 ≤ a ∨ 2 < code ∨ code = own.code → no .badParameter)
    ∧ ∀ h : Holder, code = h.code → h ≠ own → a < 8 →
      (s.holder a ≠ own → no .notInControl)
      ∧ (s.holder a = own → s.mdc.mode ≠ .starting → s.mdc.mode ≠ .operational → no .notOperational)
      ∧ (s.holder a = own → s.mdc.mode = .starting ∨ s.mdc.mode = .operational →
        ∃ t, Answered s row (.reply tag 16 o .done .none) { s with slu.holders := s.slu.holders.set a h } t
          ∧ (a < s.slu.holders.length → Ref.system ∈ t.slu.noticeQ))

/-- TAKE_CONTROL (R171), by the gate of the two-step commands (R172 to R174, R176; an EXECUTE in HALTED on an EMPTY gate: log 43). -/
def Obligations.TakeControlRow : Prop :=
  ∀ (s : State) (o : Originator) (tag a : Nat), s.ready →
    let x := Inner.takeControl a
    let own := match o with
      | .centre => Holder.centre
      | .panel => Holder.panel
    let why := if 8 ≤ a then some Res.badParameter
      else if s.mdc.mode = .starting ∨ s.mdc.mode = .operational then none else some .notOperational
    TwoStep s o tag x (.takeControl o tag a) why
    ∧ (s.preparedFor o x → why = none → ∃ t,
        Answered s (.execute o tag x) (.reply tag 19 o .done .none)
          { s.setGate o none with slu.holders := s.slu.holders.set a own } t
        ∧ (a < s.slu.holders.length → t.holder a = own)
        ∧ (s.holder a ≠ own → a < s.slu.holders.length → Ref.system ∈ t.slu.noticeQ)
        ∧ (s.holder a = own → t.slu.holders = s.slu.holders))

/-- PREPARE and EXECUTE where no command acts: an inner command that is not two-step, an EMPTY gate, another record, a payload
of the wrong length, which is a frame with the fault PARAMETERS and drains the receiver (R173, R174, R176, R179, R180; log 13). -/
def Obligations.GateRefusals : Prop :=
  ∀ (s : State) (o : Originator) (tag : Nat) (x : Inner), s.ready →
    (innerSized x = true → innerTwoStep x = false →
      ∃ t, Answered s (.prepare o tag x) (.reply tag 18 o .notPermitted .none) (s.setGate o none) t)
    ∧ (innerSized x = true → (s.mdc.mode = .halted → innerRestart x = true) → s.gate o = none →
      ∃ t, Answered s (.execute o tag x) (.reply tag 19 o .noPrepare .none) (s.setGate o none) t)
    ∧ (innerSized x = true → (s.mdc.mode = .halted → innerRestart x = true) → ∀ g, s.gate o = some g → g.inner ≠ x →
      ∃ t, Answered s (.execute o tag x) (.reply tag 19 o .mismatch .none) (s.setGate o none) t)
    ∧ (innerSized x = false →
      (∃ t, FaultSent s (.prepare o tag x) { Faults.empty with parameters := true } (some (tag, originatorCode o, 18)) t)
      ∧ ∃ t, FaultSent s (.execute o tag x) { Faults.empty with parameters := true } (some (tag, originatorCode o, 19)) t)

/-- RESTORE_SECTION (R27, R176). By the gate (`TwoStep`), an EXECUTE in HALTED with an EMPTY gate is NOT_OPERATIONAL: the model's
reading of R174 (log 43). -/
def Obligations.RestoreSectionRow : Prop :=
  ∀ (s : State) (o : Originator) (tag k : Nat), s.ready →
    let x := Inner.restoreSection k
    let why := if 240 ≤ k then some Res.badParameter
      else if s.image.sections.length ≤ k then some .unknown
      else if s.holds o (s.secDef k).area = false then some .notInControl
      else if s.operational = false then some .notOperational
      else if (s.sec k).occ ≠ .disturbed then some .notPermitted
      else if (s.sec k).owner ≠ none then some .inUse
      else if (s.sec k).last = .clear ∨ (s.sec k).last = .occupied then none else some .fault
    TwoStep s o tag x (.restoreSection o tag k) why
    ∧ (s.preparedFor o x → why = none → ∃ t,
        Answered s (.execute o tag x) (.reply tag 19 o .done .none)
          { s.setGate o none with est.sections := s.est.sections.modify k fun r =>
              { r with occ := if r.last = .clear then .clear else .occupied, sweep := false } } t)

/-- REMOVE_RESTRICTION (R40, R176, R178). By the gate (`TwoStep`), an EXECUTE in HALTED with an EMPTY gate is NOT_OPERATIONAL: the
model's reading of R174 (log 43). -/
def Obligations.RemoveRestrictionRow : Prop :=
  ∀ (s : State) (o : Originator) (tag cls idx code : Nat), s.ready → s.canonical →
    let x := Inner.removeRestriction cls idx code
    let secOk := cls = 0 ∧ idx < 240 ∧ (code = 0 ∨ code = 1)
    let ptOk := cls = 1 ∧ idx < 96 ∧ (code = 0 ∨ code = 2 ∨ code = 3)
    let sigOk := cls = 2 ∧ idx < 160 ∧ (code = 0 ∨ code = 4)
    let defined := (cls = 0 ∧ idx < s.image.sections.length) ∨ (cls = 1 ∧ idx < s.image.points.length)
      ∨ (cls = 2 ∧ idx < s.image.signals.length)
    let held := (cls = 0 ∧ s.holds o (s.secDef idx).area = true) ∨ (cls = 1 ∧ s.holds o (s.ptDef idx).area = true)
      ∨ (cls = 2 ∧ s.holds o (s.sigDef idx).area = true)
    let used := (cls = 0 ∧ (s.sec idx).owner ≠ none) ∨ (cls = 1 ∧ code = 0 ∧ (s.pt idx).owner ≠ none)
      ∨ (cls = 1 ∧ code ≠ 0 ∧ (s.pt idx).claims ≠ 0) ∨ (cls = 2 ∧ code = 0 ∧ (s.sig idx).owner ≠ none)
    let why := if ¬(secOk ∨ ptOk ∨ sigOk) then some Res.badParameter
      else if ¬(s.mdc.mode = .starting ∨ s.mdc.mode = .operational) then some .notOperational
      else if ¬defined then some .unknown else if ¬held then some .notInControl else if used then some .inUse else none
    TwoStep s o tag x (.removeRestriction o tag cls idx code) why
    ∧ (s.preparedFor o x → why = none → ∃ b t, Answered s (.execute o tag x) (.reply tag 19 o .done .none) b t
        ∧ b = { s.setGate o none with est.secRestr := b.est.secRestr, est.ptRestr := b.est.ptRestr, est.sigRestr := b.est.sigRestr }
        ∧ (∀ j, b.secRestr j = if cls = 0 ∧ j = idx then
            { s.secRestr j with noRoute := (s.secRestr j).noRoute && decide (code ≠ 0), speed := if code = 1 then none else (s.secRestr j).speed }
            else s.secRestr j)
        ∧ (∀ j, b.ptRestr j = if cls = 1 ∧ j = idx then
            { noRoute := (s.ptRestr j).noRoute && decide (code ≠ 0), noMove := (s.ptRestr j).noMove && decide (code ≠ 2)
              noFlankMove := (s.ptRestr j).noFlankMove && decide (code ≠ 3) }
            else s.ptRestr j)
        ∧ (∀ j, b.sigRestr j = if cls = 2 ∧ j = idx then
            { noRoute := (s.sigRestr j).noRoute && decide (code ≠ 0), noClear := (s.sigRestr j).noClear && decide (code ≠ 4) }
            else s.sigRestr j))

/-- FORCED_RELEASE (R113, R176; log 17). By the gate (`TwoStep`), an EXECUTE in HALTED with an EMPTY gate is NOT_OPERATIONAL: the
model's reading of R174 (log 43). -/
def Obligations.ForcedReleaseRow : Prop :=
  ∀ (s : State) (o : Originator) (tag i route : Nat), s.ready →
    let x := Inner.forcedRelease i route
    let why := if 48 ≤ i ∨ ¬(1 ≤ route ∧ route ≤ 512) then some Res.badParameter
      else if s.operational = false then some .notOperational
      else if ¬((s.slot i).state ≠ .free ∧ (s.slot i).route = some route) then some .unknown
      else if s.holds o (s.sigDef (s.slotRoute i).entry).area = false then some .notInControl
      else if (s.slot i).state = .releaseTiming then some .busy else none
    let ms := match (s.slot i).figures with
      | some f => f.t * 1000
      | none => 0
    let s0 := s.setGate o none
    let timing := s0.rsu.slots.modify i fun k => { k with state := .releaseTiming, holds := Holds.empty, timerMs := some ms }
    TwoStep s o tag x (.forcedRelease o tag i route) why
    ∧ (s.preparedFor o x → why = none →
        ((s.slot i).state = .setting → ∃ t,
          Answered s (.execute o tag x) (.reply tag 19 o .done (.slotEnded i .forced)) (s0.endSlot i .forced) t)
        ∧ ((s.slot i).state = .clearing ∨ (s.slot i).state = .cleared ∨ (s.slot i).state = .held → ∃ t,
          Answered s (.execute o tag x) (.reply tag 19 o .done (.slotState i .releaseTiming))
            { s0 with
              rsu.slots := timing
              est.signals := if (s.sig (s.slotRoute i).entry).owner = some i then
                s.est.signals.modify (s.slotRoute i).entry fun r => { r with commanded := .stop } else s.est.signals } t)
        ∧ ((s.slot i).state = .occupied ∨ (s.slot i).state = .berthed ∨ (s.slot i).state = .approachLocked → ∃ t,
          Answered s (.execute o tag x) (.reply tag 19 o .done (.slotState i .releaseTiming)) { s0 with rsu.slots := timing } t))

/-- FORCE_DIRECTION (R153, R176). The neighbour's acceptance request on a port: its grant or refusal, decided once (R155), and what
the boundary section, a withdrawal and a new tag do to a granted one (R156). In HALTED, and in LOADING begun from it, no change of the
boundary section touches an acceptance or its lock (R146; that R146 goes before R156 and R164 there is the model's reading: log 50). By
the gate (`TwoStep`), an EXECUTE in HALTED with an EMPTY gate is NOT_OPERATIONAL: the model's reading of R174 (log 43). -/
def Obligations.ForceDirectionRow : Prop :=
  (
    ∀ (s : State) (o : Originator) (tag p : Nat), s.ready →
      let x := Inner.forceDirection p
      let q := s.port p
      let why := if 8 ≤ p then some Res.badParameter
        else if s.bdu.ports.length ≤ p then some .unknown
        else if s.holds o (s.secDef (s.portDef p).sec).area = false then some .notInControl
        else if s.operational = false then some .notOperational
        else if (s.link (s.portDef p).link).state = .up then some .notPermitted
        else if q.inc = .waiting ∨ q.inc = .receiving ∨ q.inc = .completed then some .inUse
        else if (s.sec (s.portDef p).sec).occ ≠ .clear then some .conflict else none
      TwoStep s o tag x (.forceDirection o tag p) why
      ∧ (s.preparedFor o x → why = none → q.view = .out → ∃ t,
          Answered s (.execute o tag x) (.reply tag 19 o .done .none) (s.setGate o none) t)
      ∧ (s.preparedFor o x → why = none → q.view ≠ .out → ∃ t,
          Answered s (.execute o tag x) (.reply tag 19 o .done .none)
            { s.setGate o none with bdu.ports := s.bdu.ports.modify p fun q => { q with view := .out, prev := none, conflict := false } } t))
    ∧ (
      ∀ (old s : State) (p tag : Nat), p < s.bdu.ports.length →
        let q := s.port p
        let k := (s.portDef p).sec
        let swept := (old.sec k).occ = .disturbed ∧ (old.sec k).sweep = true ∧ (s.sec k).occ = .clear
        let mine := (s.sec k).owner = some (.accept p)
        let become (t : State) (x : Port) : Prop := t.bdu = { s.bdu with ports := s.bdu.ports.set p x }
          ∧ t.rsu = s.rsu ∧ t.mdc = s.mdc ∧ t.sds = s.sds ∧ t.flu = s.flu ∧ t.est.points = s.est.points ∧ t.est.signals = s.est.signals
        let keeps (t : State) : Prop := t.est = s.est ∧ t.slu = s.slu
        let frees (t : State) : Prop := (mine → t.sec k = { s.sec k with owner := none, kind := none } ∧ t.releaseDue = true)
          ∧ (¬mine → t.sec k = s.sec k) ∧ ∀ j, j ≠ k → t.sec j = s.sec j
        let none' : Port := { q with inc := .none, incTag := none, withdrawn := false }
        let ends (t : State) : Prop := frees t
          ∧ become t (if q.withdrawn = true then none' else { q with inc := .completed, withdrawn := false })
        let withdraws (t : State) : Prop :=
          (q.inc = .waiting → frees t ∧ become t none')
          ∧ (q.inc = .receiving → keeps t ∧ become t { q with withdrawn := true })
          ∧ (q.inc = .completed ∨ q.inc = .refused → keeps t ∧ become t none')
          ∧ (q.inc = .none → t = s)
        let answered := q.inc ≠ .none ∧ q.incTag = some tag
        let accepts := q.view = .into ∧ (s.link (s.portDef p).link).state = .up ∧ (s.sec k).occ = .clear ∧ (s.sec k).owner = none
        let halted := s.mdc.mode = .halted ∨ (s.mdc.mode = .loading ∧ s.sds.load.origin = some .halted)
        (halted → portEdges old s p = s)
        ∧ (¬halted → q.inc = .waiting →
          (swept → ends (portEdges old s p))
          ∧ (¬swept → (old.sec k).occ ≠ .occupied → (s.sec k).occ = .occupied →
              keeps (portEdges old s p) ∧ become (portEdges old s p) { q with inc := .receiving })
          ∧ (¬swept → ¬((old.sec k).occ ≠ .occupied ∧ (s.sec k).occ = .occupied) → portEdges old s p = s))
        ∧ (¬halted → q.inc = .receiving →
          ((old.sec k).occ ≠ .clear → (s.sec k).occ = .clear → ends (portEdges old s p))
          ∧ (¬((old.sec k).occ ≠ .clear ∧ (s.sec k).occ = .clear) → portEdges old s p = s))
        ∧ (q.inc = .none ∨ q.inc = .refused ∨ q.inc = .completed → portEdges old s p = s)
        ∧ withdraws (s.takeIncoming p none)
        ∧ (answered → s.takeIncoming p (some tag) = s)
        ∧ (¬answered → q.inc = .receiving ∨ s.mdc.mode ≠ .operational → withdraws (s.takeIncoming p (some tag)))
        ∧ (¬answered → q.inc ≠ .none → q.inc ≠ .receiving → s.mdc.mode = .operational →
            ∃ t, withdraws t ∧ s.takeIncoming p (some tag) = t.takeIncoming p (some tag))
        ∧ (q.inc = .none → s.mdc.mode = .operational →
          (accepts → s.takeIncoming p (some tag) = { s with
              est.sections := s.est.sections.modify k fun r =>
                { r with owner := some (.accept p), kind := none, unexpected := false, vanished := false, sequence := false }
              bdu.ports := s.bdu.ports.modify p fun x => { x with inc := .waiting, incTag := some tag } })
          ∧ (¬accepts → s.takeIncoming p (some tag) =
              { s with bdu.ports := s.bdu.ports.modify p fun x => { x with inc := .refused, incTag := some tag } })))

/-- CLEAR_REMOTE_CLAIMS: every entry of the link is freed with its lock and its local claims, the incoming acceptances end, and the
rest of the element table stays as it was (R158, R165, R176). The remote claim table: what a STATUS's request list does to it in
its order (R158), how a PORT_FLANK and a RESERVE request are decided (R159 to R161), what an entry holds then, and what a change of
its elements does to it (R103, R162; logs 30, 36, 37). EXECUTE empties the sender's gate (R174) and leaves holders, the other gate,
receiver and queues; by the gate (`TwoStep`), an EXECUTE in HALTED with an EMPTY gate is NOT_OPERATIONAL: the model's reading of
R174 (log 43). -/
def Obligations.ClearRemoteClaimsRow : Prop :=
  (
    ∀ (s : State) (o : Originator) (tag l : Nat), s.ready →
      let x := Inner.clearRemoteClaims l
      let why := if 4 ≤ l then some Res.badParameter
        else if s.equipped l = false then some .unknown
        else if s.operational = false then some .notOperational
        else if ∃ p ∈ s.portsOf l, s.holds o (s.secDef (s.portDef p).sec).area = false then some .notInControl
        else if (s.link l).state = .up then some .notPermitted else none
      TwoStep s o tag x (.clearRemoteClaims o tag l) why
      ∧ (s.preparedFor o x → why = none → ∃ b t, Answered s (.execute o tag x) (.reply tag 19 o .done .none) b t
          ∧ (b.link l) = { s.link l with table := (s.link l).table.map fun _ => none }
          ∧ (∀ j, j ≠ l → b.link j = s.link j)
          ∧ (∀ p, (s.portDef p).link ≠ l → b.port p = s.port p)
          ∧ (∀ p ∈ s.portsOf l,
              ((s.port p).inc = .receiving → b.port p = { s.port p with withdrawn := true })
              ∧ ((s.port p).inc ≠ .receiving → b.port p = { s.port p with inc := .none, incTag := (b.port p).incTag, withdrawn := (b.port p).withdrawn })
              ∧ ((s.port p).inc = .waiting → (b.sec (s.portDef p).sec).owner ≠ some (.accept p)))
          ∧ (let gone := (s.link l).table.flatMap fun x => (x.map fun y => y.claims.map Claim.what).getD []
            let locks (z : ElemRef) (o : Option Owner) : Prop := ∃ e y, s.entry l e = some y ∧ y.lock = some z ∧ o = some (.remote l e)
            let accepts (k : Nat) (o : Option Owner) : Prop :=
              ∃ p ∈ s.portsOf l, (s.port p).inc = .waiting ∧ (s.portDef p).sec = k ∧ o = some (.accept p)
            (∀ k, locks ⟨.sect, k⟩ (s.sec k).owner ∨ accepts k (s.sec k).owner →
                b.sec k = { s.sec k with owner := none, kind := none, claims := (s.sec k).claims - countOn gone ⟨.sect, k⟩ }
                ∧ b.releaseDue = true ∧ Ref.sect k ∈ b.slu.noticeQ)
            ∧ (∀ k, ¬(locks ⟨.sect, k⟩ (s.sec k).owner ∨ accepts k (s.sec k).owner) →
                b.sec k = { s.sec k with claims := (s.sec k).claims - countOn gone ⟨.sect, k⟩ })
            ∧ (∀ k, locks ⟨.point, k⟩ (s.pt k).owner →
                b.pt k = { s.pt k with owner := none, kind := none, lockedPos := none, claims := (b.pt k).claims, claimPos := (b.pt k).claimPos }
                ∧ b.releaseDue = true ∧ Ref.point k ∈ b.slu.noticeQ)
            ∧ (∀ k, ¬locks ⟨.point, k⟩ (s.pt k).owner →
                b.pt k = { s.pt k with claims := (b.pt k).claims, claimPos := (b.pt k).claimPos })
            ∧ (∀ k, (b.pt k).claims = (s.pt k).claims - countOn gone ⟨.point, k⟩
                ∧ (b.pt k).claimPos = if countOn gone ⟨.point, k⟩ ≠ 0 ∧ (s.pt k).claims ≤ countOn gone ⟨.point, k⟩ then none
                    else (s.pt k).claimPos)
            ∧ (∀ k, b.sig k = { s.sig k with holds := (s.sig k).holds - countOn gone ⟨.signal, k⟩ })
            ∧ b.est.secRestr = s.est.secRestr ∧ b.est.ptRestr = s.est.ptRestr ∧ b.est.sigRestr = s.est.sigRestr
            ∧ b.mdc = s.mdc ∧ b.sds = s.sds ∧ b.flu = s.flu)
          ∧ b.slu = { (s.setGate o none).slu with noticeQ := b.slu.noticeQ } ∧ s.slu.noticeQ <+: b.slu.noticeQ
          ∧ b.pending = s.pending ∧ b.freeCount = s.freeCount
          ∧ b.rsu = s.rsu ∧ b.est.signals.map SignalRec.commanded = s.est.signals.map SignalRec.commanded))
    ∧ (
      ∀ (s : State) (l e tag : Nat) (a : Ask) (reqs : List (Nat × Ask)) (x : RemoteEntry),
        let all := List.range (s.link l).table.length
        let gone (t : State) (f : RemoteEntry → Bool) : List Nat := all.filter fun j => (t.entry l j).any f
        let first := (gone s fun y => !(reqs.map Prod.fst).contains y.tag).foldl (fun t j => t.releaseEntry l j) s
        let second := (gone first fun y => (reqs.find? fun q => q.1 = y.tag).any fun q => decide (q.2 ≠ y.ask)).foldl
          (fun t j => t.releaseEntry l j) first
        let entered : RemoteEntry := ⟨tag, a, .working, true, false, none, []⟩
        let shared (z : ElemRef) : Prop := ∃ j y, j ≠ e ∧ s.entry l j = some y ∧ y.ask = a ∧ y.lock = some z
        let windowed (z : ElemRef) : Prop := z ∈ (s.linkDef l).window
        let own := if a.cls = .port then s.ownPort l a.idx else none
        let sec := s.sec a.idx
        let pt := s.pt a.idx
        let sig := s.sig a.idx
        let lockOk := ∀ z, x.lock = some z → (z.cls = .sect → (s.sec z.idx).occ = .clear)
          ∧ (z.cls = .point → ∃ p, (s.pt z.idx).lockedPos = some p ∧ (s.pt z.idx).pos = p.rest)
        let intact := lockOk ∧ ∀ c ∈ x.claims, s.elemStands c.what
        s.takeRequests l reqs = reqs.foldl (fun t q => t.takeRequest l q) second
        ∧ (∀ j, s.entryOf l tag = some j → (∃ y, s.entry l j = some y ∧ y.tag = tag) ∧
            (s.takeRequest l (tag, a) = if s.mdc.mode = .operational ∧ ((s.entry l j).map RemoteEntry.decided) = some false then
              s.settle l j tag a else s))
        ∧ (s.entryOf l tag = none → (∀ j y, s.entry l j = some y → y.tag ≠ tag) ∧
          ((∀ y ∈ (s.link l).table, y ≠ none) → s.takeRequest l (tag, a) = s)
          ∧ ∀ j, j < (s.link l).table.length → s.entry l j = none → (∀ k, k < j → s.entry l k ≠ none) →
            s.takeRequest l (tag, a) = if s.mdc.mode = .operational then s.settle l j tag a
              else s.setEntry l j (some ⟨tag, a, .working, false, false, none, []⟩))
        ∧ (s.entry l e = none → s.releaseEntry l e = s)
        ∧ (s.entry l e = some x →
          let b := s.releaseEntry l e
          let names := x.claims.map Claim.what
          b.bdu = { s.bdu with links := s.bdu.links.modify l fun k => { k with table := k.table.set e none } }
          ∧ (∀ k, (b.sec k).owner = (if x.lock = some ⟨.sect, k⟩ ∧ (s.sec k).owner = some (.remote l e) then none else (s.sec k).owner)
              ∧ (b.sec k).occ = (s.sec k).occ ∧ (b.sec k).claims = (s.sec k).claims - countOn names ⟨.sect, k⟩)
          ∧ (∀ k, (b.pt k).owner = (if x.lock = some ⟨.point, k⟩ ∧ (s.pt k).owner = some (.remote l e) then none else (s.pt k).owner)
              ∧ (b.pt k).pos = (s.pt k).pos ∧ (b.pt k).claims = (s.pt k).claims - countOn names ⟨.point, k⟩)
          ∧ (∀ k, b.sig k = { s.sig k with holds := (s.sig k).holds - countOn names ⟨.signal, k⟩ })
          ∧ b.rsu = s.rsu)
        ∧ s.decideRequest l e a = (if a.flank = true then s.decideFlank l a else s.decideReserve l e a)
        ∧ (own = none → s.decideFlank l a = .refuse .fault)
        ∧ (∀ p, own = some p → (∀ cs v, s.searchPort p = .going cs v → s.decideFlank l a = .claims cs)
            ∧ (s.searchPort p = .conflict → s.decideFlank l a = .refuse .conflict)
            ∧ (s.searchPort p = .limit → s.decideFlank l a = .refuse .search))
        ∧ (∀ n, s.ownPort l n = ((s.link l).nbPorts.bind fun ps => (ps.idxOf? n).bind fun k => (s.portsOf l)[k]?))
        ∧ (a.elem? = none ∨ (∃ z, a.elem? = some z ∧ ¬windowed z) → s.decideReserve l e a = .refuse .window)
        ∧ (∀ z, a.elem? = some z → windowed z →
            (a.state = none ∨ (∃ st, a.state = some st ∧ stateFits z.cls st = false) → s.decideReserve l e a = .refuse .fault))
        ∧ (∀ z st, a.elem? = some z → windowed z → a.state = some st → stateFits z.cls st = true →
          (s.noRouteOn z = true → s.decideReserve l e a = .refuse .conflict)
          ∧ (s.noRouteOn z = false →
            (a.cls = .sect →
              (sec.occ = .disturbed → s.decideReserve l e a = .refuse .fault)
              ∧ (sec.occ = .occupied ∨ (sec.occ = .clear ∧ sec.owner ≠ none ∧ ¬shared z) → s.decideReserve l e a = .refuse .conflict)
              ∧ (sec.occ = .clear → ¬shared z → sec.owner = none → s.decideReserve l e a = .lockSec a.idx)
              ∧ (sec.occ = .clear → shared z → s.decideReserve l e a =
                  if sec.claims < 48 then .claims [⟨.sect a.idx, none, false, false⟩] else .refuse .conflict))
            ∧ (a.cls = .point → ∀ p, st = (if p = Pos.normal then .normal else .reverse) →
              let movable := pt.pos = p.rest ∨ ((s.ptRestr a.idx).noMove = false ∧ (s.sec (s.ptDef a.idx).fouling).occ = .clear
                ∧ s.mdc.mode = .operational)
              let free := pt.pos ≠ .moving ∧ (pt.owner = none ∨ shared z) ∧ (pt.claims = 0 ∨ pt.claimPos = some p) ∧ movable
              (pt.pos = .lost → s.decideReserve l e a = .refuse .fault)
              ∧ (pt.pos ≠ .lost → ¬free → s.decideReserve l e a = .refuse .conflict)
              ∧ (pt.pos ≠ .lost → free → ¬shared z → s.decideReserve l e a = .lockPt a.idx p)
              ∧ (pt.pos ≠ .lost → free → shared z → s.decideReserve l e a =
                  if pt.claims < 48 then .claims [⟨.point a.idx p, none, false, false⟩] else .refuse .conflict))
            ∧ (a.cls = .signal →
              let stopped := sig.commanded = .stop ∧ sig.reported = .stop ∧ sig.lamp = false
              (¬stopped → s.decideReserve l e a = .refuse .fault)
              ∧ (stopped → sig.owner ≠ none ∨ 48 ≤ sig.holds → s.decideReserve l e a = .refuse .conflict)
              ∧ (stopped → sig.owner = none → sig.holds < 48 →
                  s.decideReserve l e a = .claims [⟨.signal a.idx, none, false, false⟩]))))
        ∧ (∀ r, s.decideRequest l e a = .refuse r → s.settle l e tag a =
            (if r = .window ∧ a.elem? ≠ none then { s with bdu.links := s.bdu.links.modify l fun k => { k with lastRefusal := a.elem? } }
              else s).setEntry l e (some { entered with status := .refused (some r) }))
        ∧ (∀ k, s.decideRequest l e a = .lockSec k → s.settle l e tag a =
            (s.lockSec k (.remote l e) none).setEntry l e
              (some { entered with lock := some ⟨.sect, k⟩, status := .granted, beenGranted := true }))
        ∧ (∀ k p, s.decideRequest l e a = .lockPt k p →
            let u := (s.lockPt k (.remote l e) none p).moveIfOther k p
            s.settle l e tag a = u.setEntry l e (some { entered with
              lock := some ⟨.point, k⟩
              status := if (u.pt k).pos = p.rest then .granted else .working
              beenGranted := decide ((u.pt k).pos = p.rest) }))
        ∧ (∀ cs, s.decideRequest l e a = .claims cs →
            let u := (s.placeCounts cs).beginClaimMoves cs
            let ok := (u.placed cs).all fun c => u.elemIntact c.what
            s.settle l e tag a = u.setEntry l e (some { entered with
              claims := u.placed cs, status := if ok = true then .granted else .working, beenGranted := ok }))
        ∧ (∀ w, s.elemIntact w = true ↔ s.elemStands w)
        ∧ (let y := s.watchEntry x
          y = { x with status := y.status, beenGranted := y.beenGranted, claims := x.claims.map fun c => { c with
              been := c.been || s.elemIntact c.what
              lost := c.lost || (x.beenGranted && c.been && !s.elemIntact c.what) } }
          ∧ (x.decided = true → x.status = .working → intact → y.status = .granted ∧ y.beenGranted = true)
          ∧ (x.decided = true → x.status = .granted → ¬intact → y.status = .refused (some .fault) ∧ y.beenGranted = x.beenGranted)
          ∧ (¬(x.decided = true ∧ ((x.status = .working ∧ intact) ∨ (x.status = .granted ∧ ¬intact))) →
              y.status = x.status ∧ y.beenGranted = x.beenGranted)))

/-- RESTART: DONE is placed, then the start of its kind begins: NORMAL a warm start with its start check, BLANK none and no
image (R79, R176, R186, R192, R193; the mode while the check runs and the buffer's bytes: logs 7, 10); what it keeps and what
takes its start values: `WarmStarted`. -/
def Obligations.RestartRow : Prop :=
  ∀ (s : State) (o : Originator) (tag k : Nat), s.ready →
    let x := Inner.restart k
    let why := if k = 0 ∨ k = 1 then none else some Res.badParameter
    TwoStep s o tag x (.restart o tag k) why
    ∧ (s.preparedFor o x → why = none → ∃ t, exec (.execute o tag x) s = .next t
        ∧ t.outgoing = s.outgoing ++ [.reply tag 19 o .done .none]
        ∧ (let begun := Mdc.checking .warmCommand
          WarmStarted s { begun with power := if k = 0 then .checking else .running } t))

/-! ### The field bus -/

/-- A valid answer ends the poll: the controller is ACTIVE with missed count 0, its elements take their reports, the poll of
the next address goes out; start-up that it completes is entered, with each controller still UNKNOWN declared LOST (R24, R26, R29,
R31, R34, R44, R46 to R48, R52, R194). What a poll carries: for each channel the commanded position of the point or the
commanded aspect of the signal on it, else NOTHING (R45). What a report does to the record of a section that is not DISTURBED
(R24, R25; of one that is: `SweepTable`), of a point (R29, R31) and of a signal (R34), and what each report code is taken as (R47). -/
def Obligations.FieldAnswerRow : Prop :=
  (
    ∀ (s : State) (a n : Nat) (codes : List Nat), s.mdc.power = .running → s.flu.poll = .waiting → s.flu.pollPos = some a →
    a < 256 → codes.length = 16 → (∀ x ∈ codes, x < 256) →
    (s.flu.ctrls.map Ctrl.addr).find? (fun x => a < x) = some n
      ∨ (s.flu.ctrls.map Ctrl.addr).find? (fun x => a < x) = none ∧ (s.flu.ctrls.map Ctrl.addr).head? = some n →
    let done := s.mdc.mode = .starting ∧ s.mdc.startCrc = .matched
      ∧ (s.mdc.startupExpired = true ∨ ∀ c ∈ s.flu.ctrls, c.addr ≠ a → c.state ≠ .unknown)
    let secOn (k : Nat) : Prop := k < s.image.sections.length ∧ k < s.est.sections.length ∧ (s.secDef k).ctrl = a
    let ptOn (k : Nat) : Prop := k < s.image.points.length ∧ k < s.est.points.length ∧ (s.ptDef k).ctrl = a
    let sigOn (k : Nat) : Prop := k < s.image.signals.length ∧ k < s.est.signals.length ∧ (s.sigDef k).ctrl = a
    ∃ u b, (let w := finish s b
        exec (.fieldAnswerReceived (answerFrame a codes)) s
          = .next (State.settleLine { w with flu := { w.flu with poll := .waiting, lastPoll := some (w.pollOf n) } }))
      ∧ (¬done → b = u) ∧ (done → EntersOperational u b)
      ∧ u.flu = ⟨s.flu.ctrls.map fun c => if c.addr = a then { c with state := .active, missed := 0 } else c, some n, .none,
          s.flu.lastPoll⟩
      ∧ (∀ k, u.sec k = if secOn k then (s.sec k).report (sectionReport (codes.getD (s.secDef k).chan 10)) else s.sec k)
      ∧ (∀ k, u.pt k = if ptOn k then (s.pt k).report (pointReport (codes.getD (s.ptDef k).chan 10)) else s.pt k)
      ∧ (∀ k, u.sig k = if sigOn k then (s.sig k).report (signalReport (codes.getD (s.sigDef k).chan 10)) else s.sig k)
      ∧ (u.releaseDue = true ↔ s.releaseDue = true ∨ ∃ k p, ptOn k ∧ (s.pt k).pos = .moving ∧ (s.pt k).commanded = some p
          ∧ pointReport (codes.getD (s.ptDef k).chan 10) = some p)
      ∧ u.est.sections.length = s.est.sections.length ∧ u.est.points.length = s.est.points.length
      ∧ u.est.signals.length = s.est.signals.length
      ∧ u = { s with flu := u.flu, est.sections := u.est.sections, est.points := u.est.points, est.signals := u.est.signals,
                     releaseDue := u.releaseDue })
    ∧ (
      ∀ (s : State) (a ch : Nat), ch < 16 →
        let poll := s.pollOf a
        let ptHere (k : Nat) : Prop := k < s.image.points.length ∧ (s.ptDef k).ctrl = a ∧ (s.ptDef k).chan = ch
        let sigHere (k : Nat) : Prop := k < s.image.signals.length ∧ (s.sigDef k).ctrl = a ∧ (s.sigDef k).chan = ch
        poll.addr = a ∧ poll.cmds.length = 16
        ∧ (∀ k, ptHere k → (∀ j, j < k → ¬ptHere j) →
          ((s.pt k).commanded = some .normal → poll.cmds[ch]? = some .normal)
          ∧ ((s.pt k).commanded = some .reverse → poll.cmds[ch]? = some .reverse)
          ∧ ((s.pt k).commanded = none → poll.cmds[ch]? = some .none))
        ∧ ((∀ j, j < s.image.points.length → ¬ptHere j) →
          (∀ k, sigHere k → (∀ j, j < k → ¬sigHere j) →
            ((s.sig k).commanded = .stop → poll.cmds[ch]? = some .stop)
            ∧ ((s.sig k).commanded = .proceed → poll.cmds[ch]? = some .proceed)
            ∧ ((s.sig k).commanded = .restricted → poll.cmds[ch]? = some .restricted))
          ∧ ((∀ j, j < s.image.signals.length → ¬sigHere j) → poll.cmds[ch]? = some .nothing)))
    ∧ (
      ∀ (k : SectionRec) (p : PointRec) (y : Pos) (g : SignalRec) (x : Reported) (n : Nat),
        let shown := match y with
          | .normal => PtReport.normal
          | .reverse => PtReport.reverse
        let allowed := (p.owner = none ∧ p.claims = 0)
          ∨ ((p.lockedPos = none ∨ p.lockedPos = some y) ∧ (p.claimPos = none ∨ p.claimPos = some y))
        let same := (x = .stop ∧ g.commanded = .stop) ∨ (x = .proceed ∧ g.commanded = .proceed)
          ∨ (x = .restricted ∧ g.commanded = .restricted)
        (k.occ ≠ .disturbed →
          k.report .clear = { k with last := .clear, occ := .clear }
          ∧ k.report .occupied = { k with last := .occupied, occ := .occupied }
          ∧ k.report .disturbed = { k with last := .disturbed, occ := .disturbed, sweep := false })
        ∧ (p.pos = .moving →
          (p.commanded = some y → p.report (some y) = { p with last := shown, pos := y.rest, throwMs := none, detectionLost := false })
          ∧ (p.commanded ≠ some y → p.report (some y) = { p with last := shown })
          ∧ p.report none = { p with last := .noDetection })
        ∧ (p.pos = y.rest →
          p.report (some y) = { p with last := shown }
          ∧ p.report none = { p with last := .noDetection, pos := .lost, commanded := none, detectionLost := true })
        ∧ (p.pos = y.other.rest →
            p.report (some y) = { p with last := shown, pos := .lost, commanded := none, detectionLost := true })
        ∧ (p.pos = .lost →
          p.report none = { p with last := .noDetection }
          ∧ (allowed → p.report (some y) = { p with last := shown, pos := y.rest, commanded := some y, detectionLost := false })
          ∧ (¬allowed → p.report (some y) = { p with last := shown, detectionLost := true }))
        ∧ (g.report x).reported = x ∧ g.report x = { g with reported := x, lamp := (g.report x).lamp }
        ∧ (x = .dark → (g.report x).lamp = true) ∧ (same → (g.report x).lamp = false)
        ∧ (x ≠ .dark → ¬same → (g.report x).lamp = g.lamp)
        ∧ sectionReport n = (if n = 0 then .clear else if n = 1 then .occupied else .disturbed)
        ∧ pointReport n = (if n = 3 then some .normal else if n = 4 then some .reverse else none)
        ∧ signalReport n = (if n = 6 then .stop else if n = 7 then .proceed else if n = 8 then .restricted else .dark))

/-- A frame that fails a check, and the expiry of the wait, are a missed poll; at the limit an ACTIVE controller is LOST with
all it serves. Where a frame is still arriving the next poll waits for the idle line (R44, R46, R49). In STARTING the entry into
OPERATIONAL that is due follows in the act, with each controller still UNKNOWN declared LOST (R52, R194, R195). The checks of a
frame: start byte, length (both the bytes received and the length byte, log 48), kind, address, CRC-16 (R46). -/
def Obligations.MissedPollRows : Prop :=
  (
    ∀ (bs : List Byte) (a : Nat),
      answerValid a bs = true ↔ u8 bs 0 = 0x96 ∧ bs.length = 22 ∧ u8 bs 1 = 18 ∧ u8 bs 3 = 2 ∧ u8 bs 2 = a
        ∧ bs.drop 20 = crc16Bytes (crc16 ((bs.drop 1).take 19)))
    ∧ (
      ∀ (s : State) (a n : Nat) (bs : List Byte), s.mdc.power = .running →
        (s.flu.poll ≠ .waiting → exec (.fieldFrameInvalid bs) s = .next s ∧ exec (.fieldAnswerReceived bs) s = .next s
          ∧ exec (.answerWaitExpiry true) s = .next s ∧ exec (.answerWaitExpiry false) s = .next s)
        ∧ (s.flu.poll = .lateFrame → s.flu.pollPos = some a → exec .fieldLineIdle s
            = .next { s with flu.poll := .waiting, flu.lastPoll := some (s.pollOf a) })
        ∧ (s.flu.poll ≠ .lateFrame → exec .fieldLineIdle s = .next s)
        ∧ (s.flu.poll = .waiting → s.flu.pollPos = some a → answerValid a bs = false →
          (s.flu.ctrls.map Ctrl.addr).find? (fun x => a < x) = some n
            ∨ (s.flu.ctrls.map Ctrl.addr).find? (fun x => a < x) = none ∧ (s.flu.ctrls.map Ctrl.addr).head? = some n →
          let done := s.mdc.mode = .starting ∧ s.mdc.startCrc = .matched
            ∧ (s.mdc.startupExpired = true ∨ ∀ c ∈ s.flu.ctrls, c.state ≠ .unknown)
          ∃ u b, (let w := finish s b
              let sent := State.settleLine { w with flu := { w.flu with poll := .waiting, lastPoll := some (w.pollOf n) } }
              exec (.fieldFrameInvalid bs) s = .next sent ∧ exec (.answerWaitExpiry false) s = .next sent
              ∧ exec (.answerWaitExpiry true) s = .next (State.settleLine { w with flu := { w.flu with poll := .lateFrame } }))
            ∧ (¬done → b = u) ∧ (done → EntersOperational u b)
            ∧ u.flu = { s.flu with ctrls := u.flu.ctrls, poll := .none, pollPos := some n }
            ∧ u = { s with flu := u.flu, est.sections := u.est.sections, est.points := u.est.points, est.signals := u.est.signals,
                           releaseDue := u.releaseDue }
            ∧ (s.ctrl? a = none → u.flu.ctrls = s.flu.ctrls ∧ u.est = s.est ∧ u.releaseDue = s.releaseDue)
            ∧ (∀ c, s.ctrl? a = some c →
              let lim := s.missedLimit
              let falls := c.state = .active ∧ lim ≤ c.missed + 1
              u.flu.ctrls = s.flu.ctrls.map (fun x => if x.addr = a then
                { x with missed := min lim (x.missed + 1), state := if falls then CtrlState.lost else x.state } else x)
              ∧ (falls →
                (∀ k, u.sec k = if k < s.image.sections.length ∧ (s.secDef k).ctrl = a then
                  { s.sec k with occ := .disturbed, sweep := false, last := .noReport } else s.sec k)
                ∧ (∀ k, u.pt k = if k < s.image.points.length ∧ (s.ptDef k).ctrl = a then
                  { s.pt k with pos := .lost, commanded := none, throwMs := none, last := .noReport } else s.pt k)
                ∧ (∀ k, u.sig k = if k < s.image.signals.length ∧ (s.sigDef k).ctrl = a then
                  { s.sig k with reported := .unknown } else s.sig k)
                ∧ u.est.sections.length = s.est.sections.length ∧ u.est.points.length = s.est.points.length
                ∧ u.est.signals.length = s.est.signals.length
                ∧ (u.releaseDue = true ↔ s.releaseDue = true
                  ∨ ∃ k, k < s.image.points.length ∧ (s.ptDef k).ctrl = a ∧ (s.pt k).pos = .moving))
              ∧ (¬falls → u.est = s.est ∧ u.releaseDue = s.releaseDue))))

/-! ### Boundaries -/

/-- REQUEST_DIRECTION: the conditions in the order of the table (R149). The part's answer to the neighbour's direction request (R150),
and what the neighbour's answer does to a request of this part (R151; in STARTING too: log 43). -/
def Obligations.RequestDirectionRow : Prop :=
  (
    ∀ (s : State) (o : Originator) (tag p : Nat), s.ready →
      let no (r : Res) : Prop := ∃ t, Answered s (.requestDirection o tag p) (.reply tag 13 o r .none) s t
      let q := s.port p
      let up := (s.link (s.portDef p).link).state = .up
      let taken := q.inc = .waiting ∨ q.inc = .receiving ∨ q.inc = .completed
      let clear := (s.sec (s.portDef p).sec).occ = .clear
      (8 ≤ p → no .badParameter)
      ∧ (p < 8 → s.bdu.ports.length ≤ p → no .unknown)
      ∧ (p < 8 → p < s.bdu.ports.length →
        (s.holds o (s.secDef (s.portDef p).sec).area = false → no .notInControl)
        ∧ (s.holds o (s.secDef (s.portDef p).sec).area = true →
          (s.operational = false → no .notOperational)
          ∧ (s.operational = true →
            (q.view = .out → no .done)
            ∧ (q.view = .requesting → no .busy)
            ∧ (q.view = .neutral ∨ q.view = .into →
              (¬up → no .fault)
              ∧ (up → taken → no .inUse)
              ∧ (up → ¬taken → ¬clear → no .conflict)
              ∧ (up → ¬taken → clear → q.nbDirAns ≠ .none → no .busy)
              ∧ (up → ¬taken → clear → q.nbDirAns = .none → ∃ t,
                Answered s (.requestDirection o tag p) (.reply tag 13 o .accepted .none)
                  { s with bdu.ports := s.bdu.ports.modify p fun x => { x with prev := some x.view, view := .requesting } } t))))))
    ∧ (
      ∀ (s : State) (p : Nat) (v : NbView) (a : DirAns), p < s.bdu.ports.length →
        let q := s.port p
        let back := if q.view = .requesting then { q with view := q.prev.getD .neutral, prev := none } else q
        let conditions := (s.link (s.portDef p).link).state = .up
          ∧ (∀ i, s.live i = true → (s.slot i).kind = some .exit → (s.slotRoute i).exit ≠ p)
          ∧ q.inc ≠ .waiting ∧ q.inc ≠ .receiving ∧ q.inc ≠ .completed ∧ (s.sec (s.portDef p).sec).occ = .clear
        let become (x : Port) : State := { s with bdu.ports := s.bdu.ports.set p x }
        (v ≠ .requesting → s.takeNbView p v = become { q with dirAns := .none })
        ∧ (v = .requesting → q.dirAns ≠ .none → s.takeNbView p v = s)
        ∧ (v = .requesting → q.dirAns = .none →
          (q.view = .requesting → (s.portDef p).yields = false → s.takeNbView p v = s)
          ∧ (q.view ≠ .requesting ∨ (s.portDef p).yields = true →
            (conditions → s.takeNbView p v = become { back with view := .into, dirAns := .grant })
            ∧ (¬conditions → s.takeNbView p v = become { back with dirAns := .refuse })))
        ∧ (q.view ≠ .requesting → q.takeDirAns a = { q with nbDirAns := a })
        ∧ (q.view = .requesting → q.takeDirAns .grant = { q with view := .out, prev := none, conflict := false, nbDirAns := .grant }
            ∧ q.takeDirAns .refuse = { back with nbDirAns := .refuse } ∧ q.takeDirAns .none = { q with nbDirAns := .none }))

/-- A telegram that fails a check, a duplicate, a telegram on an unequipped link, and the expiry of a stopped timer change
nothing (R9, R142, R143; log 2). The timeout, a sequence jump and an accepted HALT take a link to DISTURBED (a HALT on a
DISTURBED link only sets the last sequence); a link that
leaves UP changes its ports (R142, R143, R145). The fate of a telegram: the frame with its CRC-32, the identity with its complement,
the alive byte, then the sequence: none before it, equal, one or two on, any other (R142); a link on which the part sends is
equipped, with an image active (R4, R9, R141). -/
def Obligations.TelegramIgnoredOrDisturbing : Prop :=
  (
    ∀ (s : State) (l : Nat) (bs : List Byte), s.mdc.power = .running →
      (s.sends l = false ∨ s.fate l bs = .discarded ∨ s.fate l bs = .duplicate →
        Acted s (.telegramDiscarded l bs) s ∧ Acted s (.helloReceived l bs) s ∧ Acted s (.statusTelegramReceived l bs) s
        ∧ Acted s (.haltReceived l bs) s ∧ Acted s (.sequenceJump l bs) s)
      ∧ ((s.link l).timeoutMs = none → Acted s (.linkTimeout l) s))
    ∧ (
      ∀ (s : State) (l : Nat) (bs : List Byte), s.mdc.power = .running → l < s.bdu.links.length →
        let disturbed (last : Option Nat) (b : State) : Prop :=
          b.link l = { s.link l with state := .disturbed, lastSeq := last, seen := false, answered := false, nbPorts := none, timeoutMs := none }
          ∧ (∀ j, j ≠ l → b.link j = s.link j) ∧ b.est = s.est ∧ b.rsu = s.rsu ∧ b.flu = s.flu ∧ b.mdc = s.mdc
          ∧ ((s.link l).state ≠ .up → b.bdu.ports = s.bdu.ports)
          ∧ ((s.link l).state = .up →
              (∀ p ∈ s.portsOf l, p < s.bdu.ports.length → Ref.port p ∈ b.slu.noticeQ ∧
                b.port p = { s.port p with
                  nbSec := .unknown, dirAns := .none, nbDirAns := .none
                  view := if (s.port p).view = .requesting then (s.port p).prev.getD .neutral else (s.port p).view
                  prev := if (s.port p).view = .requesting then none else (s.port p).prev })
              ∧ (∀ p, p ∉ s.portsOf l → b.port p = s.port p) ∧ Ref.link l ∈ b.slu.noticeQ)
        ((s.link l).timeoutMs.isSome → ∃ b, Acted s (.linkTimeout l) b ∧ disturbed none b)
        ∧ (s.sends l = true → s.fate l bs = .jump → ∃ b, Acted s (.sequenceJump l bs) b ∧ disturbed none b)
        ∧ (∀ q, s.sends l = true → s.fate l bs = .accepted q .halt → s.haltedNow = false → (s.link l).state ≠ .disturbed →
            ∃ b, Acted s (.haltReceived l bs) b ∧ disturbed none b)
        ∧ (∀ q, s.sends l = true → s.fate l bs = .accepted q .halt → s.haltedNow = false → (s.link l).state = .disturbed →
            Acted s (.haltReceived l bs) { s with bdu.links := s.bdu.links.modify l fun x => { x with lastSeq := some q } }))
    ∧ (
      ∀ (s : State) (l : Nat) (bs : List Byte),
        let k := s.link l
        (s.sends l = true ↔ s.sds.active ≠ none ∧ (s.linkDef l).neighbour ≠ 0 ∧ l < s.bdu.links.length)
        ∧ (readTelegram bs = none → s.fate l bs = .discarded)
        ∧ ∀ m, readTelegram bs = some m →
          let q := m.alive % 16
          let known := ∀ es rs as, m.body = .status es rs as → ∀ nums, k.nbPorts = some nums → ∀ e ∈ es, e.num ∈ nums
          let good := known ∧ m.identity = (s.linkDef l).neighbour ∧ m.identity + m.complement = 65535 ∧ m.alive / 16 + q = 15
          (u8 bs 0 = 0x7E ∧ 6 ≤ u8 bs 1 ∧ bs.length = u8 bs 1 + 6
            ∧ bs.drop (u8 bs 1 + 2) = crc32Bytes (crc32 ((bs.drop 1).take (u8 bs 1 + 1)))
            ∧ u8 bs 2 = m.body.kind ∧ m.identity = u16 bs 3 ∧ m.complement = u16 bs 5 ∧ m.alive = u8 bs 7)
          ∧ (∀ es rs as, m.body = .status es rs as → es.length ≤ 16 ∧ rs.length ≤ 16 ∧ as.length ≤ 16
              ∧ (rs.map Prod.fst).Nodup ∧ (as.map AnsItem.tag).Nodup)
          ∧ (¬good → s.fate l bs = .discarded)
          ∧ (good → k.lastSeq = none → s.fate l bs = .accepted q m.body)
          ∧ (good → ∀ last, k.lastSeq = some last →
            (q = last → s.fate l bs = .duplicate)
            ∧ (q ≠ last → q = (last + 1) % 16 ∨ q = (last + 2) % 16 → s.fate l bs = .accepted q m.body)
            ∧ (q ≠ last → q ≠ (last + 1) % 16 → q ≠ (last + 2) % 16 →
              (k.state = .hello ∨ k.state = .up → s.fate l bs = .jump)
              ∧ (k.state = .down ∨ k.state = .disturbed → s.fate l bs = .accepted q m.body))))

/-- An accepted telegram sets the last sequence and restarts the timeout in HELLO and UP; in HALTED nothing more (R142, R143,
R146; log 28). A HELLO is checked against the configuration and, where it matches, reconciles the port views (R144, R152); from UP it
first takes the ports out of UP (R145). A STATUS takes a link that has seen a HELLO to UP (R144), and in UP acts in its order: the
port entries in position order, the answers, the requests (R147; logs 29, 45). A port without an entry is one without an answer
(R163) and without a request (R156), all else of it as before (log 43). -/
def Obligations.TelegramAccepted : Prop :=
  ∀ (s : State) (l q : Nat) (bs : List Byte) (body : TelBody), s.mdc.power = .running → l < s.bdu.links.length →
    s.sends l = true → s.fate l bs = .accepted q body →
    let k := s.link l
    let timed := k.state = .hello ∨ k.state = .up
    (s.haltedNow = true → ∃ b, Acted s (.haltReceived l bs) b ∧ Acted s (.helloReceived l bs) b ∧ Acted s (.statusTelegramReceived l bs) b
        ∧ b = { s with bdu.links := s.bdu.links.modify l fun x =>
            { x with lastSeq := some q, timeoutMs := if timed then some s.linkTimeoutMs else k.timeoutMs } })
    ∧ (s.haltedNow = false → ∀ seen ps, body = .hello seen ps → ∃ b, Acted s (.helloReceived l bs) b
        ∧ (b.link l).state = .hello ∧ (b.link l).lastSeq = some q ∧ (b.link l).timeoutMs = some s.linkTimeoutMs
        ∧ (let agree := (s.portsOf l).length = ps.length
              ∧ ∀ x ∈ (s.portsOf l).zip ps, (s.portDef x.1).yields ≠ x.2.yields
          (agree → (b.link l).seen = true ∧ (b.link l).config = false ∧ (b.link l).nbPorts = some (ps.map HelloPort.num)
              ∧ (b.link l).answered = ((decide (k.state = .hello) && k.answered) || seen))
          ∧ (¬agree → (b.link l).seen = false ∧ (b.link l).answered = false ∧ (b.link l).config = true))
        ∧ (b.link l).table = k.table ∧ b.est = s.est ∧ b.rsu = s.rsu ∧ (∀ j, j ≠ l → b.link j = s.link j)
        ∧ (let agree := (s.portsOf l).length = ps.length
              ∧ ∀ x ∈ (s.portsOf l).zip ps, (s.portDef x.1).yields ≠ x.2.yields
          let left (p : Nat) : Port := if k.state = .up then { s.port p with
              nbSec := .unknown, dirAns := .none, nbDirAns := .none
              view := if (s.port p).view = .requesting then (s.port p).prev.getD .neutral else (s.port p).view
              prev := if (s.port p).view = .requesting then none else (s.port p).prev } else s.port p
          let targets (p : Nat) : Prop := ∃ i, s.live i = true ∧ (s.slot i).kind = some .exit ∧ (s.slotRoute i).exit = p
          (∀ p, p ∉ s.portsOf l → b.port p = s.port p)
          ∧ (k.state = .up → Ref.link l ∈ b.slu.noticeQ ∧ ∀ p ∈ s.portsOf l, Ref.port p ∈ b.slu.noticeQ)
          ∧ (¬agree → ∀ p ∈ s.portsOf l, p < s.bdu.ports.length → b.port p = left p)
          ∧ (agree → ∀ x ∈ (s.portsOf l).zip ps, x.1 < s.bdu.ports.length →
            let q := { left x.1 with nbView := x.2.view }
            (x.2.view ≠ .outMine ∨ q.view = .requesting → b.port x.1 = q)
            ∧ (x.2.view = .outMine → q.view = .neutral ∨ q.view = .into → b.port x.1 = { q with view := .into })
            ∧ (x.2.view = .outMine → q.view = .out → targets x.1 → b.port x.1 = { q with conflict := true })
            ∧ (x.2.view = .outMine → q.view = .out → ¬targets x.1 → b.port x.1 = { q with conflict := true, view := .neutral }))))
    ∧ (s.haltedNow = false → ∀ ports reqs ans, body = .status ports reqs ans → ∃ b, Acted s (.statusTelegramReceived l bs) b
        ∧ (b.link l).lastSeq = some q ∧ (b.link l).timeoutMs = some s.linkTimeoutMs
        ∧ (b.link l).state = (if k.state = .up ∨ (k.state = .hello ∧ k.seen = true) then .up else .hello)
        ∧ (k.state = .down ∨ k.state = .disturbed → (b.link l).seen = false ∧ (b.link l).answered = false)
        ∧ ((b.link l).state = .hello → b.est = s.est ∧ b.rsu = s.rsu ∧ b.bdu.ports = s.bdu.ports ∧ (b.link l).table = k.table)
        ∧ (k.state = .up ∨ (k.state = .hello ∧ k.seen = true) →
          let raised := { s with bdu.links := s.bdu.links.modify l fun x =>
            { x with state := .up, lastSeq := some q, timeoutMs := some s.linkTimeoutMs } }
          let entry (n : Nat) : Option PortEntry :=
            k.nbPorts.bind fun nums => nums[n]?.bind fun num => ports.find? fun e => e.num = num
          let ported := (numbered (s.portsOf l)).foldl (fun t x => match entry x.1 with
            | some e => t.takePortEntry x.2 e
            | none => (t.takeAccAns x.2 .none none).takeIncoming x.2 none) raised
          b = (ported.takeAnswers l ans).takeRequests l reqs
          ∧ ∀ (t : State) (p : Nat) (e : PortEntry), t.takePortEntry p e =
            (let seen := { t with bdu.ports := t.bdu.ports.modify p fun x => { x with nbView := e.view, nbSec := e.occ.nb } }
            let answered := seen.takeNbView p e.view
            let taken := { answered with bdu.ports := answered.bdu.ports.modify p (Port.takeDirAns e.dir) }
            (taken.takeAccAns p e.ans e.ansTag).takeIncoming p e.acc)))

/-- What a link carries: HALT while HALTED, else HELLO or STATUS by the link state; the send timer sends it, and so does the
change spacing where it differs from the telegram before (R141, R146); it carries this part's station identity (R2). What a HELLO
holds: seen, and for each port in position order its number, yielding flag and view (R144); what a STATUS holds: the port entries,
the request list and the answer list (R147, R158, R163). What a neighbour's answers do to this part's requests: the answer list's items
(R163), and the acceptance answer of a port (R154). -/
def Obligations.TelegramSendRows : Prop :=
  (
    ∀ (s : State) (l : Nat), s.mdc.power = .running →
      let k := s.link l
      let body := if s.haltedNow then TelBody.halt
        else if k.state = .up ∨ (k.state = .hello ∧ k.answered = true) then s.statusBody l
        else s.helloBody l (decide (k.state = .hello) && k.seen)
      let sent := { s with bdu.links := s.bdu.links.modify l fun x =>
        { x with lastSent := some ⟨s.image.identity, body, k.nextSeq⟩, nextSeq := (k.nextSeq + 1) % 16, sinceMs := some 0 } }
      (s.sends l = true → k.sinceMs.isSome → exec (.telegramSendTimer l) s = .next sent)
      ∧ (s.sends l = true → k.sinceMs.isSome → k.lastSent.map SentTel.body ≠ some body →
          exec (.telegramChangeSpacing l) s = .next sent)
      ∧ (s.sends l = true → k.lastSent.map SentTel.body = some body → exec (.telegramChangeSpacing l) s = .next s)
      ∧ (s.sends l = false ∨ k.sinceMs = none →
          exec (.telegramSendTimer l) s = .next s ∧ exec (.telegramChangeSpacing l) s = .next s)
      ∧ (let shown (p : Nat) (v : NbView) : Prop := ((s.port p).view = .neutral → v = .neutral) ∧ ((s.port p).view = .out → v = .outMine)
          ∧ ((s.port p).view = .into → v = .inYours) ∧ ((s.port p).view = .requesting → v = .requesting)
        (s.portsOf l).Pairwise (· < ·) ∧ (∀ p, p ∈ s.portsOf l ↔ p < s.image.ports.length ∧ (s.portDef p).link = l)
        ∧ (∀ seen, ∃ ps, s.helloBody l seen = .hello seen ps ∧ ps.length = (s.portsOf l).length
          ∧ ∀ (n p : Nat), (s.portsOf l)[n]? = some p → ∃ e, ps[n]? = some e ∧ e.num = p ∧ e.yields = (s.portDef p).yields
            ∧ shown p e.view)
        ∧ ∃ es rs as, s.statusBody l = .status es rs as ∧ es.length = (s.portsOf l).length
          ∧ rs = k.outgoing.map (fun o => (o.tag, o.ask))
          ∧ (as = (k.table.flatMap Option.toList).map fun y => ⟨y.tag, y.status⟩)
          ∧ ∀ (n p : Nat), (s.portsOf l)[n]? = some p → ∃ e, es[n]? = some e ∧ e.num = p ∧ shown p e.view
            ∧ e.dir = (s.port p).dirAns ∧ e.occ = (s.sec (s.portDef p).sec).occ
            ∧ ((s.port p).outAcc = none → e.acc = none) ∧ (∀ m j, (s.port p).outAcc = some (m, j) → e.acc = some m)
            ∧ ((s.port p).inc = .none → e.ans = .none ∧ e.ansTag = none)
            ∧ ((s.port p).inc = .refused → e.ans = .refused ∧ e.ansTag = (s.port p).incTag)
            ∧ ((s.port p).inc = .waiting ∨ (s.port p).inc = .receiving ∨ (s.port p).inc = .completed →
                e.ans = .granted ∧ e.ansTag = (s.port p).incTag)))
    ∧ (
      ∀ (s : State) (l p : Nat) (r : RemoteReq) (as : List AnsItem) (a : AccAns) (tag : Option Nat),
        (r.answered (some .granted) = { r with status := .granted, reason := none })
        ∧ (∀ why, r.answered (some (.refused why)) = { r with status := .refused, reason := if why = none then r.reason else why })
        ∧ (∀ x, x = none ∨ x = some AnsStatus.working →
          (r.status = .pending ∨ r.status = .refused → r.answered x = r)
          ∧ (r.status = .granted → r.answered x = { r with status := .refused, reason := none }))
        ∧ (((s.link l).outgoing.map OutReq.tag).Nodup →
          let t := s.takeAnswers l as
          let asked (i : Nat) (x : RemoteReq) : Prop := x.link = l ∧ ∃ o ∈ (s.link l).outgoing, o.slot = i ∧ o.tag = x.tag
          t = { s with rsu.slots := t.rsu.slots }
          ∧ ∀ i, t.slot i = { s.slot i with remote := (t.slot i).remote } ∧ (t.slot i).remote.length = (s.slot i).remote.length
            ∧ ∀ (j : Nat) (x : RemoteReq), (s.slot i).remote[j]? = some x →
              (asked i x → (t.slot i).remote[j]? = some (x.answered ((as.find? fun y => y.tag = x.tag).map AnsItem.status)))
              ∧ (¬asked i x → (t.slot i).remote[j]? = some x))
        ∧ (p < s.bdu.ports.length →
          let t := s.takeAccAns p a tag
          let given := match a with
            | .none => none
            | .granted => some AnsStatus.granted
            | .refused => some (AnsStatus.refused none)
          t = { s with
            rsu.slots := t.rsu.slots
            bdu.ports := s.bdu.ports.modify p fun x => { x with nbAcc := a, nbAccTag := if a = .none then none else tag } }
          ∧ ((s.port p).outAcc = none → t.rsu = s.rsu)
          ∧ ∀ m j, (s.port p).outAcc = some (m, j) → (∀ i, i ≠ j → t.slot i = s.slot i)
            ∧ (let asked (x : RemoteReq) : RemoteReq :=
                if x.link = (s.portDef p).link ∧ x.tag = m then x.answered (if tag = some m then given else none) else x
              t.slot j = { s.slot j with remote := (s.slot j).remote.map asked })))

/-! ### The supervisory line -/

/-- Frames that fail: the fault report names what was found and carries the header where it can; the receiver drains, or after
a gap hunts on from the byte that follows (R179, R180; log 33). While the receiver drains the bytes are discarded; where the response
queue holds 8 frames, or 7 with a command in progress, no report is made (R179, R182). -/
def Obligations.FrameFaultRows : Prop :=
  ∀ (s : State) (bs : List Byte) (length following : Byte), s.alive = true →
    (s.mdc.power = .running → s.served ∧ (s.slu.inputQ ≠ [] → s.slu.inProgress ≠ none ∨ s.slu.respQ.length = 8)) →
    (s.slu.rx = .draining → exec (.supFrameComplete bs) s = .next s ∧ exec (.supFrameLengthFault length) s = .next s
      ∧ exec (.supInterbyteGap bs following) s = .next s)
    ∧ (s.slu.rx ≠ .draining →
    let room := s.slu.respQ.length < 7 ∨ (s.slu.respQ.length = 7 ∧ s.slu.inProgress = none)
    let reported (i : Instr) (rx : Rx) (f : Faults) (h : Option (Nat × Nat × Nat)) : Prop :=
      ∃ t : State, exec i s = .next t ∧ t.outgoing = s.outgoing ++ (if room then [.faultReport f h] else [])
        ∧ t = { s with slu.rx := rx, slu.line := t.slu.line, slu.respQ := t.slu.respQ }
    let header := (u8 bs 4, u8 bs 3, u8 bs 5)
    (isFrame bs = true → bs.head? = some 0xC3#8 → frameCrcOk bs = false →
      reported (.supFrameComplete bs) .draining { Faults.empty with check := true } none)
    ∧ (isFrame bs = true → bs.head? = some 0xC3#8 → frameCrcOk bs = true →
      let kind := decide (u8 bs 2 ≠ 0)
      let orig := decide (u8 bs 3 ≠ 1 ∧ u8 bs 3 ≠ 2)
      let code := decide (u8 bs 5 = 0 ∨ 26 < u8 bs 5)
      let params := !code && !payloadOk (u8 bs 5) ((bs.drop 6).take (u8 bs 1 - 4))
      kind = true ∨ orig = true ∨ code = true ∨ params = true →
      reported (.supFrameComplete bs) .draining
        { Faults.empty with kind := kind, originator := orig, code := code, parameters := params } (some header))
    ∧ (length.toNat < 4 ∨ 244 < length.toNat →
      reported (.supFrameLengthFault length) .draining { Faults.empty with length := true } none)
    ∧ (bs.head? = some 0xC3#8 → isPartial bs = true →
      reported (.supInterbyteGap bs following) (if following = 0xC3#8 then .receiving else .hunting)
        { Faults.empty with
          gap := true
          kind := decide (3 ≤ bs.length ∧ u8 bs 2 ≠ 0)
          originator := decide (4 ≤ bs.length ∧ u8 bs 3 ≠ 1 ∧ u8 bs 3 ≠ 2)
          code := decide (6 ≤ bs.length ∧ (u8 bs 5 = 0 ∨ 26 < u8 bs 5)) }
        (if 6 ≤ bs.length then some header else none)))

/-- The line and the input queue: the drain ends, a free line takes the oldest response, else a notice of the oldest reference
that has a record, dropping those before it that have none; a response that begins to go makes room for the oldest waiting command;
a command that cannot be taken waits, a fifth is reported OVERRUN (R179, R181 to R184; log 13: a catalogue row is a frame's
arrival). While a start check runs, commands wait and no notice is sent whatever reference waits, where R183 alone would send one: R190
states both of the time after a start, R186 what stands in the queues then. That this time is the value `checking` of the model's field
`power` is the model's choice (log 7). -/
def Obligations.LineRows : Prop :=
  ∀ (s : State) (o : Originator) (tag : Nat) (c : Cmd), s.alive = true →
    exec .supDrainIdle s = .next (if s.slu.rx = .draining then { s with slu.rx := .hunting } else s)
    ∧ (s.slu.inputQ = [] ∨ s.slu.inProgress.isSome ∨ s.mdc.power = .checking →
      (∀ f rest, s.slu.respQ = f :: rest → exec .transmitLineFree s = .next { s with slu.line := some f, slu.respQ := rest })
      ∧ (s.slu.respQ = [] → s.mdc.power = .running → ∀ dead ref rest r, s.slu.noticeQ = dead ++ ref :: rest →
          (∀ x ∈ dead, s.record x = none) → s.record ref = some r →
          exec .transmitLineFree s = .next { s with
            slu.line := some (.notice s.slu.noticeCount ref r), slu.noticeQ := rest, slu.noticeCount := (s.slu.noticeCount + 1) % 256 })
      ∧ (s.slu.respQ = [] → s.mdc.power = .running → (∀ ref ∈ s.slu.noticeQ, s.record ref = none) →
          exec .transmitLineFree s = .next { s with slu.line := none, slu.noticeQ := [] })
      ∧ (s.slu.respQ = [] → s.mdc.power = .checking → exec .transmitLineFree s = .next { s with slu.line := none }))
    ∧ (s.mdc.power = .running → s.slu.inProgress = none → ∀ f rest q qs, s.slu.respQ = f :: rest → rest.length = 7 →
        s.slu.inputQ = q :: qs →
        exec .transmitLineFree s = .next (State.runCmd { s with slu.line := some f, slu.respQ := rest, slu.inputQ := qs } q))
    ∧ (s.slu.line.isSome → s.slu.rx ≠ .draining → cmdSized c = true →
      s.mdc.power = .checking ∨ s.slu.inProgress.isSome ∨ s.slu.respQ.length = 8 →
      (s.slu.inputQ.length < 4 → exec (rowOf o tag c) s = .next { s with slu.rx := .hunting, slu.inputQ := s.slu.inputQ ++ [⟨o, tag, c⟩] })
      ∧ (s.slu.inputQ.length = 4 → s.slu.respQ.length < 7 ∨ (s.slu.respQ.length = 7 ∧ s.slu.inProgress = none) →
        exec (rowOf o tag c) s = .next { s with slu.rx := .hunting, slu.respQ := s.slu.respQ ++
          [.faultReport { Faults.empty with overrun := true } (some (tag, originatorCode o, cmdCode c))] })
      ∧ (s.slu.inputQ.length = 4 → s.slu.respQ.length = 8 ∨ (s.slu.respQ.length = 7 ∧ s.slu.inProgress.isSome) →
        exec (rowOf o tag c) s = .next { s with slu.rx := .hunting }))

/-! ### Queries -/

/-- STATUS and the queries reply with the object's record as it stands, BAD_PARAMETER outside the class range, UNKNOWN where
there is no record; they change nothing but the line and the response queue (R58, R166, R185, R187). What the STATUS content and the
link record show (R166, R187). -/
def Obligations.QueryRows : Prop :=
  ∀ (s : State) (o : Originator) (tag cls i : Nat), s.ready →
    let answers (row : Instr) (code : Nat) (x : Option Record) : Prop :=
      ∃ t, Replied s row (match x with
        | some r => .reply tag code o .done (.record r)
        | none => .reply tag code o .unknown .none) t
    let no (row : Instr) (code : Nat) : Prop := ∃ t, Replied s row (.reply tag code o .badParameter .none) t
    answers (.status o tag) 21 (some (.system s.statusView))
    ∧ (2 < cls ∨ (cls = 0 ∧ 240 ≤ i) ∨ (cls = 1 ∧ 96 ≤ i) ∨ (cls = 2 ∧ 160 ≤ i) → no (.getElement o tag cls i) 22)
    ∧ (i < 240 → answers (.getElement o tag 0 i) 22
        (if i < s.est.sections.length then some (.sect (s.sec i) (s.secRestr i)) else none))
    ∧ (i < 96 → answers (.getElement o tag 1 i) 22
        (if i < s.est.points.length then some (.point (s.pt i) (s.ptRestr i)) else none))
    ∧ (i < 160 → answers (.getElement o tag 2 i) 22
        (if i < s.est.signals.length then some (.signal (s.sig i) (s.sigRestr i)) else none))
    ∧ (8 ≤ i → no (.getPort o tag i) 23)
    ∧ (i < 8 → answers (.getPort o tag i) 23 (if i < s.bdu.ports.length then some (.port (s.port i)) else none))
    ∧ (4 ≤ i → no (.getLink o tag i) 24)
    ∧ (i < 4 → answers (.getLink o tag i) 24 (if i < s.bdu.links.length then some (.link (s.link i).view) else none))
    ∧ (48 ≤ i → no (.getInstance o tag i) 25)
    ∧ (i < 48 → answers (.getInstance o tag i) 25 (if i < s.rsu.slots.length then
        some (.slot i (s.slot i) ((s.slot i).claims.map fun c => s.intact i c.what)) else none))
    ∧ (let v := s.statusView
      v.mode = s.mdc.mode ∧ v.cause = s.mdc.cause ∧ v.halt = s.mdc.halt
      ∧ (s.sds.active = none → v.identity = none) ∧ (∀ a, s.sds.active = some a → v.identity = some a.image.identity)
      ∧ v.verifyCount = s.sds.verifyCount ∧ v.lastCheck = s.sds.lastCheck ∧ v.loadState = s.sds.load.state
      ∧ (s.sds.load.state = .closed → v.declared = none ∧ v.owner = none)
      ∧ (s.sds.load.state ≠ .closed → v.declared = some s.sds.load.declared ∧ v.owner = s.sds.load.owner)
      ∧ v.ctrls = s.flu.ctrls ∧ v.holders = s.slu.holders ∧ v.gateCentre = s.slu.gateCentre ∧ v.gatePanel = s.slu.gatePanel
      ∧ v.live = ((List.range s.rsu.slots.length).filter s.live).length ∧ v.stored = s.rsu.store.length)
    ∧ (let k := s.link i
      let v := k.view
      v.state = k.state ∧ v.seen = k.seen ∧ v.answered = k.answered ∧ v.config = k.config ∧ v.lastSeq = k.lastSeq
      ∧ v.lastRefusal = k.lastRefusal ∧ v.outgoing = k.outgoing.length
      ∧ v.entries = ((List.range k.table.length).filter fun e => (s.entry i e).isSome).length)

/-- READ_TABLE: the range of the start index, the tables that need an image, and the records: at most four, the first of the
reading order, no more than the payload holds; the index at which a further reading continues: that of the row after the last
sent, coming round to the first (R188; the index where a table has no row: log 23). -/
def Obligations.ReadTableRow : Prop :=
  ∀ (s : State) (o : Originator) (tag table start : Nat), s.ready →
    let row := Instr.readTable o tag table start
    let no (r : Res) : Prop := ∃ t, Replied s row (.reply tag 26 o r .none) t
    let image := s.sds.active.isSome
    let gives (rows : List (Nat × Record)) (room : Nat) (store : Option (Nat × Option (Nat × Removal))) : Prop :=
      ∃ rs next t, Replied s row (.reply tag 26 o .done (.table rs next store)) t ∧ rs <+: rows.map Prod.snd ∧ rs.length ≤ 4
        ∧ (rs.map fun r => r.bytes.length).sum ≤ room
        ∧ (rs.length < 4 → ∀ x, rows[rs.length]? = some x → room < ((rs ++ [x.2]).map fun r => r.bytes.length).sum)
        ∧ (∀ x, rows[rs.length]? = some x → next = x.1)
        ∧ (rs.length = rows.length → ∀ x, rows.head? = some x → next = x.1)
        ∧ (rows = [] → next = start)
    (6 < table ∨ (table = 0 ∧ ¬(1 ≤ start ∧ start ≤ 512)) ∨ (table = 1 ∧ 48 ≤ start) ∨ (table = 2 ∧ 16 ≤ start)
        ∨ (3 ≤ table ∧ table ≤ 6 ∧ 16 ≤ start) → no .badParameter)
    ∧ (table = 0 → 1 ≤ start → start ≤ 512 →
      (image = false → no .unknown)
      ∧ (image = true → gives ((s.image.routesInOrder.filter (fun d => start ≤ d.number)
          ++ s.image.routesInOrder.filter (fun d => d.number < start)).map fun d => (d.number, .route d)) 235 none))
    ∧ (table = 1 → start < 48 →
      gives ((wrapFrom (List.range s.rsu.slots.length) start).map fun i => (i, s.slotRecord i)) 235 none)
    ∧ (table = 2 → start < 16 →
      let n := s.rsu.store.length
      let k := if start < n then start else 0
      gives (((List.range n).drop k ++ (List.range n).take k).zip ((s.rsu.store.drop k ++ s.rsu.store.take k).map .storeEntry))
        231 (some (n, s.rsu.lastRemoval)))
    ∧ (3 ≤ table → table ≤ 6 → start < 16 →
      (image = false ∨ s.equipped (table - 3) = false → no .unknown)
      ∧ (image = true → s.equipped (table - 3) = true →
        gives ((wrapFrom (List.range (s.link (table - 3)).table.length) start).map fun e => (e, s.entryRecord (table - 3) e)) 235
          none))

/-! ### The approach figures, the passage, the search -/

/-- Stage 1 of the approach figures: the effective speed and its source (R106). -/
def Obligations.EffectiveSpeed : Prop :=
  ∀ (s : State) (d : RouteDef),
    let f := s.figuresOf d
    f.v ≤ d.speed ∧ (∀ k ∈ d.path, ∀ w, (s.secRestr k).speed = some w → f.v ≤ w)
    ∧ (f.v = d.speed ∨ ∃ k ∈ d.path, (s.secRestr k).speed = some f.v)
    ∧ (f.source = none ↔ f.v = d.speed)
    ∧ (∀ k, f.source = some k → ∃ before after, d.path = before ++ k :: after ∧ (s.secRestr k).speed = some f.v
        ∧ ∀ x ∈ before, (s.secRestr x).speed ≠ some f.v)
    ∧ (10 ≤ d.speed → d.speed ≤ 250 → (∀ k ∈ d.path, ∀ w, (s.secRestr k).speed = some w → 10 ≤ w ∧ w ≤ 250) →
        10 ≤ f.v ∧ f.v ≤ 250)
    ∧ (d.speed ≤ 40 → f.v ≤ 40)

/-- Stages 2 to 5: braking distance, required reach, extent with SHORT, release time, with their bounds; SHORT stands for an
occupied approach, the clamped time is the time of every timer (R107 to R109). -/
def Obligations.DistancesAndTime : Prop :=
  ∀ (s : State) (d : RouteDef),
    let f := s.figuresOf d
    let lengths := d.chain.map fun k => (s.secDef k).length
    f.d = (f.v * f.v * 10000 + 2592 * d.decel - 1) / (2592 * d.decel) ∧ f.q = f.d + d.sight
    ∧ f.k ≤ lengths.length ∧ f.reach = (lengths.take f.k).sum
    ∧ (∀ j, j < f.k → (lengths.take j).sum < f.q)
    ∧ (f.short = false → f.q ≤ f.reach) ∧ (f.short = true → f.k = lengths.length ∧ f.reach < f.q)
    ∧ (d.chain = [] → 0 < f.q → f.k = 0 ∧ f.reach = 0 ∧ f.short = true)
    ∧ (let raw := (f.v * 1000 + 36 * d.decel - 1) / (36 * d.decel) + d.reaction
       f.t = (if raw < 20 then 20 else if 240 < raw then 240 else raw) ∧ 20 ≤ f.t ∧ f.t ≤ 240
       ∧ (10 ≤ f.v → f.v ≤ 250 → 30 ≤ d.decel → d.decel ≤ 120 →
          4 ≤ f.d ∧ f.d ≤ 8038 ∧ (d.sight ≤ 500 → f.q ≤ 8538) ∧ 3 ≤ raw ∧ (d.reaction ≤ 30 → raw ≤ 262)))
    ∧ (f.short = true → ∀ i, (s.slot i).figures = some f → s.approachOccupied i = true)
    ∧ (∀ k : Slot, k.figures = some f → k.releaseMs = f.t * 1000)

/-- The head moves to the highest index newly reached with everything between bridged, else it stays (R123). -/
def Obligations.HeadAdvance : Prop :=
  ∀ (old s : State) (i : Nat) (d : RouteDef) (h : Nat), h ≤ d.path.length →
    let fits (j : Nat) : Prop := h < j ∧ j ≤ d.path.length ∧ indexReached old s i d j = true
      ∧ ∀ x, h < x → x < j → reached old s i (d.path.getD x 0) = true ∨ (s.sec (d.path.getD x 0)).occ = .disturbed
    let h' := headAfter old s i d h
    h ≤ h' ∧ h' ≤ d.path.length ∧ (∀ j, fits j → j ≤ h') ∧ (h' = h ∨ fits h')

/-- Sequential release frees the sections from the release index upward, with their points and claims, one at a time up to the
first that is not CLEAR, the head, or the last; every other section, point and claim keeps its lock or its place, and the requests
whose last claim has gone leave (R97, R98, R127). The passage evaluation around it: which acts touch an instance (R122), what is
newly reached (R118, R122), the head (R123), SEQUENCE, which freezes the record (R124), VANISHED (R125; what is released in its act:
log 49), UNEXPECTED on the overlap
(R133), the berth (R129) and the last-section release (R131). -/
def Obligations.SequentialRelease : Prop :=
  (
    ∀ (s : State) (i : Nat) (d : RouteDef) (h r : Nat), (s.slot i).release = some r →
      let b := s.releaseFrom i d h d.path.length r
      ∃ r', r ≤ r' ∧ (r < r' → r' + 1 ≤ d.path.length ∧ r' ≤ h)
        ∧ (let freedSec (k : Nat) : Prop := ((d.path.take r').drop r).contains k = true ∧ (s.sec k).owner = some (.slot i)
          let passed (c : Claim) : Bool := (numbered d.pathPoints).any fun p =>
            decide (r ≤ p.2.fouling ∧ p.2.fouling < r' ∧ c.prot = some (.path p.1))
          let freedPt (k : Nat) : Prop := (∃ p ∈ d.pathPoints, p.pt = k ∧ r ≤ p.fouling ∧ p.fouling < r')
            ∧ (s.pt k).owner = some (.slot i)
          let left := (s.slot i).claims.filter fun c => !passed c
          let gone := ((s.slot i).claims.filter passed).map Claim.what
          let withdrawn (q : RemoteReq) : Bool := !gone.isEmpty && idleFlank left q
          b.slot i = { s.slot i with release := some r', claims := left, remote := (s.slot i).remote.filter fun q => !withdrawn q }
          ∧ (∀ k ∈ (d.path.take r').drop r, (s.sec k).occ = .clear)
          ∧ (∀ k, b.sec k = { s.sec k with
              owner := if freedSec k then none else (s.sec k).owner
              kind := if freedSec k then none else (s.sec k).kind
              claims := (s.sec k).claims - countOn gone ⟨.sect, k⟩ })
          ∧ (∀ k, b.pt k = { s.pt k with
              owner := if freedPt k then none else (s.pt k).owner
              kind := if freedPt k then none else (s.pt k).kind
              lockedPos := if freedPt k then none else (s.pt k).lockedPos
              claimPos := if countOn gone ⟨.point, k⟩ ≠ 0 ∧ (s.pt k).claims ≤ countOn gone ⟨.point, k⟩ then none
                else (s.pt k).claimPos
              claims := (s.pt k).claims - countOn gone ⟨.point, k⟩ })
          ∧ (∀ k, b.sig k = { s.sig k with holds := (s.sig k).holds - countOn gone ⟨.signal, k⟩ })
          ∧ (∀ k, (freedSec k → Ref.sect k ∈ b.slu.noticeQ) ∧ (freedPt k → Ref.point k ∈ b.slu.noticeQ))
          ∧ (b.releaseDue = true ↔ s.releaseDue = true ∨ (∃ k ∈ d.path, freedSec k) ∨ (∃ k ∈ d.pathPoints.map PathPoint.pt, freedPt k)
              ∨ ∃ c ∈ gone, s.claimCount c ≠ 0 ∧ b.claimCount c = 0)
          ∧ (∀ l, b.link l = { s.link l with outgoing := (s.link l).outgoing.filter fun o =>
              !(decide (o.slot = i) && (s.slot i).remote.any fun q => withdrawn q && decide (q.link = l ∧ q.tag = o.tag)) }))
        ∧ (r' + 1 < d.path.length → r' < h → (s.sec (d.path.getD r' 0)).occ ≠ .clear)
        ∧ (∀ j, j ≠ i → b.slot j = s.slot j) ∧ b.bdu.ports = s.bdu.ports ∧ s.slu.noticeQ <+: b.slu.noticeQ
        ∧ b = { s with
            est.sections := b.est.sections, est.points := b.est.points, est.signals := b.est.signals
            rsu.slots := b.rsu.slots, bdu.links := b.bdu.links, slu.noticeQ := b.slu.noticeQ, releaseDue := b.releaseDue })
    ∧ (
      ∀ (old s : State) (i h r : Nat) (d : RouteDef), s.slotRoute i = d →
        let n := d.path.length
        let far := if d.kind = .exit then (s.portDef d.exit).e else (s.sigDef d.exit).e
        let beyond := s.image.conn (d.path.getLastD 0) far
        let swept (k : Nat) : Prop := (old.sec k).occ = .disturbed ∧ (old.sec k).sweep = true ∧ (s.sec k).occ = .clear
        let changed (k : Nat) : Prop := (old.sec k).occ ≠ (s.sec k).occ
        let atHead (k : Nat) : Prop := ∃ x, (old.slot i).head = some x ∧ (old.slotRoute i).path[x]? = some k
        let reaches (k : Nat) : Prop := ((old.sec k).occ ≠ .occupied ∧ (s.sec k).occ = .occupied) ∨ (swept k ∧ ¬atHead k)
        let after := match beyond with
          | .joint k _ => Successor.sections [k]
          | .leg q .tip => .sections [(s.ptDef q).normal, (s.ptDef q).reverse]
          | .leg q _ => .sections [(s.ptDef q).tip]
          | .port p => .port p
          | .buffer => .nothing
        let touches := (∃ k ∈ d.sections, changed k) ∨ (∃ l, after = .sections l ∧ ∃ k ∈ l, changed k)
          ∨ ∃ p, after = .port p ∧ (old.port p).nbSec ≠ (s.port p).nbSec
        s.successor d = after
        ∧ (∀ k, reached old s i k = true ↔ reaches k)
        ∧ (∀ j, indexReached old s i d j = true ↔
            (j < n ∧ reaches (d.path.getD j 0)) ∨ (n ≤ j ∧ ∃ l, after = .sections l ∧ ∃ k ∈ l, reaches k)
              ∨ (n ≤ j ∧ ∃ p, after = .port p ∧ (old.port p).nbSec ≠ .occupied ∧ (s.port p).nbSec = .occupied))
        ∧ ((s.slot i).state = .occupied ∨ (s.slot i).state = .berthed →
          (touches → react old s i = evaluate old s i) ∧ (¬touches → react old s i = s))
        ∧ ((s.slot i).head = none ∨ (s.slot i).release = none → evaluate old s i = s)
        ∧ ((s.slot i).head = some h → (s.slot i).release = some r →
          let h' := if (s.slot i).marks.sequence = true then h else headAfter old s i d h
          let moved := { s with rsu.slots := s.rsu.slots.modify i fun k => { k with head := some h' } }
          ∃ u, (h' < n → Marked old moved i d.overlapSecs u) ∧ (n ≤ h' → u = moved)
            ∧ ((s.slot i).marks.sequence = true → evaluate old s i = u)
            ∧ ((s.slot i).marks.sequence = false → evaluate old s i = evaluateFrom old u i d h' r))
        ∧ (let ahead (k : Nat) : Prop := k ∈ d.path.drop (h + 1) ∧ reaches k
          let vanishes (k : Nat) : Prop := d.path[h]? = some k ∧ (old.sec k).occ ≠ .clear ∧ (s.sec k).occ = .clear ∧ ¬reaches k
          let b := evaluateFrom old s i d h r
          ((∃ k, ahead k) →
            (b.slot i) = { s.slot i with marks := (b.slot i).marks }
            ∧ (i < s.rsu.slots.length → (b.slot i).marks = { (s.slot i).marks with sequence := true, vanished := (b.slot i).marks.vanished })
            ∧ (∀ k, ahead k → k < s.est.sections.length → (b.sec k).sequence = true ∧ Ref.slot i ∈ b.slu.noticeQ)
            ∧ (∀ k, ¬ahead k → (b.sec k).sequence = (s.sec k).sequence)
            ∧ (∀ k, vanishes k → k < s.est.sections.length → i < s.rsu.slots.length →
                (b.sec k).vanished = true ∧ (b.slot i).marks.vanished = true)
            ∧ (∀ k, ¬vanishes k → (b.sec k).vanished = (s.sec k).vanished)
            ∧ ((∀ k, ¬vanishes k) → (b.slot i).marks.vanished = (s.slot i).marks.vanished)
            ∧ (∀ k, b.sec k = { s.sec k with sequence := (b.sec k).sequence, vanished := (b.sec k).vanished })
            ∧ b = { s with est.sections := b.est.sections, rsu.slots := b.rsu.slots, slu.noticeQ := b.slu.noticeQ })
          ∧ ((∀ k, ¬ahead k) → ∃ u,
            (∀ k, vanishes k → u.est.sections = s.est.sections.modify k (fun x => { x with vanished := true })
              ∧ u.rsu.slots = s.rsu.slots.modify i (fun x => { x with marks := { x.marks with vanished := true } })
              ∧ Ref.slot i ∈ u.slu.noticeQ ∧ u = { s with est.sections := u.est.sections, rsu.slots := u.rsu.slots, slu.noticeQ := u.slu.noticeQ })
            ∧ ((∀ k, ¬vanishes k) → u = s)
            ∧ b = ((u.releaseFrom i d h n r).tryBerth i d h).tryLast i d h))
        ∧ (let berths := (s.slot i).state = .occupied ∧ (s.slot i).release = some (n - 1) ∧ n - 1 ≤ h
          let timed := d.overlapTime ≠ 0 ∧ (d.overlapSecs ≠ [] ∨ d.overlapPoints ≠ [] ∨ d.remoteItems ≠ [])
          let passes := (s.slot i).state = .berthed ∧ h = n ∧ (s.sec (d.path.getLastD 0)).occ = .clear
          (berths → after = .nothing → s.tryBerth i d h = s.endSlot i .passed)
          ∧ (berths → after ≠ .nothing → s.tryBerth i d h = { s with rsu.slots := s.rsu.slots.modify i fun k =>
              { k with state := .berthed, timerMs := if timed then some (d.overlapTime * 1000) else none } })
          ∧ (¬berths → s.tryBerth i d h = s)
          ∧ (passes → s.tryLast i d h = s.endSlot i .passed) ∧ (¬passes → s.tryLast i d h = s)))

/-- A flank search visits at most sixteen sections for one route point, keeps its list within its limit and only adds to it; a
search that succeeds hands over at most 32 entries (R85, R92, R95, R102). How a branch is explored: the entry end's signal, the
buffer, the port, the trailed and the facing point (R85 to R90), the examination of a protected branch (R91), the depth and the
visits (R92, R93), the fallback (R94), the list and its limit (R95), the start at the flank leg (R85) and at a port (R102; the
order of the limits: log 19). -/
def Obligations.SearchBounds : Prop :=
  ∀ (s : State) (n : Need) (prot : Option Prot) (fuel sec : Nat) (e : SecEnd) (trav : List Nat) (l l' : List Claim) (v v' : Nat),
    let m := s.image
    let here := trav ++ [sec]
    let absent (o : Option Owner) (k : Option LockKind) : Prop := k = some .overlap ∧ o ≠ none ∧ o = n.donor.map Owner.slot
    let held (q : Nat) : Prop := (s.pt q).owner ≠ none ∧ ¬absent (s.pt q).owner (s.pt q).kind
    let standing := l.map Claim.what
    let sigOk (g : Nat) : Prop := (s.sig g).commanded = .stop ∧ (s.sig g).reported = .stop ∧ (s.sig g).lamp = false
      ∧ (s.sig g).owner = none ∧ n.entry ≠ some g
      ∧ (s.sig g).holds - countOn n.absent ⟨.signal, g⟩ + countOn standing ⟨.signal, g⟩ < 48
    let ptOk (q : Nat) (y : Pos) : Prop := (s.pt q).pos ≠ .lost ∧ (s.pt q).pos ≠ .moving
      ∧ (held q → (s.pt q).lockedPos = some y) ∧ (∀ r ∈ n.points, r.1 = q → r.2 = y)
      ∧ ((s.pt q).claims - countOn n.absent ⟨.point, q⟩ ≠ 0 → (s.pt q).claimPos ≠ some y.other)
      ∧ (∀ c ∈ l, c.what ≠ .point q y.other)
      ∧ (s.pt q).claims - countOn n.absent ⟨.point, q⟩ + countOn standing ⟨.point, q⟩ < 48
      ∧ ((s.pt q).pos = y.rest ∨ ((s.ptRestr q).noMove = false ∧ (s.ptRestr q).noFlankMove = false
          ∧ (s.sec (s.ptDef q).fouling).occ = .clear ∧ ¬held q ∧ (∀ r ∈ n.points, r.1 ≠ q) ∧ s.operational = true))
    let fallen (k : Nat) : Prop := (s.sec k).occ = .clear ∧ ((s.sec k).owner = none ∨ absent (s.sec k).owner (s.sec k).kind)
      ∧ k ∉ n.secs ∧ (s.sec k).claims - countOn n.absent ⟨.sect, k⟩ + countOn standing ⟨.sect, k⟩ < 48
    let standsAt (g : Nat) : Prop := g < m.signals.length ∧ (s.sigDef g).sec = sec ∧ (s.sigDef g).e = e
    let goesOn := v < 16 ∧ sec ∉ n.secs
    let explores := goesOn ∧ ∀ g, m.signalAt sec e = some g → ¬sigOk g
    (l.length ≤ n.limit → v ≤ 16 → s.explore n prot fuel sec e trav l v = .going l' v' →
      l <+: l' ∧ l'.length ≤ n.limit ∧ v ≤ v' ∧ v' ≤ 16 ∧ ∀ c ∈ l', c ∈ l ∨ c.prot = prot)
    ∧ (∀ d, s.searchAll (s.needOf d) d.protPoints [] = .success l' → l'.length ≤ 32)
    ∧ (∀ p, s.searchPort p = .going l' v' → l'.length ≤ 8 ∧ ∀ c ∈ l', ∀ x, c.what ≠ .port x)
    ∧ (∀ g, m.signalAt sec e = some g ↔ standsAt g ∧ ∀ x, x < g → ¬standsAt x)
    ∧ s.explore n prot 0 sec e trav l v = s.fallBack n prot trav l v
    ∧ (16 ≤ v → s.explore n prot (fuel + 1) sec e trav l v = s.fallBack n prot trav l v)
    ∧ (v < 16 → sec ∈ n.secs → s.explore n prot (fuel + 1) sec e trav l v = .conflict)
    ∧ (∀ g, goesOn → m.signalAt sec e = some g → sigOk g →
        s.explore n prot (fuel + 1) sec e trav l v = s.protect n prot here (some (.signal g)) l (v + 1))
    ∧ (explores → m.conn sec e.other = .buffer →
        s.explore n prot (fuel + 1) sec e trav l v = s.protect n prot here none l (v + 1))
    ∧ (∀ k f, explores → m.conn sec e.other = .joint k f →
        s.explore n prot (fuel + 1) sec e trav l v = s.explore n prot fuel k f here l (v + 1))
    ∧ (∀ p, explores → m.conn sec e.other = .port p → s.explore n prot (fuel + 1) sec e trav l v =
        if n.remote = false ∧ (s.link (s.portDef p).link).state = .up then s.protect n prot here (some (.port p)) l (v + 1)
        else s.fallBack n prot here l (v + 1))
    ∧ (∀ q g, explores → m.conn sec e.other = .leg q g → g ≠ .tip →
        let y := if g = .normal then Pos.reverse else Pos.normal
        (ptOk q y → s.explore n prot (fuel + 1) sec e trav l v = s.protect n prot here (some (.point q y)) l (v + 1))
        ∧ (¬ptOk q y → s.explore n prot (fuel + 1) sec e trav l v
            = s.explore n prot fuel (s.ptDef q).tip (m.endAt (s.ptDef q).tip q .tip) here l (v + 1)))
    ∧ (∀ q, explores → m.conn sec e.other = .leg q .tip →
        let first := s.explore n prot fuel (s.ptDef q).normal (m.endAt (s.ptDef q).normal q .normal) here l (v + 1)
        (∀ x y, first = .going x y → s.explore n prot (fuel + 1) sec e trav l v
            = s.explore n prot fuel (s.ptDef q).reverse (m.endAt (s.ptDef q).reverse q .reverse) here x y)
        ∧ ((∀ x y, first ≠ .going x y) → s.explore n prot (fuel + 1) sec e trav l v = first))
    ∧ (∀ w,
        let stands := (∀ k ∈ trav, (s.sec k).occ ≠ .disturbed) ∧ ∀ k, trav.head? = some k → (s.sec k).occ = .clear
        (¬stands → s.protect n prot trav w l v = .conflict)
        ∧ (stands → w = none → s.protect n prot trav w l v = .going l v)
        ∧ (∀ x, stands → w = some x → s.protect n prot trav w l v = addEntry n.limit x prot l v))
    ∧ (∀ x, ((∃ c ∈ l, c.what = x ∧ c.prot = prot) → addEntry n.limit x prot l v = .going l v)
        ∧ (¬(∃ c ∈ l, c.what = x ∧ c.prot = prot) → n.limit ≤ l.length → addEntry n.limit x prot l v = .limit)
        ∧ (¬(∃ c ∈ l, c.what = x ∧ c.prot = prot) → l.length < n.limit →
            addEntry n.limit x prot l v = .going (l ++ [⟨x, prot, false, false⟩]) v))
    ∧ ((∀ k ∈ trav, fallen k) → s.fallBack n prot trav l v = addSections n.limit prot trav (.going l v))
    ∧ (¬(∀ k ∈ trav, fallen k) → s.fallBack n prot trav l v = .conflict)
    ∧ (∀ k rest, addSections n.limit prot [] (.going l v) = .going l v
        ∧ addSections n.limit prot (k :: rest) (.going l v) = addSections n.limit prot rest (addEntry n.limit (.sect k) prot l v)
        ∧ addSections n.limit prot (k :: rest) .limit = .limit)
    ∧ (∀ pt x prot', let leg := if x = .normal then Leg.reverse else Leg.normal
        let first := if x = .normal then (s.ptDef pt).reverse else (s.ptDef pt).normal
        s.searchPoint n pt x prot' l = s.explore n (some prot') 4 first (m.endAt first pt leg) [] l 0)
    ∧ (∀ pt x prot' rest, s.searchAll n [] l = .success l
        ∧ s.searchAll n ((pt, x, prot') :: rest) l = match s.searchPoint n pt x prot' l with
          | .going found _ => s.searchAll n rest found
          | .conflict => .conflict pt
          | .limit => .limit)
    ∧ (∀ p, s.searchPort p
        = s.explore ⟨[], [], none, none, [], 8, true⟩ none 4 (s.portDef p).sec (s.portDef p).e [] [] 0)

end
end

