-- ==== Sys2Proof/Laws/HandOn.lean ====
section
/-! SUPPORT. Everything that handing a change on can do, said once (`Handed`), and that each operation of `finish` does no
more. Later lemmas cite `Handed` and do not unfold the operations. -/

namespace Sys2Proof.Machine

/-- The state without what handing on can change. -/
def State.bare (s : State) : State :=
  { s with est := { s.est with sections := [], points := [], signals := [] }, rsu := Rsu.start, bdu := ⟨[], []⟩, slu := { s.slu with noticeQ := [] }, releaseDue := false }

/-- Everything that handing on can make of a state. -/
structure Handed (s t : State) : Prop where
  bare : t.bare = s.bare
  sections : t.est.sections.length = s.est.sections.length
  points : t.est.points.length = s.est.points.length
  signals : t.est.signals.length = s.est.signals.length
  slots : t.rsu.slots.length = s.rsu.slots.length
  links : t.bdu.links.length = s.bdu.links.length
  ports : t.bdu.ports.length = s.bdu.ports.length
  sec : ∀ i, SecKept (s.sec i) (t.sec i)
  pt : ∀ i, PtKept s.operational (s.throwLimit * 1000) (s.pt i) (t.pt i)
  sig : ∀ i, SigKept s.operational (s.sig i) (t.sig i)
  link : ∀ l, LinkKept (s.link l) (t.link l)
  port : ∀ p, PortKept (s.port p) (t.port p)
  store : List.Sublist t.rsu.store s.rsu.store
  noticeQ : s.slu.noticeQ <+: t.slu.noticeQ
  nodup : s.slu.noticeQ.Nodup → t.slu.noticeQ.Nodup

namespace Handed
variable {s t u : State}

theorem mdc (h : Handed s t) : t.mdc = s.mdc :=
  show (State.bare t).mdc = (State.bare s).mdc from congrArg (fun x => x.mdc) h.bare
theorem sds (h : Handed s t) : t.sds = s.sds :=
  show (State.bare t).sds = (State.bare s).sds from congrArg (fun x => x.sds) h.bare
theorem flu (h : Handed s t) : t.flu = s.flu :=
  show (State.bare t).flu = (State.bare s).flu from congrArg (fun x => x.flu) h.bare
theorem pending (h : Handed s t) : t.pending = s.pending :=
  show (State.bare t).pending = (State.bare s).pending from congrArg (fun x => x.pending) h.bare
theorem freeCount (h : Handed s t) : t.freeCount = s.freeCount :=
  show (State.bare t).freeCount = (State.bare s).freeCount from congrArg (fun x => x.freeCount) h.bare
theorem secRestrMap (h : Handed s t) : t.est.secRestr = s.est.secRestr := congrArg (fun x => x.est.secRestr) h.bare
theorem ptRestrMap (h : Handed s t) : t.est.ptRestr = s.est.ptRestr := congrArg (fun x => x.est.ptRestr) h.bare
theorem sigRestrMap (h : Handed s t) : t.est.sigRestr = s.est.sigRestr := congrArg (fun x => x.est.sigRestr) h.bare
theorem holders (h : Handed s t) : t.slu.holders = s.slu.holders := congrArg (fun x => x.slu.holders) h.bare
theorem gateCentre (h : Handed s t) : t.slu.gateCentre = s.slu.gateCentre := congrArg (fun x => x.slu.gateCentre) h.bare
theorem gatePanel (h : Handed s t) : t.slu.gatePanel = s.slu.gatePanel := congrArg (fun x => x.slu.gatePanel) h.bare
theorem rx (h : Handed s t) : t.slu.rx = s.slu.rx := congrArg (fun x => x.slu.rx) h.bare
theorem inputQ (h : Handed s t) : t.slu.inputQ = s.slu.inputQ := congrArg (fun x => x.slu.inputQ) h.bare
theorem inProgress (h : Handed s t) : t.slu.inProgress = s.slu.inProgress := congrArg (fun x => x.slu.inProgress) h.bare
theorem respQ (h : Handed s t) : t.slu.respQ = s.slu.respQ := congrArg (fun x => x.slu.respQ) h.bare
theorem line (h : Handed s t) : t.slu.line = s.slu.line := congrArg (fun x => x.slu.line) h.bare
theorem noticeCount (h : Handed s t) : t.slu.noticeCount = s.slu.noticeCount := congrArg (fun x => x.slu.noticeCount) h.bare
theorem image (h : Handed s t) : t.image = s.image := by simp [State.image, h.sds]
theorem operational (h : Handed s t) : t.operational = s.operational := by simp [State.operational, h.mdc]
theorem throwLimit (h : Handed s t) : t.throwLimit = s.throwLimit := by simp [State.throwLimit, h.image]

theorem refl (s : State) : Handed s s :=
  ⟨rfl, rfl, rfl, rfl, rfl, rfl, rfl, fun _ => ⟨rfl, rfl, rfl⟩, fun _ => ⟨rfl, rfl, .inl ⟨rfl, rfl, rfl⟩⟩,
    fun _ => ⟨rfl, rfl, .inr (.inl rfl)⟩, fun _ => ⟨rfl, rfl, rfl, rfl, rfl, rfl, rfl, rfl, rfl⟩,
    fun _ => ⟨rfl, rfl, rfl, rfl, rfl, rfl, rfl, rfl, .inl rfl⟩, List.Sublist.refl _, List.prefix_rfl, id⟩

end Handed

theorem SecKept.trans {a b c : SectionRec} (h : SecKept a b) (k : SecKept b c) : SecKept a c :=
  ⟨k.occ.trans h.occ, k.sweep.trans h.sweep, k.last.trans h.last⟩

theorem Pos.rest_ne_moving (p : Pos) : p.rest ≠ .moving := by cases p <;> simp [Pos.rest]

theorem PtKept.trans {op : Bool} {ms : Nat} {a b c : PointRec} (h : PtKept op ms a b) (k : PtKept op ms b c) :
    PtKept op ms a c := by
  refine ⟨k.last.trans h.last, k.detectionLost.trans h.detectionLost, ?_⟩
  rcases h.move with ⟨h1, h2, h3⟩ | ⟨ho, p, h1, h2, h3, h4⟩ <;> rcases k.move with ⟨k1, k2, k3⟩ | ⟨ko, q, k1, k2, k3, k4⟩
  · exact .inl ⟨k1.trans h1, k2.trans h2, k3.trans h3⟩
  · exact .inr ⟨ko, q, h1.symm.trans k1, k2, k3, k4⟩
  · exact .inr ⟨ho, p, h1, k1.trans h2, k2.trans h3, k3.trans h4⟩
  · exact absurd (k1.symm.trans h2) (Pos.rest_ne_moving _)

theorem SigKept.trans {op : Bool} {a b c : SignalRec} (h : SigKept op a b) (k : SigKept op b c) : SigKept op a c := by
  refine ⟨k.reported.trans h.reported, k.lamp.trans h.lamp, ?_⟩
  rcases h.commanded with h1 | h1 | h1 <;> rcases k.commanded with k1 | k1 | k1 <;> simp_all

theorem PortKept.trans {a b c : Port} (h : PortKept a b) (k : PortKept b c) : PortKept a c := by
  refine ⟨k.prev.trans h.prev, k.conflict.trans h.conflict, k.dirAns.trans h.dirAns, k.nbDirAns.trans h.nbDirAns,
    k.nbAcc.trans h.nbAcc, k.nbAccTag.trans h.nbAccTag, k.nbView.trans h.nbView, k.nbSec.trans h.nbSec, ?_⟩
  have := h.conflict
  rcases h.view with h1 | ⟨h1, h2, h3⟩ <;> rcases k.view with k1 | ⟨k1, k2, k3⟩ <;> simp_all

theorem LinkKept.trans {a b c : Link} (h : LinkKept a b) (k : LinkKept b c) : LinkKept a c :=
  ⟨k.state.trans h.state, k.seen.trans h.seen, k.answered.trans h.answered, k.nbPorts.trans h.nbPorts,
    k.config.trans h.config, k.lastSeq.trans h.lastSeq, k.timeoutMs.trans h.timeoutMs, k.lastRefusal.trans h.lastRefusal,
    k.asked.trans h.asked⟩

theorem Handed.trans {s t u : State} (h : Handed s t) (k : Handed t u) : Handed s u where
  bare := k.bare.trans h.bare
  sections := k.sections.trans h.sections
  points := k.points.trans h.points
  signals := k.signals.trans h.signals
  slots := k.slots.trans h.slots
  links := k.links.trans h.links
  ports := k.ports.trans h.ports
  sec i := (h.sec i).trans (k.sec i)
  pt i := (h.pt i).trans (by have := k.pt i; rwa [h.operational, h.throwLimit] at this)
  sig i := (h.sig i).trans (by have := k.sig i; rwa [h.operational] at this)
  link l := (h.link l).trans (k.link l)
  port p := (h.port p).trans (k.port p)
  store := k.store.trans h.store
  noticeQ := h.noticeQ.trans k.noticeQ
  nodup := k.nodup ∘ h.nodup

/-! ### The primitive updates -/

/-- Reading a list after one place has been changed by a function that keeps a relation. -/
theorem getD_modify {α : Type} (R : α → α → Prop) (hr : ∀ a, R a a) (l : List α) (i j : Nat) (f : α → α) (d : α)
    (hf : ∀ a, l[i]? = some a → R a (f a)) : R (l.getD j d) ((l.modify i f).getD j d) := by
  simp only [List.getD_eq_getElem?_getD, List.getElem?_modify]
  rcases h : l[j]? with _ | a
  · simpa [h] using hr d
  · by_cases e : i = j
    · subst e; simpa [h] using hf a h
    · simpa [h, e] using hr a

theorem SecKept.refl (r : SectionRec) : SecKept r r := ⟨rfl, rfl, rfl⟩
theorem PtKept.refl (op : Bool) (ms : Nat) (r : PointRec) : PtKept op ms r r := ⟨rfl, rfl, .inl ⟨rfl, rfl, rfl⟩⟩
theorem SigKept.refl (op : Bool) (r : SignalRec) : SigKept op r r := ⟨rfl, rfl, .inr (.inl rfl)⟩
theorem LinkKept.refl (r : Link) : LinkKept r r := ⟨rfl, rfl, rfl, rfl, rfl, rfl, rfl, rfl, rfl⟩
theorem PortKept.refl (r : Port) : PortKept r r := ⟨rfl, rfl, rfl, rfl, rfl, rfl, rfl, rfl, .inl rfl⟩

theorem Handed.modSec (s : State) (i : Nat) (f : SectionRec → SectionRec) (hf : ∀ r, SecKept r (f r)) :
    Handed s (s.modSec i f) :=
  { Handed.refl s with
    sections := by simp [State.modSec]
    sec := fun j => getD_modify SecKept SecKept.refl _ _ _ _ _ fun a _ => hf a }

theorem Handed.modPtAt (s : State) (i : Nat) (f : PointRec → PointRec)
    (hf : ∀ r, s.est.points[i]? = some r → PtKept s.operational (s.throwLimit * 1000) r (f r)) : Handed s (s.modPt i f) :=
  { Handed.refl s with
    points := by simp [State.modPt]
    pt := fun j => getD_modify _ (PtKept.refl _ _) _ _ _ _ _ hf }

theorem Handed.modPt (s : State) (i : Nat) (f : PointRec → PointRec) (hf : ∀ r, PtKept s.operational (s.throwLimit * 1000) r (f r)) :
    Handed s (s.modPt i f) := Handed.modPtAt s i f fun r _ => hf r

theorem Handed.modSig (s : State) (i : Nat) (f : SignalRec → SignalRec) (hf : ∀ r, SigKept s.operational r (f r)) :
    Handed s (s.modSig i f) :=
  { Handed.refl s with
    signals := by simp [State.modSig]
    sig := fun j => getD_modify _ (SigKept.refl _) _ _ _ _ _ fun a _ => hf a }

theorem Handed.modLink (s : State) (l : Nat) (f : Link → Link) (hf : ∀ r, LinkKept r (f r)) : Handed s (s.modLink l f) :=
  { Handed.refl s with
    links := by simp [State.modLink]
    link := fun j => getD_modify _ LinkKept.refl _ _ _ _ _ fun a _ => hf a }

theorem Handed.modPortAt (s : State) (p : Nat) (f : Port → Port) (hf : ∀ r, s.bdu.ports[p]? = some r → PortKept r (f r)) :
    Handed s (s.modPort p f) :=
  { Handed.refl s with
    ports := by simp [State.modPort]
    port := fun j => getD_modify _ PortKept.refl _ _ _ _ _ hf }

theorem Handed.modPort (s : State) (p : Nat) (f : Port → Port) (hf : ∀ r, PortKept r (f r)) : Handed s (s.modPort p f) :=
  Handed.modPortAt s p f fun r _ => hf r

theorem Handed.modSlot (s : State) (i : Nat) (f : Slot → Slot) : Handed s (s.modSlot i f) :=
  { Handed.refl s with slots := by simp [State.modSlot] }

theorem Handed.releaseEvent (s : State) : Handed s s.releaseEvent := { Handed.refl s with }

theorem Handed.due (s : State) (b : Bool) : Handed s { s with releaseDue := b } := { Handed.refl s with }

theorem Handed.note (s : State) (r : Ref) : Handed s (s.note r) := by
  unfold State.note
  split
  · exact Handed.refl s
  · rename_i h
    exact { Handed.refl s with
      noticeQ := ⟨[r], rfl⟩
      nodup := fun hn => by
        rw [List.nodup_append]
        exact ⟨hn, by simp, by simpa using fun a ha e => h (by simpa [e] using ha)⟩ }

theorem Handed.ite {s t u : State} {c : Prop} [Decidable c] (h : Handed s t) (k : Handed s u) : Handed s (if c then t else u) := by
  split
  · exact h
  · exact k

/-- A fold of changes each of which hands on no more, from any state handed on so far. -/
theorem Handed.each' {α : Type} (s : State) (l : List α) (f : State → α → State)
    (h : ∀ t x, Handed s t → Handed t (f t x)) : Handed s (s.each l f) := by
  suffices ∀ t, Handed s t → Handed s (l.foldl f t) from this s (Handed.refl s)
  induction l with
  | nil => exact fun t ht => ht
  | cons x l ih => exact fun t ht => ih _ (ht.trans (h t x ht))

theorem Handed.each {α : Type} (s : State) (l : List α) (f : State → α → State) (h : ∀ t x, Handed t (f t x)) :
    Handed s (s.each l f) := Handed.each' s l f fun t x _ => h t x

end Sys2Proof.Machine
end

