-- ==== Sys2Proof/Laws/HandOnOps.lean ====
section
/-! SUPPORT. Each operation that handing on uses, and `finish` itself, does no more than `Handed` says. -/

namespace Sys2Proof.Machine

/-! ### Locks, counts, movements, aspects -/

theorem Handed.lockSec (s : State) (i : Nat) (o : Owner) (k : Option LockKind) : Handed s (s.lockSec i o k) :=
  Handed.modSec s i _ fun _ => ⟨rfl, rfl, rfl⟩

theorem Handed.lockPt (s : State) (i : Nat) (o : Owner) (k : Option LockKind) (p : Pos) : Handed s (s.lockPt i o k p) :=
  Handed.modPt s i _ fun _ => ⟨rfl, rfl, .inl ⟨rfl, rfl, rfl⟩⟩

theorem Handed.lockSig (s : State) (i k : Nat) : Handed s (s.lockSig i k) :=
  Handed.modSig s i _ fun _ => ⟨rfl, rfl, .inr (.inl rfl)⟩

theorem Handed.freeSec (s : State) (i : Nat) (o : Owner) : Handed s (s.freeSec i o) :=
  Handed.ite ((Handed.trans (by exact Handed.modSec s i _ fun _ => ⟨rfl, rfl, rfl⟩) (Handed.releaseEvent _)).trans (Handed.note _ _))
    (Handed.refl s)

theorem Handed.freePt (s : State) (i : Nat) (o : Owner) : Handed s (s.freePt i o) :=
  Handed.ite ((Handed.trans (by exact Handed.modPt s i _ fun _ => ⟨rfl, rfl, .inl ⟨rfl, rfl, rfl⟩⟩) (Handed.releaseEvent _)).trans
    (Handed.note _ _))
    (Handed.refl s)

theorem Handed.freeSig (s : State) (i k : Nat) : Handed s (s.freeSig i k) :=
  Handed.ite ((Handed.trans (by exact Handed.modSig s i _ fun _ => ⟨rfl, rfl, .inr (.inl rfl)⟩) (Handed.releaseEvent _)).trans
    (Handed.note _ _))
    (Handed.refl s)

theorem Handed.addCount (s : State) (c : ClaimOn) : Handed s (s.addCount c) := by
  cases c with
  | point i p => exact Handed.modPt s i _ fun _ => ⟨rfl, rfl, .inl ⟨rfl, rfl, rfl⟩⟩
  | signal i => exact Handed.modSig s i _ fun _ => ⟨rfl, rfl, .inr (.inl rfl)⟩
  | sect i => exact Handed.modSec s i _ fun _ => ⟨rfl, rfl, rfl⟩
  | port p => exact Handed.refl s

theorem Handed.takeCount (s : State) (c : ClaimOn) : Handed s (s.takeCount c) := by
  cases c with
  | point i p => exact Handed.modPt s i _ fun _ => ⟨rfl, rfl, .inl ⟨rfl, rfl, rfl⟩⟩
  | signal i => exact Handed.modSig s i _ fun _ => ⟨rfl, rfl, .inr (.inl rfl)⟩
  | sect i => exact Handed.modSec s i _ fun _ => ⟨rfl, rfl, rfl⟩
  | port p => exact Handed.refl s

theorem Handed.noteClaimed (s : State) (c : ClaimOn) : Handed s (s.noteClaimed c) := by
  cases c with
  | point i p => exact Handed.note s _
  | signal i => exact Handed.note s _
  | sect i => exact Handed.note s _
  | port p => exact Handed.refl s

theorem Handed.dropCount (s : State) (c : ClaimOn) : Handed s (s.dropCount c) :=
  (Handed.ite ((Handed.takeCount s c).trans (Handed.releaseEvent _)) (Handed.takeCount s c)).trans (Handed.noteClaimed _ c)

/-- A movement that begins from rest in OPERATIONAL. -/
theorem Handed.moveIfOther (s : State) (i : Nat) (p : Pos) (h : s.operational = true) : Handed s (s.moveIfOther i p) := by
  unfold State.moveIfOther
  split
  · rename_i hp
    refine Handed.modPtAt s i _ fun r hr => ⟨rfl, rfl, .inr ⟨h, p, ?_, rfl, rfl, rfl⟩⟩
    rw [← hp]; simp [State.pt, hr]
  · exact Handed.refl s

theorem Handed.setAspect (s : State) (i : Nat) (a : Aspect) (h : s.operational = true ∨ a = .stop) :
    Handed s (s.setAspect i a) :=
  Handed.modSig s i _ fun _ => ⟨rfl, rfl, h.imp id .inr⟩

/-! ### Claims and requests -/

theorem Handed.placeCounts (s : State) (cs : List Claim) : Handed s (s.placeCounts cs) :=
  Handed.each s cs _ fun t c => Handed.addCount t c.what

theorem Handed.beginClaimMoves (s : State) (cs : List Claim) (h : s.operational = true) : Handed s (s.beginClaimMoves cs) :=
  Handed.each' s cs _ fun t c ht => by
    split
    · exact Handed.moveIfOther t _ _ (ht.operational.trans h)
    · exact Handed.refl t

theorem Handed.withdraw (s : State) (i : Nat) (r : RemoteReq) : Handed s (s.withdraw i r) := by
  unfold State.withdraw
  split
  · exact Handed.modPort s _ _ fun q => by
      by_cases h : q.outAcc = some (r.tag, i)
      · rw [if_pos h]; exact ⟨rfl, rfl, rfl, rfl, rfl, rfl, rfl, rfl, .inl rfl⟩
      · rw [if_neg h]; exact PortKept.refl q
  · exact Handed.modLink s _ _ fun _ => ⟨rfl, rfl, rfl, rfl, rfl, rfl, rfl, rfl, rfl⟩

theorem Handed.withdrawWhere (s : State) (i : Nat) (f : RemoteReq → Bool) : Handed s (s.withdrawWhere i f) :=
  (Handed.each s _ _ fun t r => Handed.withdraw t i r).trans (Handed.modSlot _ _ _)

theorem Handed.dropAll (s : State) (cs : List Claim) : Handed s (s.each cs fun t c => t.dropCount c.what) :=
  Handed.each s _ _ fun t c => Handed.dropCount t c.what

theorem Handed.releaseClaims (s : State) (i : Nat) (f : Claim → Bool) : Handed s (s.releaseClaims i f) :=
  Handed.ite (Handed.refl s) (((Handed.dropAll s _).trans (Handed.modSlot _ _ _)).trans (Handed.withdrawWhere _ _ _))

/-! ### The end of an instance, its clearing, its holding -/

theorem Handed.stopEntry (s : State) (i : Nat) : Handed s (s.stopEntry i) :=
  Handed.ite (Handed.setAspect s _ _ (.inr rfl)) (Handed.refl s)

theorem Handed.freeLocks (s : State) (i : Nat) : Handed s (s.freeLocks i) :=
  ((Handed.each s _ _ fun t k => Handed.freeSec t k _).trans (Handed.each _ _ _ fun t k => Handed.freePt t k _)).trans
    (Handed.each _ _ _ fun t k => Handed.freeSig t k i)

theorem Handed.settleConflict (s : State) (p : Nat) : Handed s (s.settleConflict p) := by
  unfold State.settleConflict
  split
  · rename_i h
    simp only [Bool.and_eq_true, decide_eq_true_eq] at h
    refine Handed.modPortAt s p _ fun r hr => ⟨rfl, rfl, rfl, rfl, rfl, rfl, rfl, rfl, .inr ?_⟩
    have e : s.port p = r := by simp [State.port, hr]
    exact ⟨e ▸ h.1.2, e ▸ h.1.1, rfl⟩
  · exact Handed.refl s

theorem Handed.endSlot (s : State) (i : Nat) (r : EndReason) : Handed s (s.endSlot i r) := by
  unfold State.endSlot
  have h := (((((Handed.stopEntry s i).trans (Handed.freeLocks _ i)).trans (Handed.dropAll _ (s.slot i).claims)).trans
    (Handed.each _ (s.slot i).remote (fun t q => t.withdraw i q) fun t q => Handed.withdraw t i q))).trans
    (Handed.modSlot _ i fun x => x.ended r)
  exact Handed.ite (h.trans (Handed.settleConflict _ _)) h

theorem Handed.setClearing (s : State) (i : Nat) (h : s.operational = true) : Handed s (s.setClearing i) :=
  (Handed.modSlot s i _).trans (Handed.setAspect _ _ _ (.inl h))

theorem Handed.tryClear (s : State) (i : Nat) : Handed s (s.tryClear i) := by
  unfold State.tryClear
  split
  · rename_i h
    simp only [State.clearTest, Bool.and_eq_true] at h
    exact Handed.setClearing s i h.2
  · exact Handed.refl s

theorem Handed.refreshPending (s : State) (i : Nat) : Handed s (s.refreshPending i) := Handed.modSlot s i _

theorem Handed.hold (s : State) (i : Nat) : Handed s (s.hold i) :=
  ((Handed.setAspect s _ _ (.inr rfl)).trans (Handed.modSlot _ _ _)).trans (Handed.modSlot _ _ _)

theorem Handed.cancelCleared (s : State) (i : Nat) : Handed s (s.cancelCleared i) :=
  Handed.ite ((Handed.stopEntry s i).trans (Handed.modSlot _ _ _)) ((Handed.stopEntry s i).trans (Handed.endSlot _ _ _))

/-! ### Acceptance and retry -/

theorem Handed.takeOver (s : State) (don : Nat) (d : RouteDef) : Handed s (s.takeOver don d) := by
  unfold State.takeOver
  refine Handed.trans ?_ (Handed.withdrawWhere _ _ _)
  refine Handed.trans ?_ (Handed.modSlot _ _ _)
  refine Handed.trans ?_ (Handed.each _ _ _ fun t c => Handed.takeCount t c.what)
  exact (Handed.each s _ _ fun t k => Handed.freeSec t k _).trans (Handed.each _ _ _ fun t k => Handed.freePt t k _)

theorem Handed.noteMoved (s old : State) (gone : List ClaimOn) : Handed s (s.noteMoved old gone) :=
  Handed.each s _ _ fun t c => Handed.noteClaimed t c

theorem Handed.takenToZero (s : State) (gone : List ClaimOn) : Handed s (s.takenToZero gone) :=
  Handed.ite (Handed.releaseEvent s) (Handed.refl s)

theorem Handed.lockRoute (s : State) (i : Nat) (d : RouteDef) : Handed s (s.lockRoute i d) := by
  unfold State.lockRoute
  exact ((((Handed.each s _ _ fun t k => Handed.lockSec t k _ _).trans (Handed.each _ _ _ fun t k => Handed.lockSec t k _ _)).trans
    (Handed.each _ _ _ fun t (p : PathPoint) => Handed.lockPt t p.pt _ _ _)).trans
    (Handed.each _ _ _ fun t (q : Nat × Pos) => Handed.lockPt t q.1 _ _ _)).trans (Handed.lockSig _ _ _)

theorem Handed.post (s : State) (i : Nat) (what : RemoteWhat) (l : Nat) : Handed s (s.post i what l) := by
  unfold State.post
  refine Handed.trans ?_ (Handed.modSlot _ _ _)
  have h := Handed.modLink s l (fun k => { k with nextTag := (s.freshTag l + 1) % 256 })
    fun _ => ⟨rfl, rfl, rfl, rfl, rfl, rfl, rfl, rfl, rfl⟩
  cases what with
  | acceptance p => exact h.trans (by exact Handed.modPort _ _ _ fun _ => ⟨rfl, rfl, rfl, rfl, rfl, rfl, rfl, rfl, .inl rfl⟩)
  | ask a => exact h.trans (by exact Handed.modLink _ _ _ fun _ => ⟨rfl, rfl, rfl, rfl, rfl, rfl, rfl, rfl, rfl⟩)

theorem Handed.acceptRoute (s : State) (o : Originator) (d : RouteDef) (i : Nat) (cs : List Claim) (h : s.operational = true) :
    Handed s (s.acceptRoute o d i cs) := by
  unfold State.acceptRoute
  refine Handed.trans ?_ (Handed.note _ _)
  refine Handed.trans ?_ (Handed.tryClear _ _)
  refine Handed.trans ?_ (Handed.refreshPending _ _)
  refine Handed.trans ?_ (Handed.modSlot _ _ _)
  refine Handed.trans ?_ (Handed.each _ _ _ fun t x => Handed.post t i x.1 x.2)
  refine Handed.trans ?_ (Handed.modSlot _ _ _)
  have h2 : ∀ x, Handed s x → Handed s
      (((((x.lockRoute i d).placeCounts cs).noteMoved s (s.needOf d).absent).takenToZero (s.needOf d).absent).beginClaimMoves cs) := by
    intro x hx
    have h3 := (((hx.trans (Handed.lockRoute x i d)).trans (Handed.placeCounts _ cs)).trans
      (Handed.noteMoved _ s (s.needOf d).absent)).trans (Handed.takenToZero _ (s.needOf d).absent)
    exact h3.trans (Handed.beginClaimMoves _ cs (h3.operational.trans h))
  have h4 : ∀ x, Handed s x → Handed s (x.each d.points fun t q => t.moveIfOther q.1 q.2) := fun x hx =>
    hx.trans (Handed.each' x _ _ fun t q ht => Handed.moveIfOther t _ _ ((ht.operational.trans hx.operational).trans h))
  refine h4 _ (h2 _ ?_)
  have h1 := Handed.modSlot s i fun _ =>
    { Slot.start with route := some d.number, kind := some d.kind, originator := some o, state := .setting }
  split
  · exact (h1.trans (Handed.takeOver _ _ d)).trans (Handed.note _ _)
  · exact h1

theorem Handed.leaveStore (s : State) (route : Nat) (r : Removal) : Handed s (s.leaveStore route r) :=
  { Handed.refl s with store := List.filter_sublist }

/-- A request that passes the checks finds the part OPERATIONAL (R59 check 1). -/
theorem routeChecks_operational {s : State} {o : Originator} {route : Nat} {retry : Bool} {i : Nat} {cs : List Claim}
    (h : s.routeChecks o route retry = .accepted i cs) : s.operational = true := by
  cases hn : s.operational with
  | true => rfl
  | false => simp [State.routeChecks, hn] at h

theorem Handed.retryEntry (s : State) (e : StoreEntry) : Handed s (s.retryEntry e) := by
  unfold State.retryEntry
  split
  · rename_i i cs d hc _
    exact ((Handed.acceptRoute s _ d i cs (routeChecks_operational hc)).trans (Handed.leaveStore _ _ _)).trans (Handed.note _ _)
  · exact Handed.refl s

theorem Handed.retryPass (s : State) : Handed s s.retryPass := Handed.each s _ _ fun t e => Handed.retryEntry t e

/-! ### What a change does to an instance -/

theorem Handed.watchClaims (old s : State) (i : Nat) : Handed s (watchClaims old s i) :=
  Handed.ite ((Handed.modSlot s i _).trans (Handed.note _ _)) (Handed.modSlot s i _)

theorem Handed.markUnexpected (s : State) (i k : Nat) : Handed s (s.markUnexpected i k) :=
  ((Handed.modSlot s i _).trans (by exact Handed.modSec _ _ _ fun _ => ⟨rfl, rfl, rfl⟩)).trans (Handed.note _ _)

theorem Handed.markSequence (s : State) (i k : Nat) : Handed s (s.markSequence i k) :=
  ((Handed.modSlot s i _).trans (by exact Handed.modSec _ _ _ fun _ => ⟨rfl, rfl, rfl⟩)).trans (Handed.note _ _)

theorem Handed.markVanished (s : State) (i k : Nat) : Handed s (s.markVanished i k) :=
  ((Handed.modSlot s i _).trans (by exact Handed.modSec _ _ _ fun _ => ⟨rfl, rfl, rfl⟩)).trans (Handed.note _ _)

theorem Handed.markPassed (s : State) (i : Nat) : Handed s (s.markPassed i) := (Handed.modSlot s i _).trans (Handed.note _ _)

theorem Handed.markOccupied (old s : State) (i : Nat) (l : List Nat) : Handed s (markOccupied old s i l) :=
  Handed.each s _ _ fun t k => Handed.markUnexpected t i k

theorem Handed.releaseSection (s : State) (i : Nat) (d : RouteDef) (r : Nat) : Handed s (s.releaseSection i d r) := by
  unfold State.releaseSection
  exact (((Handed.freeSec s _ _).trans (Handed.each _ _ _ fun t p => Handed.freePt t _ _)).trans
    (Handed.releaseClaims _ _ _)).trans (Handed.modSlot _ _ _)

theorem Handed.releaseFrom (s : State) (i : Nat) (d : RouteDef) (h fuel r : Nat) : Handed s (s.releaseFrom i d h fuel r) := by
  induction fuel generalizing s r with
  | zero => exact Handed.refl s
  | succ n ih => exact Handed.ite ((Handed.releaseSection s i d r).trans (ih _ _)) (Handed.refl s)

theorem Handed.berth (s : State) (i : Nat) (d : RouteDef) : Handed s (s.berth i d) :=
  Handed.ite (Handed.endSlot s i _) (Handed.modSlot s i _)

theorem Handed.tryBerth (s : State) (i : Nat) (d : RouteDef) (h : Nat) : Handed s (s.tryBerth i d h) :=
  Handed.ite (Handed.berth s i d) (Handed.refl s)

theorem Handed.tryLast (s : State) (i : Nat) (d : RouteDef) (h : Nat) : Handed s (s.tryLast i d h) :=
  Handed.ite (Handed.endSlot s i _) (Handed.refl s)

theorem Handed.tryVanished (old s : State) (i : Nat) (d : RouteDef) (h : Nat) : Handed s (tryVanished old s i d h) := by
  unfold Machine.tryVanished
  split
  · exact Handed.markVanished s i _
  · exact Handed.refl s

theorem Handed.evaluateFrom (old s : State) (i : Nat) (d : RouteDef) (h r : Nat) : Handed s (evaluateFrom old s i d h r) := by
  unfold Machine.evaluateFrom
  split
  · exact (Handed.each s _ _ fun t x => Handed.markSequence t i x).trans (Handed.tryVanished old _ i d h)
  · exact (((Handed.tryVanished old s i d h).trans (Handed.releaseFrom _ _ _ _ _ _)).trans (Handed.tryBerth _ _ _ _)).trans
      (Handed.tryLast _ _ _ _)

theorem Handed.evaluate (old s : State) (i : Nat) : Handed s (evaluate old s i) := by
  unfold Machine.evaluate
  split
  · have k := fun x => (Handed.modSlot s i fun k => { k with head := some x }).trans
      (Handed.ite (c := x < (s.slotRoute i).path.length)
        (Handed.markOccupied old _ i (s.slotRoute i).overlapSecs) (Handed.refl _))
    exact (k _).trans (Handed.ite (Handed.refl _) (Handed.evaluateFrom _ _ _ _ _ _))
  · exact Handed.refl s

theorem Handed.takeEntry (s : State) (i : Nat) : Handed s (s.takeEntry i) :=
  (((Handed.setAspect s _ _ (.inr rfl)).trans (Handed.freeSig _ _ _)).trans (Handed.modSlot _ _ _)).trans (Handed.note _ _)

theorem Handed.enter (old s : State) (i : Nat) : Handed s (enter old s i) := by
  unfold Machine.enter
  refine Handed.trans ?_ (Handed.evaluate _ _ _)
  refine Handed.trans (Handed.takeEntry s i) ?_
  split
  · exact Handed.markSequence _ _ _
  · exact Handed.refl _

theorem Handed.tryProve (s : State) (i : Nat) : Handed s (s.tryProve i) := Handed.ite (Handed.modSlot s i _) (Handed.refl s)

theorem Handed.react (old s : State) (i : Nat) : Handed s (react old s i) := by
  unfold Machine.react
  split
  · exact Handed.refl s
  · exact Handed.ite (Handed.ite (Handed.endSlot s i _) ((Handed.refreshPending s i).trans (Handed.tryClear _ i)))
      ((Handed.markOccupied old s i _).trans (Handed.endSlot _ i _))
  · have h := (Handed.markOccupied old s i (s.slotRoute i).sections).trans (Handed.refreshPending _ i)
    exact h.trans (Handed.ite (Handed.tryProve _ i) (Handed.hold _ i))
  · exact Handed.ite (Handed.enter old s i)
      ((Handed.markOccupied old s i (s.slotRoute i).beyondEntry).trans (Handed.ite (Handed.refl _) (Handed.hold _ i)))
  · exact Handed.ite ((Handed.markPassed s i).trans (Handed.enter old _ i))
      ((Handed.markOccupied old s i (s.slotRoute i).beyondEntry).trans (Handed.modSlot _ i _))
  · exact Handed.ite ((Handed.markPassed s i).trans (Handed.enter old _ i)) (Handed.markOccupied old s i _)
  · exact Handed.ite (Handed.refl s)
      ((Handed.ite (Handed.markPassed s i) (Handed.refl s)).trans (Handed.markOccupied old _ i _))
  · exact Handed.ite (Handed.evaluate old s i) (Handed.refl s)
  · exact Handed.ite (Handed.evaluate old s i) (Handed.refl s)

/-! ### What a change does to a port and to the tables -/

theorem Handed.endReceiving (s : State) (p : Nat) : Handed s (s.endReceiving p) :=
  (Handed.freeSec s _ _).trans (Handed.modPort _ _ _ fun q => by
    by_cases h : q.withdrawn = true
    · rw [if_pos h]; exact ⟨rfl, rfl, rfl, rfl, rfl, rfl, rfl, rfl, .inl rfl⟩
    · rw [if_neg h]; exact ⟨rfl, rfl, rfl, rfl, rfl, rfl, rfl, rfl, .inl rfl⟩)

theorem Handed.portEdges (old s : State) (p : Nat) : Handed s (portEdges old s p) := by
  unfold Machine.portEdges
  refine Handed.ite (Handed.refl s) ?_
  split
  · exact Handed.ite (Handed.endReceiving s p)
      (Handed.ite (Handed.modPort s p _ fun _ => ⟨rfl, rfl, rfl, rfl, rfl, rfl, rfl, rfl, .inl rfl⟩) (Handed.refl s))
  · exact Handed.ite (Handed.endReceiving s p) (Handed.refl s)
  · exact Handed.refl s

theorem watchEntry_asked (s : State) (x : RemoteEntry) : ((s.watchEntry x).tag, (s.watchEntry x).ask) = (x.tag, x.ask) := by
  unfold State.watchEntry
  simp only
  split
  · rfl
  · split
    · split <;> rfl
    · split <;> rfl
    · rfl

theorem Handed.watchTables (s : State) : Handed s s.watchTables :=
  { Handed.refl s with
    links := by simp [State.watchTables]
    link := fun l => by
      simp only [State.link, State.watchTables, List.getD_eq_getElem?_getD, List.getElem?_map]
      rcases s.bdu.links[l]? with _ | k
      · exact LinkKept.refl _
      · refine ⟨rfl, rfl, rfl, rfl, rfl, rfl, rfl, rfl, ?_⟩
        simp only [Option.map_some, Option.getD_some, Link.asked, List.map_map]
        congr 1
        funext x
        cases x with
        | none => rfl
        | some y => simp [watchEntry_asked] }

/-! ### One act -/

theorem Handed.handOn (old s : State) : Handed s (handOn old s) := by
  unfold Machine.handOn
  exact (((Handed.each s _ _ fun t i => Handed.watchClaims old t i).trans (Handed.each _ _ _ fun t i => Handed.react old t i)).trans
    (Handed.each _ _ _ fun t p => Handed.portEdges old t p)).trans (Handed.watchTables _)

theorem Handed.retryLoop (fuel : Nat) (s : State) : Handed s (State.retryLoop fuel s) := by
  induction fuel generalizing s with
  | zero => exact Handed.due s false
  | succ n ih =>
    refine Handed.ite ?_ (Handed.due s false)
    exact (((Handed.due s false).trans (Handed.retryPass _)).trans (Handed.handOn _ _)).trans (ih _)

theorem Handed.noteIf (s : State) (n : Nat) (changed : Nat → Bool) (ref : Nat → Ref) : Handed s (s.noteIf n changed ref) :=
  Handed.each s _ _ fun t i => Handed.note t (ref i)

theorem Handed.noteChanges (old s : State) : Handed s (noteChanges old s) := by
  unfold Machine.noteChanges
  exact ((((((((Handed.noteIf s _ _ _).trans (Handed.noteIf _ _ _ _)).trans (Handed.noteIf _ _ _ _)).trans
    (Handed.noteIf _ _ _ _)).trans (Handed.noteIf _ _ _ _)).trans (Handed.noteIf _ _ _ _)).trans
    (Handed.ite (Handed.note _ _) (Handed.refl _))).trans (Handed.ite (Handed.note _ _) (Handed.refl _)))

theorem Handed.send (s : State) (l : Nat) : Handed s (s.send l) :=
  Handed.modLink s l _ fun _ => ⟨rfl, rfl, rfl, rfl, rfl, rfl, rfl, rfl, rfl⟩

theorem Handed.sendChanges (s : State) : Handed s s.sendChanges :=
  Handed.each s _ _ fun t l => Handed.ite (Handed.send t l) (Handed.refl t)

/-- All that the rest of an act does after its own change. -/
theorem Handed.finish (old s : State) : Handed s (finish old s) := by
  unfold Machine.finish
  exact ((((Handed.handOn old s).trans (Handed.handOn _ _)).trans (Handed.retryLoop _ _)).trans (Handed.noteChanges _ _)).trans
    (Handed.sendChanges _)

end Sys2Proof.Machine
end

