-- ==== Sys2Proof/Laws/Answer.lean ====
section
/-! SUPPORT. What a command of the host that is taken at once comes to: its reply on the line, its effect, what follows it. -/

namespace Sys2Proof.Machine

theorem Handed.follows {s t : State} (h : Handed s t) : Follows s t where
  mdc := h.mdc
  sds := h.sds
  flu := h.flu
  secRestr := h.secRestrMap
  ptRestr := h.ptRestrMap
  sigRestr := h.sigRestrMap
  holders := h.holders
  gateCentre := h.gateCentre
  gatePanel := h.gatePanel
  rx := h.rx
  pending := h.pending
  freeCount := h.freeCount
  sections := h.sections
  points := h.points
  signals := h.signals
  slots := h.slots
  links := h.links
  ports := h.ports
  sec := h.sec
  pt := h.pt
  sig := h.sig
  link := h.link
  port := h.port
  store := h.store

theorem Follows.refl (s : State) : Follows s s := (Handed.refl s).follows

theorem Follows.image {s t : State} (h : Follows s t) : t.image = s.image := by simp [State.image, h.sds]
theorem Follows.operational {s t : State} (h : Follows s t) : t.operational = s.operational := by
  simp [State.operational, h.mdc]
theorem Follows.throwLimit {s t : State} (h : Follows s t) : t.throwLimit = s.throwLimit := by
  simp [State.throwLimit, h.image]

theorem Follows.trans {s t u : State} (h : Follows s t) (k : Follows t u) : Follows s u where
  mdc := k.mdc.trans h.mdc
  sds := k.sds.trans h.sds
  flu := k.flu.trans h.flu
  secRestr := k.secRestr.trans h.secRestr
  ptRestr := k.ptRestr.trans h.ptRestr
  sigRestr := k.sigRestr.trans h.sigRestr
  holders := k.holders.trans h.holders
  gateCentre := k.gateCentre.trans h.gateCentre
  gatePanel := k.gatePanel.trans h.gatePanel
  rx := k.rx.trans h.rx
  pending := k.pending.trans h.pending
  freeCount := k.freeCount.trans h.freeCount
  sections := k.sections.trans h.sections
  points := k.points.trans h.points
  signals := k.signals.trans h.signals
  slots := k.slots.trans h.slots
  links := k.links.trans h.links
  ports := k.ports.trans h.ports
  sec i := (h.sec i).trans (k.sec i)
  pt i := (h.pt i).trans (by have := k.pt i; rwa [h.operational, h.throwLimit] at this)
  sig i := (h.sig i).trans (by have := k.sig i; rwa [h.operational] at this)
  link l := (h.link l).trans (k.link l)
  port p := (h.port p).trans (k.port p)
  store := k.store.trans h.store

/-- A change of the line's fields alone is something that may follow. -/
theorem Follows.line (s : State) (l : Option Frame) (rq : List Frame) (nq : List Ref) (n : Nat) (iq : List QCmd) (ip : Option QCmd) :
    Follows s { s with slu := { s.slu with line := l, respQ := rq, noticeQ := nq, noticeCount := n, inputQ := iq, inProgress := ip } } :=
  { Follows.refl s with }

/-! ### The arbiter (R183) -/

theorem sendNotice_keeps (s : State) (l : List Ref) : ∃ a b c,
    s.sendNotice l = { s with slu := { s.slu with line := a, noticeQ := b, noticeCount := c } } := by
  induction l with
  | nil => exact ⟨_, _, _, rfl⟩
  | cons r l ih =>
    unfold State.sendNotice
    split
    · exact ⟨_, _, _, rfl⟩
    · exact ih

/-- The arbiter changes the line, the response queue, the notice queue and the notice count, nothing else. -/
theorem arbiter_keeps (s : State) : ∃ a b c d,
    s.arbiter = { s with slu := { s.slu with line := a, respQ := b, noticeQ := c, noticeCount := d } } := by
  unfold State.arbiter
  split
  · exact ⟨s.slu.line, s.slu.respQ, s.slu.noticeQ, s.slu.noticeCount, rfl⟩
  · exact ⟨_, _, s.slu.noticeQ, s.slu.noticeCount, rfl⟩
  · split
    · obtain ⟨a, b, c, h⟩ := sendNotice_keeps s s.slu.noticeQ
      exact ⟨a, s.slu.respQ, b, c, h⟩
    · exact ⟨s.slu.line, s.slu.respQ, s.slu.noticeQ, s.slu.noticeCount, rfl⟩

theorem Follows.arbiter (s : State) : Follows s s.arbiter := by
  obtain ⟨a, b, c, d, h⟩ := arbiter_keeps s
  rw [h]; exact Follows.line s a b c d s.slu.inputQ s.slu.inProgress

@[simp] theorem arbiter_inputQ (s : State) : s.arbiter.slu.inputQ = s.slu.inputQ := by
  obtain ⟨a, b, c, d, h⟩ := arbiter_keeps s; rw [h]
@[simp] theorem arbiter_inProgress (s : State) : s.arbiter.slu.inProgress = s.slu.inProgress := by
  obtain ⟨a, b, c, d, h⟩ := arbiter_keeps s; rw [h]

/-- A served line stands as it is. -/
theorem arbiter_served {s : State} (h : s.served) : s.arbiter = s := by
  unfold State.arbiter
  split
  · rfl
  · rename_i hl hr; simp [(h hl).1] at hr
  · rename_i hl _
    split
    · rw [(h hl).2]; unfold State.sendNotice; rw [← (h hl).2]
    · rfl

/-- A frame placed last goes out last, where a free line has no response before it. -/
theorem outgoing_respond {s : State} {f : Frame} (h : s.slu.line = none → s.slu.respQ = []) :
    (s.respond f).arbiter.outgoing = s.outgoing ++ [f] := by
  unfold State.arbiter State.respond State.outgoing
  cases hl : s.slu.line with
  | some g => simp [hl]
  | none => simp [h hl]

/-! ### A command taken at once (R181) -/

theorem exec_rowOf (o : Originator) (tag : Nat) (c : Cmd) (s : State) : exec (rowOf o tag c) s = .next (s.arrive o tag c) := by
  cases c <;> rfl

/-- The frames, the input queue, the command in progress and the model's own fields are as they were. -/
structure LineKept (s t : State) : Prop where
  line : t.slu.line = s.slu.line
  respQ : t.slu.respQ = s.slu.respQ
  inputQ : t.slu.inputQ = s.slu.inputQ
  inProgress : t.slu.inProgress = s.slu.inProgress
  noticeCount : t.slu.noticeCount = s.slu.noticeCount
  rx : t.slu.rx = s.slu.rx
  power : t.mdc.power = s.mdc.power
  pending : t.pending = s.pending
  freeCount : t.freeCount = s.freeCount
  noticeQ : s.slu.noticeQ <+: t.slu.noticeQ
  nodup : s.slu.noticeQ.Nodup → t.slu.noticeQ.Nodup

theorem LineKept.refl (s : State) : LineKept s s := ⟨rfl, rfl, rfl, rfl, rfl, rfl, rfl, rfl, rfl, List.prefix_rfl, id⟩

theorem LineKept.trans {s t u : State} (h : LineKept s t) (k : LineKept t u) : LineKept s u :=
  ⟨k.line.trans h.line, k.respQ.trans h.respQ, k.inputQ.trans h.inputQ, k.inProgress.trans h.inProgress,
    k.noticeCount.trans h.noticeCount, k.rx.trans h.rx, k.power.trans h.power, k.pending.trans h.pending,
    k.freeCount.trans h.freeCount, h.noticeQ.trans k.noticeQ, k.nodup ∘ h.nodup⟩

theorem Handed.lineKept {s t : State} (h : Handed s t) : LineKept s t :=
  ⟨h.line, h.respQ, h.inputQ, h.inProgress, h.noticeCount, h.rx, by rw [h.mdc], h.pending, h.freeCount, h.noticeQ, h.nodup⟩

theorem LineKept.each {α : Type} (s : State) (l : List α) (f : State → α → State) (h : ∀ t x, LineKept t (f t x)) :
    LineKept s (s.each l f) := by
  suffices ∀ t, LineKept s t → LineKept s (l.foldl f t) from this s (LineKept.refl s)
  induction l with
  | nil => exact fun t ht => ht
  | cons x l ih => exact fun t ht => ih _ (ht.trans (h t x))

theorem LineKept.ite {s t u : State} {c : Prop} [Decidable c] (h : LineKept s t) (k : LineKept s u) :
    LineKept s (if c then t else u) := by
  split
  · exact h
  · exact k

theorem LineKept.modPt (s : State) (i : Nat) (f : PointRec → PointRec) : LineKept s (s.modPt i f) := { LineKept.refl s with }
theorem LineKept.modSec (s : State) (i : Nat) (f : SectionRec → SectionRec) : LineKept s (s.modSec i f) := { LineKept.refl s with }
theorem LineKept.modSig (s : State) (i : Nat) (f : SignalRec → SignalRec) : LineKept s (s.modSig i f) := { LineKept.refl s with }
theorem LineKept.modSlot (s : State) (i : Nat) (f : Slot → Slot) : LineKept s (s.modSlot i f) := { LineKept.refl s with }
theorem LineKept.modPort (s : State) (i : Nat) (f : Port → Port) : LineKept s (s.modPort i f) := { LineKept.refl s with }
theorem LineKept.modLink (s : State) (i : Nat) (f : Link → Link) : LineKept s (s.modLink i f) := { LineKept.refl s with }
theorem LineKept.setAspect (s : State) (i : Nat) (a : Aspect) : LineKept s (s.setAspect i a) := { LineKept.refl s with }
theorem LineKept.setHolder (s : State) (i : Nat) (a : Holder) : LineKept s (s.setHolder i a) := { LineKept.refl s with }
theorem LineKept.setGate (s : State) (o : Originator) (g : Option Gate) : LineKept s (s.setGate o g) := by
  cases o <;> exact { LineKept.refl s with }
theorem LineKept.leaveStore (s : State) (n : Nat) (r : Removal) : LineKept s (s.leaveStore n r) := { LineKept.refl s with }
theorem LineKept.note (s : State) (r : Ref) : LineKept s (s.note r) := (Handed.note s r).lineKept

theorem LineKept.setClearing (s : State) (i : Nat) : LineKept s (s.setClearing i) :=
  (LineKept.modSlot s i _).trans (LineKept.setAspect _ _ _)

theorem LineKept.addRestriction (s : State) (x : Restriction) : LineKept s (s.addRestriction x) := by
  cases x <;> exact { LineKept.refl s with }
theorem LineKept.removeRestriction (s : State) (x : Restriction) : LineKept s (s.removeRestriction x) := by
  cases x <;> exact { LineKept.refl s with }

theorem LineKept.freeSec (s : State) (i : Nat) (o : Owner) : LineKept s (s.freeSec i o) := (Handed.freeSec s i o).lineKept

theorem LineKept.withdrawIncoming (s : State) (p : Nat) : LineKept s (s.withdrawIncoming p) := by
  unfold State.withdrawIncoming State.freeAcceptance
  split
  · exact (LineKept.freeSec s _ _).trans (LineKept.modPort _ _ _)
  · exact LineKept.modPort _ _ _
  · exact LineKept.modPort _ _ _
  · exact LineKept.modPort _ _ _
  · exact LineKept.refl s

theorem LineKept.releaseEntry (s : State) (l e : Nat) : LineKept s (s.releaseEntry l e) := by
  unfold State.releaseEntry
  split
  · exact LineKept.refl s
  · rename_i x _
    have h : ∀ y, LineKept s y → LineKept s ((y.each x.claims fun t c => t.dropCount c.what).setEntry l e none) := fun y hy =>
      (hy.trans (Handed.dropAll y x.claims).lineKept).trans (LineKept.modLink _ _ _)
    split
    · exact h _ (LineKept.freeSec s _ _)
    · exact h _ (Handed.freePt s _ _).lineKept
    · exact h _ (LineKept.refl s)

/-! ### The effects of the commands -/

theorem lineKept_cmdSetRoute (s : State) (o : Originator) (r st lt : Nat) : LineKept s (s.cmdSetRoute o r st lt).1 := by
  unfold State.cmdSetRoute
  split
  · exact LineKept.refl s
  · split
    · rename_i i cs d hc _
      exact (Handed.acceptRoute s o d i cs (routeChecks_operational hc)).lineKept
    · split
      · exact { LineKept.refl s with }
      · exact LineKept.refl s
    · exact LineKept.refl s
    · exact LineKept.refl s

theorem lineKept_cmdReclear (s : State) (o : Originator) (r : Nat) : LineKept s (s.cmdReclear o r).1 := by
  unfold State.cmdReclear
  split
  · exact LineKept.refl s
  · exact LineKept.refl s
  · split
    · exact LineKept.refl s
    · split
      · exact LineKept.refl s
      · exact ((LineKept.setClearing s _).trans (LineKept.modSlot _ _ _)).trans (LineKept.modSlot _ _ _)

theorem lineKept_cancelLive (s : State) (i : Nat) : LineKept s (s.cancelLive i).1 := by
  unfold State.cancelLive
  split
  · exact (Handed.endSlot s i _).lineKept
  · exact (Handed.cancelCleared s i).lineKept
  · exact (Handed.cancelCleared s i).lineKept
  · exact (Handed.cancelCleared s i).lineKept
  all_goals exact LineKept.refl s

theorem lineKept_cmdCancelRoute (s : State) (o : Originator) (r : Nat) : LineKept s (s.cmdCancelRoute o r).1 := by
  unfold State.cmdCancelRoute
  split
  · exact LineKept.refl s
  · exact lineKept_cancelLive s _
  · split
    · exact (LineKept.leaveStore s _ _).trans (LineKept.note _ _)
    · exact LineKept.refl s

theorem LineKept.forcedRelease (s : State) (i : Nat) : LineKept s (s.forcedRelease i) := by
  have h : ∀ t, LineKept s t → LineKept s (t.beginRelease i) := fun t ht => ht.trans (LineKept.modSlot t i _)
  unfold State.forcedRelease
  split
  · exact (Handed.endSlot s i _).lineKept
  · exact h _ (Handed.stopEntry s i).lineKept
  · exact h _ (Handed.stopEntry s i).lineKept
  · exact h _ (Handed.stopEntry s i).lineKept
  · exact h _ (LineKept.refl s)
  · exact h _ (LineKept.refl s)
  · exact h _ (LineKept.refl s)
  · exact LineKept.refl s
  · exact LineKept.refl s

theorem LineKept.clearRemote (s : State) (l : Nat) : LineKept s (s.clearRemote l) :=
  (LineKept.each s _ _ fun t e => LineKept.releaseEntry t l e).trans (LineKept.each _ _ _ fun t p => LineKept.withdrawIncoming t p)

theorem LineKept.removeNow (s : State) (cls idx code : Nat) : LineKept s (s.removeNow cls idx code) := by
  unfold State.removeNow
  split
  · exact LineKept.removeRestriction s _
  · exact LineKept.refl s

theorem lineKept_innerAct (s : State) (o : Originator) (x : Inner) : LineKept s (s.innerAct o x).1 := by
  cases x with
  | restoreSection i => exact LineKept.modSec s i _
  | forcedRelease i r => exact LineKept.forcedRelease s i
  | removeRestriction a b c => exact LineKept.removeNow s a b c
  | forceDirection p => exact LineKept.modPort s p _
  | clearRemoteClaims l => exact LineKept.clearRemote s l
  | takeControl a => exact LineKept.setHolder s a _
  | restart k => exact LineKept.refl s
  | other c p => exact LineKept.refl s

theorem lineKept_cmdExecute (s : State) (o : Originator) (x : Inner) : LineKept s (s.cmdExecute o x).1 := by
  unfold State.cmdExecute
  split
  · exact LineKept.setGate s o none
  · exact (LineKept.setGate s o none).trans (lineKept_innerAct _ o x)

theorem lineKept_cmdPrepare (s : State) (o : Originator) (x : Inner) : LineKept s (s.cmdPrepare o x).1 := by
  unfold State.cmdPrepare
  split
  · exact LineKept.setGate s o none
  · split
    · exact LineKept.setGate s o none
    · split
      · exact LineKept.setGate s o none
      · exact LineKept.setGate s o _

theorem query_state (s : State) (r : Ref) : (s.query r).1 = s := by
  unfold State.query
  split <;> rfl

theorem handOver_query (s : State) (o : Originator) (c : Cmd) (h : isQuery c = true) : (s.handOver o c).1 = s := by
  cases c with
  | status => exact query_state s _
  | getElement a b =>
    show (s.cmdGetElement a b).1 = s
    unfold State.cmdGetElement
    split
    · rfl
    · exact query_state s _
  | getPort p => show (s.cmdGetPort p).1 = s; unfold State.cmdGetPort; split; rfl; exact query_state s _
  | getLink p => show (s.cmdGetLink p).1 = s; unfold State.cmdGetLink; split; rfl; exact query_state s _
  | getInstance p => show (s.cmdGetInstance p).1 = s; unfold State.cmdGetInstance; split; rfl; exact query_state s _
  | readTable t k =>
    show (s.cmdReadTable t k).1 = s
    unfold State.cmdReadTable
    split
    · split; rfl; split <;> rfl
    · split <;> rfl
    · split <;> rfl
    · split; rfl; split <;> rfl
  | _ => simp [isQuery] at h

theorem lineKept_cmdGiveControl (s : State) (o : Originator) (a h : Nat) : LineKept s (s.cmdGiveControl o a h).1 := by
  unfold State.cmdGiveControl
  split
  · exact LineKept.refl s
  · split
    · exact LineKept.refl s
    · split
      · exact LineKept.refl s
      · split
        · exact LineKept.refl s
        · exact LineKept.setHolder s _ _

theorem lineKept_cmdMovePoint (s : State) (o : Originator) (i p : Nat) : LineKept s (s.cmdMovePoint o i p).1 := by
  unfold State.cmdMovePoint
  split
  · exact LineKept.refl s
  · split
    · exact LineKept.refl s
    · split
      · exact LineKept.refl s
      · split
        · exact LineKept.refl s
        · split
          · exact LineKept.refl s
          · exact LineKept.modPt s i _

theorem lineKept_cmdAddRestriction (s : State) (o : Originator) (a b c d : Nat) :
    LineKept s (s.cmdAddRestriction o a b c d).1 := by
  unfold State.cmdAddRestriction
  split
  · exact LineKept.refl s
  · split
    · exact LineKept.refl s
    · exact LineKept.addRestriction s _

theorem lineKept_cmdRequestDirection (s : State) (o : Originator) (p : Nat) : LineKept s (s.cmdRequestDirection o p).1 := by
  unfold State.cmdRequestDirection
  split
  · exact LineKept.refl s
  · simp only
    iterate 7 (split; exact LineKept.refl s)
    exact LineKept.modPort s p _

theorem lineKept_cmdLoadBegin (s : State) (o : Originator) (n : Nat) : LineKept s (s.cmdLoadBegin o n).1 := by
  unfold State.cmdLoadBegin
  split
  · exact LineKept.refl s
  · split
    · exact LineKept.refl s
    · exact { LineKept.refl s with }

theorem lineKept_cmdLoadSegment (s : State) (o : Originator) (n : Nat) (bs : List Byte) :
    LineKept s (s.cmdLoadSegment o n bs).1 := by
  unfold State.cmdLoadSegment
  split
  · exact LineKept.refl s
  · split
    · exact LineKept.refl s
    · exact { LineKept.refl s with }

/-- The effect of a command touches no frame, no queue of commands and no field of the model's own. -/
theorem lineKept_handOver (s : State) (o : Originator) (c : Cmd) : LineKept s (s.handOver o c).1 := by
  cases c with
  | loadBegin n => exact lineKept_cmdLoadBegin s o n
  | loadSegment n bs => exact lineKept_cmdLoadSegment s o n bs
  | setRoute a b c => exact lineKept_cmdSetRoute s o a b c
  | reclear a => exact lineKept_cmdReclear s o a
  | cancelRoute a => exact lineKept_cmdCancelRoute s o a
  | movePoint a b => exact lineKept_cmdMovePoint s o a b
  | addRestriction a b c d => exact lineKept_cmdAddRestriction s o a b c d
  | requestDirection a => exact lineKept_cmdRequestDirection s o a
  | giveControl a b => exact lineKept_cmdGiveControl s o a b
  | prepare x => exact lineKept_cmdPrepare s o x
  | execute x => exact lineKept_cmdExecute s o x
  | status => rw [handOver_query s o _ rfl]; exact LineKept.refl s
  | getElement a b => rw [handOver_query s o _ rfl]; exact LineKept.refl s
  | getPort a => rw [handOver_query s o _ rfl]; exact LineKept.refl s
  | getLink a => rw [handOver_query s o _ rfl]; exact LineKept.refl s
  | getInstance a => rw [handOver_query s o _ rfl]; exact LineKept.refl s
  | readTable a b => rw [handOver_query s o _ rfl]; exact LineKept.refl s
  | loadEnd _ _ => exact LineKept.refl s
  | activate => exact LineKept.refl s
  | forcedRelease _ _ => exact LineKept.refl s
  | removeRestriction _ _ _ => exact LineKept.refl s
  | restoreSection _ => exact LineKept.refl s
  | forceDirection _ => exact LineKept.refl s
  | clearRemoteClaims _ => exact LineKept.refl s
  | takeControl _ => exact LineKept.refl s
  | restart _ => exact LineKept.refl s

theorem runCmd_inputQ (s : State) (q : QCmd) : (s.runCmd q).slu.inputQ = s.slu.inputQ := by
  have h1 : (s.answerNow q).slu.inputQ = s.slu.inputQ := by
    unfold State.answerNow
    split
    · unfold State.restartNow State.blankStart
      split <;> rfl
    · exact ((lineKept_handOver s q.originator q.cmd).trans (Handed.finish s _).lineKept).inputQ
  have h2 : (s.answerQuery q).slu.inputQ = s.slu.inputQ := rfl
  unfold State.runCmd
  split
  · split <;> rfl
  · split <;> rfl
  · split
    · exact h2
    · exact h1

/-- With the receiver hunting, a good frame is queued as it comes. -/
theorem goodFrame_hunting {s : State} (h : s.slu.rx = .hunting) (q : QCmd) : s.goodFrame q = (s.enqueue q).settleLine := by
  have e : s.setRx .hunting = s := by cases s with | mk _ _ _ _ _ _ u => cases u; simp_all [State.setRx]
  unfold State.goodFrame; rw [e]

/-- A command that may be taken at once is run, and the arbiter acts; no command is left waiting. -/
theorem arrive_ready {s : State} (h : s.ready) {o : Originator} {tag : Nat} {c : Cmd} (hc : cmdSized c = true) :
    s.arrive o tag c = (s.runCmd ⟨o, tag, c⟩).arbiter := by
  have ha : s.alive = true := by simp [State.alive, h.running]
  have e : { s with slu.inputQ := [] } = s := by
    cases s with | mk _ _ _ _ _ _ u => cases u; have := h.empty; simp_all
  have hd : ¬ s.slu.rx = .draining := by rw [h.hunting]; decide
  unfold State.arrive State.submit
  rw [if_pos ha, if_neg hd, if_pos hc, goodFrame_hunting h.hunting]
  unfold State.enqueue State.settleLine Config.inputDepth
  simp only [h.empty, List.length_nil]
  have hs : ({ s with slu.inputQ := [] ++ [⟨o, tag, c⟩] } : State).arbiter = { s with slu.inputQ := [⟨o, tag, c⟩] } :=
    arbiter_served fun hl => h.served hl
  rw [if_neg (by decide), hs]
  unfold State.takeCommands
  have hm : ({ s with slu.inputQ := [⟨o, tag, c⟩] } : State).mayTake = true := by
    simp [State.mayTake, h.running, h.idle, h.room, Config.responseDepth]
  show (if ({ s with slu.inputQ := [⟨o, tag, c⟩] } : State).mayTake = true then
    State.takeCommands 4 (({ s with slu.inputQ := [] } : State).runCmd ⟨o, tag, c⟩).arbiter else _) = _
  rw [if_pos hm, e]
  unfold State.takeCommands
  simp only [arbiter_inputQ, runCmd_inputQ, h.empty]

/-- A reply in an empty-handed response queue or behind others: only the line and the response queue change. -/
theorem respond_arbiter (s : State) (f : Frame) : (s.respond f).arbiter =
    { s with slu.line := (s.respond f).arbiter.slu.line, slu.respQ := (s.respond f).arbiter.slu.respQ } := by
  obtain ⟨m, d, e, f1, r, b, u, x, y, z⟩ := s
  obtain ⟨h1, h2, h3, h4, h5, h6, rq, h8, h9, ln⟩ := u
  cases ln with
  | some g => rfl
  | none => cases rq <;> rfl

/-- A command answered in its own act: its effect, what follows, its reply last on the line. -/
theorem answered_now {s : State} (h : s.ready) {o : Originator} {tag : Nat} {c : Cmd} (hc : cmdSized c = true)
    (hl : lastingCmd c = false) (hq : isQuery c = false) (hr : s.restartOf ⟨o, tag, c⟩ = none) :
    ∃ t, Answered s (rowOf o tag c) (.reply tag (cmdCode c) o (s.handOver o c).2.1 (s.handOver o c).2.2) (s.handOver o c).1 t := by
  have k := (lineKept_handOver s o c).trans (Handed.finish s _).lineKept
  have e : s.runCmd ⟨o, tag, c⟩ = (finish s (s.handOver o c).1).reply ⟨o, tag, c⟩ (s.handOver o c).2.1 (s.handOver o c).2.2 := by
    have e1 : s.runCmd ⟨o, tag, c⟩ = s.answerNow ⟨o, tag, c⟩ := by
      cases c <;> first | rfl | (exfalso; simp [lastingCmd] at hl; done) | (exfalso; simp [isQuery] at hq)
    rw [e1]; unfold State.answerNow; rw [hr]
  refine ⟨((finish s (s.handOver o c).1).reply ⟨o, tag, c⟩ (s.handOver o c).2.1 (s.handOver o c).2.2).arbiter,
    ⟨?_, ?_, ?_, ?_, ?_, ?_⟩⟩
  · rw [exec_rowOf, arrive_ready h hc, e]
  · unfold State.reply; rw [outgoing_respond]
    · unfold State.outgoing; rw [k.line, k.respQ]
    · rw [k.line, k.respQ]; exact fun hn => (h.served hn).1
  · exact respond_arbiter _ _
  · exact (Handed.finish s _).follows.trans (Follows.trans (Follows.line _ _ _ _ _ _ _) (Follows.arbiter _))
  · rw [arbiter_inputQ]; exact k.inputQ.trans h.empty
  · rw [arbiter_inProgress]; exact k.inProgress.trans h.idle

/-- A reply made from the state as it stands. -/
theorem replied {s : State} (h : s.ready) {o : Originator} {tag : Nat} {c : Cmd} {r : Res} {x : Content} (hc : cmdSized c = true)
    (e : s.runCmd ⟨o, tag, c⟩ = s.reply ⟨o, tag, c⟩ r x) : ∃ t, Replied s (rowOf o tag c) (.reply tag (cmdCode c) o r x) t :=
  ⟨(s.reply ⟨o, tag, c⟩ r x).arbiter, by rw [exec_rowOf, arrive_ready h hc, e],
    outgoing_respond fun hn => (h.served hn).1, respond_arbiter _ _⟩

/-- A query is answered from the state as it stands. -/
theorem replied_query {s : State} (h : s.ready) {o : Originator} {tag : Nat} {c : Cmd} (hq : isQuery c = true) :
    ∃ t, Replied s (rowOf o tag c) (.reply tag (cmdCode c) o (s.handOver o c).2.1 (s.handOver o c).2.2) t := by
  refine replied h (by cases c <;> first | rfl | (exfalso; simp [isQuery] at hq)) ?_
  have e1 : s.runCmd ⟨o, tag, c⟩ = s.answerQuery ⟨o, tag, c⟩ := by cases c <;> first | rfl | (exfalso; simp [isQuery] at hq)
  rw [e1]; rfl

/-- With no command waiting, serving the line is the arbiter's act alone. -/
theorem settle_empty {s : State} (h : s.slu.inputQ = []) : s.settleLine = s.arbiter := by
  unfold State.settleLine Config.inputDepth State.takeCommands
  rw [arbiter_inputQ, h]

/-- A command of a wrong payload length is answered with a fault report PARAMETERS, and the receiver drains. -/
theorem missized {s : State} (h : s.ready) {o : Originator} {tag : Nat} {c : Cmd} (hc : cmdSized c = false) :
    ∃ t, FaultSent s (rowOf o tag c) { Faults.empty with parameters := true } (some (tag, originatorCode o, cmdCode c)) t := by
  have ha : s.alive = true := by simp [State.alive, h.running]
  have hd : ¬ s.slu.rx = .draining := by rw [h.hunting]; decide
  have hr : ¬(8 ≤ s.slu.respQ.length ∨ s.slu.respQ.length = 8 - 1 ∧ s.slu.inProgress.isSome = true) := by
    have := h.room; rw [h.idle]; simp; omega
  refine ⟨((s.setRx .draining).respond _).arbiter, ?_,
    outgoing_respond (s := s.setRx .draining) fun hn => (h.served hn).1, respond_arbiter _ _⟩
  rw [exec_rowOf]
  unfold State.arrive State.submit State.badFrame State.faultReport Config.responseDepth
  rw [if_pos ha, if_neg hd, hc, if_neg (by decide)]
  simp only [State.setRx, hr, if_false]
  exact congrArg _ (settle_empty h.empty)

end Sys2Proof.Machine
end

