-- ==== Sys2Proof/Laws/Memory.lean ====
section
/-! SUPPORT. Sparse data and the load buffer: a read after a write, and that every operation keeps the canonical form. -/

namespace Sys2Proof.Machine

/-! ### Sparse data -/

section
variable {α : Type} [DecidableEq α] {d : α}

theorem Sparse.wfFrom_mono {lo lo' : Nat} {l : List (Nat × α)} (h : Sparse.wfFrom d lo l = true) (le : lo' ≤ lo) :
    Sparse.wfFrom d lo' l = true := by
  cases l with
  | nil => rfl
  | cons x l => simp only [Sparse.wfFrom, Bool.and_eq_true, decide_eq_true_eq] at h ⊢; exact ⟨⟨by omega, h.1.2⟩, h.2⟩

/-- Below the lowest number listed every number reads as unlisted. -/
theorem Sparse.get_below {lo : Nat} {l : List (Nat × α)} (h : Sparse.wfFrom d lo l = true) {i : Nat} (hi : i < lo) :
    Sparse.get d l i = d := by
  induction l generalizing lo with
  | nil => rfl
  | cons x l ih =>
    simp only [Sparse.wfFrom, Bool.and_eq_true, decide_eq_true_eq] at h
    rw [Sparse.get, if_neg (by omega)]
    exact ih h.2 (by omega)

/-- A write keeps the canonical form. -/
theorem Sparse.wfFrom_set {lo : Nat} {l : List (Nat × α)} (h : Sparse.wfFrom d lo l = true) (i : Nat) (v : α) (hi : lo ≤ i) :
    Sparse.wfFrom d lo (Sparse.set d l i v) = true := by
  induction l generalizing lo with
  | nil => unfold Sparse.set; split <;> simp_all [Sparse.wfFrom]
  | cons x l ih =>
    have hh := h
    simp only [Sparse.wfFrom, Bool.and_eq_true, decide_eq_true_eq] at h
    obtain ⟨⟨h1, h2⟩, h3⟩ := h
    unfold Sparse.set
    split
    · split
      · exact hh
      · rename_i lt nv
        simp only [Sparse.wfFrom, Bool.and_eq_true, decide_eq_true_eq]
        exact ⟨⟨hi, nv⟩, ⟨by omega, h2⟩, h3⟩
    · split
      · split
        · exact Sparse.wfFrom_mono h3 (by omega)
        · rename_i nv
          simp only [Sparse.wfFrom, Bool.and_eq_true, decide_eq_true_eq]
          exact ⟨⟨h1, nv⟩, h3⟩
      · simp only [Sparse.wfFrom, Bool.and_eq_true, decide_eq_true_eq]
        exact ⟨⟨h1, h2⟩, ih h3 (by omega)⟩

/-- A write is read back where it went; every other number reads as before. -/
theorem Sparse.get_set {lo : Nat} {l : List (Nat × α)} (h : Sparse.wfFrom d lo l = true) (i j : Nat) (v : α) :
    Sparse.get d (Sparse.set d l i v) j = if i = j then v else Sparse.get d l j := by
  induction l generalizing lo with
  | nil =>
    unfold Sparse.set
    split
    · simp_all [Sparse.get]
    · simp [Sparse.get]
  | cons x l ih =>
    simp only [Sparse.wfFrom, Bool.and_eq_true, decide_eq_true_eq] at h
    obtain ⟨⟨h1, h2⟩, h3⟩ := h
    have below : ∀ k, k ≤ x.1 → Sparse.get d l k = d := fun k hk => Sparse.get_below h3 (by omega)
    unfold Sparse.set
    split
    · split
      · rename_i lt e
        by_cases ij : i = j
        · subst ij; rw [if_pos rfl, Sparse.get, if_neg (by omega), below _ (by omega), e]
        · rw [if_neg ij]
      · simp only [Sparse.get]
    · split
      · rename_i e
        split
        · rename_i ev
          by_cases ij : i = j
          · subst ij; rw [if_pos rfl, below _ (by omega), ev]
          · rw [if_neg ij, Sparse.get, if_neg (by omega)]
        · simp only [Sparse.get]
          by_cases ij : i = j
          · subst ij; simp [← e]
          · rw [if_neg ij, if_neg (by omega), if_neg (by omega)]
      · simp only [Sparse.get]
        rw [ih h3]
        by_cases ij : i = j
        · subst ij; rw [if_pos rfl, if_neg (by omega), if_pos rfl]
        · rw [if_neg ij, if_neg ij]

theorem Sparse.wf_set {l : List (Nat × α)} (h : Sparse.wf d l = true) (i : Nat) (v : α) :
    Sparse.wf d (Sparse.set d l i v) = true := Sparse.wfFrom_set h i v (Nat.zero_le i)

/-- A number a write lists was listed before or is the one written. -/
theorem Sparse.mem_set {l : List (Nat × α)} {i : Nat} {v : α} {x : Nat × α} (h : x ∈ Sparse.set d l i v) : x ∈ l ∨ x.1 = i := by
  induction l with
  | nil => unfold Sparse.set at h; split at h <;> simp_all
  | cons y l ih =>
    unfold Sparse.set at h
    split at h
    · split at h
      · exact .inl h
      · rcases List.mem_cons.mp h with rfl | h
        · exact .inr rfl
        · exact .inl h
    · split at h
      · split at h
        · exact .inl (List.mem_cons_of_mem _ h)
        · rcases List.mem_cons.mp h with rfl | h
          · rename_i e _; exact .inr e.symm
          · exact .inl (List.mem_cons_of_mem _ h)
      · rcases List.mem_cons.mp h with rfl | h
        · exact .inl List.mem_cons_self
        · exact (ih h).imp (List.mem_cons_of_mem _) id

/-- Equal reads at every number make equal data. -/
theorem Sparse.ext {lo : Nat} {l l' : List (Nat × α)} (h : Sparse.wfFrom d lo l = true) (h' : Sparse.wfFrom d lo l' = true)
    (e : ∀ i, Sparse.get d l i = Sparse.get d l' i) : l = l' := by
  induction l generalizing lo l' with
  | nil =>
    cases l' with
    | nil => rfl
    | cons y l' =>
      simp only [Sparse.wfFrom, Bool.and_eq_true, decide_eq_true_eq] at h'
      have := e y.1
      simp [Sparse.get] at this
      exact absurd this.symm h'.1.2
  | cons x l ih =>
    cases l' with
    | nil =>
      simp only [Sparse.wfFrom, Bool.and_eq_true, decide_eq_true_eq] at h
      have := e x.1
      simp [Sparse.get] at this
      exact absurd this h.1.2
    | cons y l' =>
      simp only [Sparse.wfFrom, Bool.and_eq_true, decide_eq_true_eq] at h h'
      have hx : x.1 = y.1 := by
        rcases Nat.lt_trichotomy x.1 y.1 with lt | eq | gt
        · have := e x.1
          rw [Sparse.get, if_pos rfl, Sparse.get, if_neg (by omega), Sparse.get_below h'.2 (by omega)] at this
          exact absurd this h.1.2
        · exact eq
        · have := e y.1
          rw [Sparse.get, if_neg (by omega), Sparse.get_below h.2 (by omega), Sparse.get, if_pos rfl] at this
          exact absurd this.symm h'.1.2
      have hv : x.2 = y.2 := by
        have := e x.1
        rwa [Sparse.get, if_pos rfl, Sparse.get, if_pos hx.symm] at this
      obtain ⟨a, v⟩ := x
      obtain ⟨b, w⟩ := y
      simp only at hx hv h h'
      subst hx hv
      congr 1
      refine ih h.2 h'.2 fun i => ?_
      by_cases hi : i ≤ a
      · rw [Sparse.get_below h.2 (by omega), Sparse.get_below h'.2 (by omega)]
      · have := e i
        rwa [Sparse.get, if_neg (by omega), Sparse.get, if_neg (by omega)] at this

end

/-! ### The load buffer (R13, R14) -/

/-- A byte reads back where it was written; every other byte reads as before. -/
theorem Memory.read_write {m : List Host.Cell} (h : Memory.wf m = true) (a j : Nat) (b : Byte) :
    Memory.read (Memory.write m a b) j = if a = j then b else Memory.read m j := Sparse.get_set h a j b

theorem Memory.wf_write {m : List Host.Cell} (h : Memory.wf m = true) (a : Nat) (b : Byte) :
    Memory.wf (Memory.write m a b) = true := Sparse.wf_set h a b

theorem Memory.wf_writeAll {m : List Host.Cell} (h : Memory.wf m = true) (a : Nat) (bs : List Byte) :
    Memory.wf (Memory.writeAll m a bs) = true := by
  induction bs generalizing m a with
  | nil => exact h
  | cons b bs ih => exact ih (Memory.wf_write h a b) (a + 1)

/-- Bytes written in order read back; every byte outside them reads as before. -/
theorem Memory.read_writeAll {m : List Host.Cell} (h : Memory.wf m = true) (a : Nat) (bs : List Byte) (j : Nat) :
    Memory.read (Memory.writeAll m a bs) j = if a ≤ j ∧ j < a + bs.length then bs.getD (j - a) 0 else Memory.read m j := by
  induction bs generalizing m a with
  | nil => rw [if_neg (by simp only [List.length_nil]; omega)]; rfl
  | cons b bs ih =>
    rw [Memory.writeAll, ih (Memory.wf_write h a b), Memory.read_write h]
    simp only [List.length_cons]
    by_cases h1 : a + 1 ≤ j ∧ j < a + 1 + bs.length
    · rw [if_pos h1, if_pos (by omega), show j - a = (j - (a + 1)) + 1 by omega, List.getD_cons_succ]
    · rw [if_neg h1]
      by_cases h2 : a = j
      · subst h2; simp
      · rw [if_neg h2, if_neg (by omega)]

/-- The bytes written lie below a bound when they and the listed ones do. -/
theorem Memory.mem_writeAll {m : List Host.Cell} {n a : Nat} {bs : List Byte} (h : ∀ x ∈ m, x.1 < n) (le : a + bs.length ≤ n) :
    ∀ x ∈ Memory.writeAll m a bs, x.1 < n := by
  induction bs generalizing m a with
  | nil => exact h
  | cons b bs ih =>
    simp only [List.length_cons] at le
    exact ih (fun x hx => (Sparse.mem_set hx).elim (h x) (fun e => by omega)) (by omega)

theorem Memory.readFrom_length (m : List Host.Cell) (a n : Nat) : (Memory.readFrom m a n).length = n := by
  induction n generalizing m a with
  | zero => cases m <;> rfl
  | succ n ih =>
    cases m with
    | nil => simp [Memory.readFrom]
    | cons x m => unfold Memory.readFrom; split <;> [skip; split] <;> simp [ih]

/-- The bytes from an address on, read one by one. -/
theorem Memory.readFrom_eq {m : List Host.Cell} {lo : Nat} (h : Sparse.wfFrom Memory.unlisted lo m = true) (a n : Nat)
    (le : a ≤ lo) : Memory.readFrom m a n = (List.range' a n).map (Memory.read m) := by
  induction n generalizing m a lo with
  | zero => cases m <;> rfl
  | succ n ih =>
    rw [List.range'_succ, List.map_cons]
    cases m with
    | nil =>
      have e : ∀ a n : Nat, (List.range' a n).map (Memory.read []) = List.replicate n Memory.unlisted := fun a n =>
        List.eq_replicate_iff.mpr ⟨by simp, fun b hb => by
          obtain ⟨x, -, rfl⟩ := List.mem_map.mp hb; rfl⟩
      rw [e]; rfl
    | cons x m =>
      obtain ⟨b, v⟩ := x
      have hh := h
      simp only [Sparse.wfFrom, Bool.and_eq_true, decide_eq_true_eq] at h
      unfold Memory.readFrom
      split
      · rename_i e
        subst e
        congr 1
        · simp [Memory.read, Sparse.get]
        · rw [ih h.2 _ (Nat.le_refl _)]
          refine List.map_congr_left fun j hj => ?_
          have := List.mem_range'_1.mp hj
          rw [Memory.read, Memory.read, Sparse.get, if_neg (by omega)]
      · split
        · omega
        · congr 1
          · exact (Sparse.get_below (lo := b) (by
              simp only [Sparse.wfFrom, Bool.and_eq_true, decide_eq_true_eq]; exact ⟨⟨Nat.le_refl _, h.1.2⟩, h.2⟩) (by omega)).symm
          · exact ih (lo := b) (by
              simp only [Sparse.wfFrom, Bool.and_eq_true, decide_eq_true_eq]; exact ⟨⟨Nat.le_refl _, h.1.2⟩, h.2⟩) _ (by omega)

/-- The load buffer of the state after reset has the canonical form. -/
theorem Memory.wf_reset : Memory.wf State.reset.sds.buffer = true := rfl

/-! ### The restriction tables (R16, R38, R40) -/

/-- Dropping the numbers at or above a bound keeps the canonical form. -/
theorem wfFrom_dropAbove {α : Type} [DecidableEq α] {d : α} {lo : Nat} {l : List (Nat × α)} (n : Nat)
    (h : Sparse.wfFrom d lo l = true) : Sparse.wfFrom d lo (dropAbove n l) = true := by
  induction l generalizing lo with
  | nil => rfl
  | cons x l ih =>
    simp only [Sparse.wfFrom, Bool.and_eq_true, decide_eq_true_eq] at h
    unfold dropAbove
    rw [List.filter_cons]
    split
    · simp only [Sparse.wfFrom, Bool.and_eq_true, decide_eq_true_eq]
      exact ⟨h.1, ih h.2⟩
    · exact Sparse.wfFrom_mono (lo := x.1 + 1) (ih h.2) (by omega)

end Sys2Proof.Machine
end

