-- ==== Sys2Proof/Laws/PerInstr.lean ====
section
/-! SUPPORT. Statements about every command as syntax, one lemma per constructor of `Instr`. -/

namespace Sys2Proof.Laws

/-- The catalogue command a row is, with its originator and tag; none for an event. -/
def asCommand : Instr → Option (Originator × Nat × Cmd)
  | .loadBegin o tag len => some (o, tag, .loadBegin len)
  | .loadSegment o tag offset bytes => some (o, tag, .loadSegment offset bytes)
  | .loadEnd o tag len crc => some (o, tag, .loadEnd len crc)
  | .activate o tag => some (o, tag, .activate)
  | .setRoute o tag route store lifetime => some (o, tag, .setRoute route store lifetime)
  | .reclear o tag route => some (o, tag, .reclear route)
  | .cancelRoute o tag route => some (o, tag, .cancelRoute route)
  | .forcedRelease o tag slot route => some (o, tag, .forcedRelease slot route)
  | .movePoint o tag pt pos => some (o, tag, .movePoint pt pos)
  | .restoreSection o tag sec => some (o, tag, .restoreSection sec)
  | .addRestriction o tag cls idx restriction value => some (o, tag, .addRestriction cls idx restriction value)
  | .removeRestriction o tag cls idx restriction => some (o, tag, .removeRestriction cls idx restriction)
  | .requestDirection o tag port => some (o, tag, .requestDirection port)
  | .forceDirection o tag port => some (o, tag, .forceDirection port)
  | .clearRemoteClaims o tag link => some (o, tag, .clearRemoteClaims link)
  | .giveControl o tag area holder => some (o, tag, .giveControl area holder)
  | .takeControl o tag area => some (o, tag, .takeControl area)
  | .prepare o tag inner => some (o, tag, .prepare inner)
  | .execute o tag inner => some (o, tag, .execute inner)
  | .restart o tag kind => some (o, tag, .restart kind)
  | .status o tag => some (o, tag, .status)
  | .getElement o tag cls idx => some (o, tag, .getElement cls idx)
  | .getPort o tag port => some (o, tag, .getPort port)
  | .getLink o tag link => some (o, tag, .getLink link)
  | .getInstance o tag slot => some (o, tag, .getInstance slot)
  | .readTable o tag table start => some (o, tag, .readTable table start)
  | _ => none

/-- A well-formed command of the catalogue is its row, with a tag of one byte and a payload that fits a frame's 4 to 244
length (R179, R180); a well-formed event of an indexed object names an index of its class (00_scope.md, Conventions). -/
def OperandsFit.Statement (i : Instr) : Prop :=
  i.wf = true →
    match asCommand i with
    | some (o, tag, c) => Machine.rowOf o tag c = i ∧ tag < 256 ∧ 4 + (Machine.cmdPayload c).length ≤ 244
    | none =>
      match i with
      | .throwTimerExpiry pt => pt < 96
      | .settingTimerExpiry k => k < 48
      | .approachTimerExpiry k => k < 48
      | .releaseTimerExpiry k => k < 48
      | .overlapTimerExpiry k => k < 48
      | .storeEntryExpiry n => 1 ≤ n ∧ n ≤ 512
      | .helloReceived l _ => l < 4
      | .statusTelegramReceived l _ => l < 4
      | .haltReceived l _ => l < 4
      | .telegramDiscarded l _ => l < 4
      | .sequenceJump l _ => l < 4
      | .linkTimeout l => l < 4
      | .telegramSendTimer l => l < 4
      | .telegramChangeSpacing l => l < 4
      | _ => True

/-- An inner command's parameters fit what is left of a frame. -/
theorem innerPayload_length {x : Inner} (h : x.wf = true) : (Machine.innerPayload x).length ≤ 239 := by
  cases x <;> simp_all [Machine.innerPayload, Inner.wf, Machine.be16]

theorem OperandsFit.powerOn : OperandsFit.Statement (.powerOn) := fun _ => trivial
theorem OperandsFit.powerLoss : OperandsFit.Statement (.powerLoss) := fun _ => trivial
theorem OperandsFit.resetLineLow (lowUs : Nat) : OperandsFit.Statement (.resetLineLow lowUs) := fun _ => trivial
theorem OperandsFit.resetLineRelease : OperandsFit.Statement (.resetLineRelease) := fun _ => trivial
theorem OperandsFit.startCheckComplete : OperandsFit.Statement (.startCheckComplete) := fun _ => trivial
theorem OperandsFit.startingCrcComplete (crc : Crc32) : OperandsFit.Statement (.startingCrcComplete crc) := fun _ => trivial
theorem OperandsFit.startupTimerExpiry : OperandsFit.Statement (.startupTimerExpiry) := fun _ => trivial
theorem OperandsFit.verifyTimerExpiry : OperandsFit.Statement (.verifyTimerExpiry) := fun _ => trivial
theorem OperandsFit.verifyPassComplete (crc : Crc32) : OperandsFit.Statement (.verifyPassComplete crc) := fun _ => trivial
theorem OperandsFit.loadBegin (o : Originator) (tag len : Nat) : OperandsFit.Statement (.loadBegin o tag len) := fun h => by
  simp only [Instr.wf, fits8, fits32, Bool.and_eq_true, decide_eq_true_eq] at h
  exact ⟨rfl, by omega, by simp [Machine.cmdPayload, Machine.be16, Machine.be32]⟩
theorem OperandsFit.loadSegment (o : Originator) (tag offset : Nat) (bytes : List Byte) : OperandsFit.Statement (.loadSegment o tag offset bytes) := fun h => by
  simp only [Instr.wf, fits8, fits16, Bool.and_eq_true, decide_eq_true_eq] at h
  refine ⟨rfl, h.1.1, ?_⟩
  simp only [Machine.cmdPayload, Machine.be16, List.length_append, List.length_cons, List.length_nil]
  omega
theorem OperandsFit.loadEnd (o : Originator) (tag len : Nat) (crc : Crc32) : OperandsFit.Statement (.loadEnd o tag len crc) := fun h => by
  simp only [Instr.wf, fits8, fits32, Bool.and_eq_true, decide_eq_true_eq] at h
  exact ⟨rfl, by omega, by simp [Machine.cmdPayload, Machine.be16, Machine.be32]⟩
theorem OperandsFit.loadEndChecksComplete : OperandsFit.Statement (.loadEndChecksComplete) := fun _ => trivial
theorem OperandsFit.activate (o : Originator) (tag : Nat) : OperandsFit.Statement (.activate o tag) := fun h => by
  simp only [Instr.wf, fits8, decide_eq_true_eq] at h
  exact ⟨rfl, by omega, by simp [Machine.cmdPayload]⟩
theorem OperandsFit.activateWriteComplete (crc : Crc32) : OperandsFit.Statement (.activateWriteComplete crc) := fun _ => trivial
theorem OperandsFit.setRoute (o : Originator) (tag route store lifetime : Nat) : OperandsFit.Statement (.setRoute o tag route store lifetime) := fun h => by
  simp only [Instr.wf, fits8, fits16, Bool.and_eq_true, decide_eq_true_eq] at h
  exact ⟨rfl, by omega, by simp [Machine.cmdPayload, Machine.be16]⟩
theorem OperandsFit.reclear (o : Originator) (tag route : Nat) : OperandsFit.Statement (.reclear o tag route) := fun h => by
  simp only [Instr.wf, fits8, fits16, Bool.and_eq_true, decide_eq_true_eq] at h
  exact ⟨rfl, by omega, by simp [Machine.cmdPayload, Machine.be16]⟩
theorem OperandsFit.cancelRoute (o : Originator) (tag route : Nat) : OperandsFit.Statement (.cancelRoute o tag route) := fun h => by
  simp only [Instr.wf, fits8, fits16, Bool.and_eq_true, decide_eq_true_eq] at h
  exact ⟨rfl, by omega, by simp [Machine.cmdPayload, Machine.be16]⟩
theorem OperandsFit.forcedRelease (o : Originator) (tag slot route : Nat) : OperandsFit.Statement (.forcedRelease o tag slot route) := fun h => by
  simp only [Instr.wf, fits8, fits16, Bool.and_eq_true, decide_eq_true_eq] at h
  exact ⟨rfl, by omega, by simp [Machine.cmdPayload, Machine.be16]⟩
theorem OperandsFit.movePoint (o : Originator) (tag pt pos : Nat) : OperandsFit.Statement (.movePoint o tag pt pos) := fun h => by
  simp only [Instr.wf, fits8, Bool.and_eq_true, decide_eq_true_eq] at h
  exact ⟨rfl, by omega, by simp [Machine.cmdPayload]⟩
theorem OperandsFit.restoreSection (o : Originator) (tag sec : Nat) : OperandsFit.Statement (.restoreSection o tag sec) := fun h => by
  simp only [Instr.wf, fits8, Bool.and_eq_true, decide_eq_true_eq] at h
  exact ⟨rfl, by omega, by simp [Machine.cmdPayload]⟩
theorem OperandsFit.addRestriction (o : Originator) (tag cls idx restriction value : Nat) : OperandsFit.Statement (.addRestriction o tag cls idx restriction value) := fun h => by
  simp only [Instr.wf, fits8, Bool.and_eq_true, decide_eq_true_eq] at h
  exact ⟨rfl, by omega, by simp [Machine.cmdPayload]⟩
theorem OperandsFit.removeRestriction (o : Originator) (tag cls idx restriction : Nat) : OperandsFit.Statement (.removeRestriction o tag cls idx restriction) := fun h => by
  simp only [Instr.wf, fits8, Bool.and_eq_true, decide_eq_true_eq] at h
  exact ⟨rfl, by omega, by simp [Machine.cmdPayload]⟩
theorem OperandsFit.requestDirection (o : Originator) (tag port : Nat) : OperandsFit.Statement (.requestDirection o tag port) := fun h => by
  simp only [Instr.wf, fits8, Bool.and_eq_true, decide_eq_true_eq] at h
  exact ⟨rfl, by omega, by simp [Machine.cmdPayload]⟩
theorem OperandsFit.forceDirection (o : Originator) (tag port : Nat) : OperandsFit.Statement (.forceDirection o tag port) := fun h => by
  simp only [Instr.wf, fits8, Bool.and_eq_true, decide_eq_true_eq] at h
  exact ⟨rfl, by omega, by simp [Machine.cmdPayload]⟩
theorem OperandsFit.clearRemoteClaims (o : Originator) (tag link : Nat) : OperandsFit.Statement (.clearRemoteClaims o tag link) := fun h => by
  simp only [Instr.wf, fits8, Bool.and_eq_true, decide_eq_true_eq] at h
  exact ⟨rfl, by omega, by simp [Machine.cmdPayload]⟩
theorem OperandsFit.giveControl (o : Originator) (tag area holder : Nat) : OperandsFit.Statement (.giveControl o tag area holder) := fun h => by
  simp only [Instr.wf, fits8, Bool.and_eq_true, decide_eq_true_eq] at h
  exact ⟨rfl, by omega, by simp [Machine.cmdPayload]⟩
theorem OperandsFit.takeControl (o : Originator) (tag area : Nat) : OperandsFit.Statement (.takeControl o tag area) := fun h => by
  simp only [Instr.wf, fits8, Bool.and_eq_true, decide_eq_true_eq] at h
  exact ⟨rfl, by omega, by simp [Machine.cmdPayload]⟩
theorem OperandsFit.prepare (o : Originator) (tag : Nat) (inner : Inner) : OperandsFit.Statement (.prepare o tag inner) := fun h => by
  simp only [Instr.wf, fits8, Bool.and_eq_true, decide_eq_true_eq] at h
  refine ⟨rfl, h.1, ?_⟩
  have := innerPayload_length h.2
  simp only [Machine.cmdPayload, List.length_cons]
  omega
theorem OperandsFit.execute (o : Originator) (tag : Nat) (inner : Inner) : OperandsFit.Statement (.execute o tag inner) := fun h => by
  simp only [Instr.wf, fits8, Bool.and_eq_true, decide_eq_true_eq] at h
  refine ⟨rfl, h.1, ?_⟩
  have := innerPayload_length h.2
  simp only [Machine.cmdPayload, List.length_cons]
  omega
theorem OperandsFit.restart (o : Originator) (tag kind : Nat) : OperandsFit.Statement (.restart o tag kind) := fun h => by
  simp only [Instr.wf, fits8, Bool.and_eq_true, decide_eq_true_eq] at h
  exact ⟨rfl, by omega, by simp [Machine.cmdPayload]⟩
theorem OperandsFit.status (o : Originator) (tag : Nat) : OperandsFit.Statement (.status o tag) := fun h => by
  simp only [Instr.wf, fits8, decide_eq_true_eq] at h
  exact ⟨rfl, by omega, by simp [Machine.cmdPayload]⟩
theorem OperandsFit.getElement (o : Originator) (tag cls idx : Nat) : OperandsFit.Statement (.getElement o tag cls idx) := fun h => by
  simp only [Instr.wf, fits8, Bool.and_eq_true, decide_eq_true_eq] at h
  exact ⟨rfl, by omega, by simp [Machine.cmdPayload]⟩
theorem OperandsFit.getPort (o : Originator) (tag port : Nat) : OperandsFit.Statement (.getPort o tag port) := fun h => by
  simp only [Instr.wf, fits8, Bool.and_eq_true, decide_eq_true_eq] at h
  exact ⟨rfl, by omega, by simp [Machine.cmdPayload]⟩
theorem OperandsFit.getLink (o : Originator) (tag link : Nat) : OperandsFit.Statement (.getLink o tag link) := fun h => by
  simp only [Instr.wf, fits8, Bool.and_eq_true, decide_eq_true_eq] at h
  exact ⟨rfl, by omega, by simp [Machine.cmdPayload]⟩
theorem OperandsFit.getInstance (o : Originator) (tag slot : Nat) : OperandsFit.Statement (.getInstance o tag slot) := fun h => by
  simp only [Instr.wf, fits8, Bool.and_eq_true, decide_eq_true_eq] at h
  exact ⟨rfl, by omega, by simp [Machine.cmdPayload]⟩
theorem OperandsFit.readTable (o : Originator) (tag table start : Nat) : OperandsFit.Statement (.readTable o tag table start) := fun h => by
  simp only [Instr.wf, fits8, fits16, Bool.and_eq_true, decide_eq_true_eq] at h
  exact ⟨rfl, by omega, by simp [Machine.cmdPayload, Machine.be16]⟩
theorem OperandsFit.supFrameComplete (bytes : List Byte) : OperandsFit.Statement (.supFrameComplete bytes) := fun _ => trivial
theorem OperandsFit.supFrameLengthFault (length : Byte) : OperandsFit.Statement (.supFrameLengthFault length) := fun _ => trivial
theorem OperandsFit.supInterbyteGap (received : List Byte) (following : Byte) : OperandsFit.Statement (.supInterbyteGap received following) := fun _ => trivial
theorem OperandsFit.supDrainIdle : OperandsFit.Statement (.supDrainIdle) := fun _ => trivial
theorem OperandsFit.transmitLineFree : OperandsFit.Statement (.transmitLineFree) := fun _ => trivial
theorem OperandsFit.fieldAnswerReceived (bytes : List Byte) : OperandsFit.Statement (.fieldAnswerReceived bytes) := fun _ => trivial
theorem OperandsFit.fieldFrameInvalid (bytes : List Byte) : OperandsFit.Statement (.fieldFrameInvalid bytes) := fun _ => trivial
theorem OperandsFit.answerWaitExpiry (arriving : Bool) : OperandsFit.Statement (.answerWaitExpiry arriving) := fun _ => trivial
theorem OperandsFit.fieldLineIdle : OperandsFit.Statement (.fieldLineIdle) := fun _ => trivial
theorem OperandsFit.throwTimerExpiry (pt : Nat) : OperandsFit.Statement (.throwTimerExpiry pt) := fun h => (of_decide_eq_true h : pt < 96)
theorem OperandsFit.settingTimerExpiry (slot : Nat) : OperandsFit.Statement (.settingTimerExpiry slot) := fun h => (of_decide_eq_true h : slot < 48)
theorem OperandsFit.approachTimerExpiry (slot : Nat) : OperandsFit.Statement (.approachTimerExpiry slot) := fun h => (of_decide_eq_true h : slot < 48)
theorem OperandsFit.releaseTimerExpiry (slot : Nat) : OperandsFit.Statement (.releaseTimerExpiry slot) := fun h => (of_decide_eq_true h : slot < 48)
theorem OperandsFit.overlapTimerExpiry (slot : Nat) : OperandsFit.Statement (.overlapTimerExpiry slot) := fun h => (of_decide_eq_true h : slot < 48)
theorem OperandsFit.storeEntryExpiry (route : Nat) : OperandsFit.Statement (.storeEntryExpiry route) := fun h => (of_decide_eq_true h : 1 ≤ route ∧ route ≤ 512)
theorem OperandsFit.twoStepWindowExpiry (o : Originator) : OperandsFit.Statement (.twoStepWindowExpiry o) := fun _ => trivial
theorem OperandsFit.helloReceived (link : Nat) (bytes : List Byte) : OperandsFit.Statement (.helloReceived link bytes) := fun h => (of_decide_eq_true h : link < 4)
theorem OperandsFit.statusTelegramReceived (link : Nat) (bytes : List Byte) : OperandsFit.Statement (.statusTelegramReceived link bytes) := fun h => (of_decide_eq_true h : link < 4)
theorem OperandsFit.haltReceived (link : Nat) (bytes : List Byte) : OperandsFit.Statement (.haltReceived link bytes) := fun h => (of_decide_eq_true h : link < 4)
theorem OperandsFit.telegramDiscarded (link : Nat) (bytes : List Byte) : OperandsFit.Statement (.telegramDiscarded link bytes) := fun h => (of_decide_eq_true h : link < 4)
theorem OperandsFit.sequenceJump (link : Nat) (bytes : List Byte) : OperandsFit.Statement (.sequenceJump link bytes) := fun h => (of_decide_eq_true h : link < 4)
theorem OperandsFit.linkTimeout (link : Nat) : OperandsFit.Statement (.linkTimeout link) := fun h => (of_decide_eq_true h : link < 4)
theorem OperandsFit.telegramSendTimer (link : Nat) : OperandsFit.Statement (.telegramSendTimer link) := fun h => (of_decide_eq_true h : link < 4)
theorem OperandsFit.telegramChangeSpacing (link : Nat) : OperandsFit.Statement (.telegramChangeSpacing link) := fun h => (of_decide_eq_true h : link < 4)

end Sys2Proof.Laws
end

