-- ==== Sys2Proof/Laws/State.lean ====
section
/-! SUPPORT. One lemma per field per update of the state, and what is read after an update. The updates that the other
operations are built of: a record changed, a restriction written, a response placed, a release event recorded. -/

namespace Sys2Proof.Machine

/-! ### `State.modSec` -/

@[simp] theorem State.modSec_mdc (s : State) (i : Nat) (f : SectionRec → SectionRec) : (s.modSec i f).mdc = s.mdc := rfl
@[simp] theorem State.modSec_sds (s : State) (i : Nat) (f : SectionRec → SectionRec) : (s.modSec i f).sds = s.sds := rfl
@[simp] theorem State.modSec_flu (s : State) (i : Nat) (f : SectionRec → SectionRec) : (s.modSec i f).flu = s.flu := rfl
@[simp] theorem State.modSec_rsu (s : State) (i : Nat) (f : SectionRec → SectionRec) : (s.modSec i f).rsu = s.rsu := rfl
@[simp] theorem State.modSec_bdu (s : State) (i : Nat) (f : SectionRec → SectionRec) : (s.modSec i f).bdu = s.bdu := rfl
@[simp] theorem State.modSec_slu (s : State) (i : Nat) (f : SectionRec → SectionRec) : (s.modSec i f).slu = s.slu := rfl
@[simp] theorem State.modSec_releaseDue (s : State) (i : Nat) (f : SectionRec → SectionRec) : (s.modSec i f).releaseDue = s.releaseDue := rfl
@[simp] theorem State.modSec_freeCount (s : State) (i : Nat) (f : SectionRec → SectionRec) : (s.modSec i f).freeCount = s.freeCount := rfl
@[simp] theorem State.modSec_pending (s : State) (i : Nat) (f : SectionRec → SectionRec) : (s.modSec i f).pending = s.pending := rfl
@[simp] theorem State.modSec_sections (s : State) (i : Nat) (f : SectionRec → SectionRec) : (s.modSec i f).est.sections = s.est.sections.modify i f := rfl
@[simp] theorem State.modSec_points (s : State) (i : Nat) (f : SectionRec → SectionRec) : (s.modSec i f).est.points = s.est.points := rfl
@[simp] theorem State.modSec_signals (s : State) (i : Nat) (f : SectionRec → SectionRec) : (s.modSec i f).est.signals = s.est.signals := rfl
@[simp] theorem State.modSec_secRestr (s : State) (i : Nat) (f : SectionRec → SectionRec) : (s.modSec i f).est.secRestr = s.est.secRestr := rfl
@[simp] theorem State.modSec_ptRestr (s : State) (i : Nat) (f : SectionRec → SectionRec) : (s.modSec i f).est.ptRestr = s.est.ptRestr := rfl
@[simp] theorem State.modSec_sigRestr (s : State) (i : Nat) (f : SectionRec → SectionRec) : (s.modSec i f).est.sigRestr = s.est.sigRestr := rfl

/-! ### `State.modPt` -/

@[simp] theorem State.modPt_mdc (s : State) (i : Nat) (f : PointRec → PointRec) : (s.modPt i f).mdc = s.mdc := rfl
@[simp] theorem State.modPt_sds (s : State) (i : Nat) (f : PointRec → PointRec) : (s.modPt i f).sds = s.sds := rfl
@[simp] theorem State.modPt_flu (s : State) (i : Nat) (f : PointRec → PointRec) : (s.modPt i f).flu = s.flu := rfl
@[simp] theorem State.modPt_rsu (s : State) (i : Nat) (f : PointRec → PointRec) : (s.modPt i f).rsu = s.rsu := rfl
@[simp] theorem State.modPt_bdu (s : State) (i : Nat) (f : PointRec → PointRec) : (s.modPt i f).bdu = s.bdu := rfl
@[simp] theorem State.modPt_slu (s : State) (i : Nat) (f : PointRec → PointRec) : (s.modPt i f).slu = s.slu := rfl
@[simp] theorem State.modPt_releaseDue (s : State) (i : Nat) (f : PointRec → PointRec) : (s.modPt i f).releaseDue = s.releaseDue := rfl
@[simp] theorem State.modPt_freeCount (s : State) (i : Nat) (f : PointRec → PointRec) : (s.modPt i f).freeCount = s.freeCount := rfl
@[simp] theorem State.modPt_pending (s : State) (i : Nat) (f : PointRec → PointRec) : (s.modPt i f).pending = s.pending := rfl
@[simp] theorem State.modPt_sections (s : State) (i : Nat) (f : PointRec → PointRec) : (s.modPt i f).est.sections = s.est.sections := rfl
@[simp] theorem State.modPt_points (s : State) (i : Nat) (f : PointRec → PointRec) : (s.modPt i f).est.points = s.est.points.modify i f := rfl
@[simp] theorem State.modPt_signals (s : State) (i : Nat) (f : PointRec → PointRec) : (s.modPt i f).est.signals = s.est.signals := rfl
@[simp] theorem State.modPt_secRestr (s : State) (i : Nat) (f : PointRec → PointRec) : (s.modPt i f).est.secRestr = s.est.secRestr := rfl
@[simp] theorem State.modPt_ptRestr (s : State) (i : Nat) (f : PointRec → PointRec) : (s.modPt i f).est.ptRestr = s.est.ptRestr := rfl
@[simp] theorem State.modPt_sigRestr (s : State) (i : Nat) (f : PointRec → PointRec) : (s.modPt i f).est.sigRestr = s.est.sigRestr := rfl

/-! ### `State.modSig` -/

@[simp] theorem State.modSig_mdc (s : State) (i : Nat) (f : SignalRec → SignalRec) : (s.modSig i f).mdc = s.mdc := rfl
@[simp] theorem State.modSig_sds (s : State) (i : Nat) (f : SignalRec → SignalRec) : (s.modSig i f).sds = s.sds := rfl
@[simp] theorem State.modSig_flu (s : State) (i : Nat) (f : SignalRec → SignalRec) : (s.modSig i f).flu = s.flu := rfl
@[simp] theorem State.modSig_rsu (s : State) (i : Nat) (f : SignalRec → SignalRec) : (s.modSig i f).rsu = s.rsu := rfl
@[simp] theorem State.modSig_bdu (s : State) (i : Nat) (f : SignalRec → SignalRec) : (s.modSig i f).bdu = s.bdu := rfl
@[simp] theorem State.modSig_slu (s : State) (i : Nat) (f : SignalRec → SignalRec) : (s.modSig i f).slu = s.slu := rfl
@[simp] theorem State.modSig_releaseDue (s : State) (i : Nat) (f : SignalRec → SignalRec) : (s.modSig i f).releaseDue = s.releaseDue := rfl
@[simp] theorem State.modSig_freeCount (s : State) (i : Nat) (f : SignalRec → SignalRec) : (s.modSig i f).freeCount = s.freeCount := rfl
@[simp] theorem State.modSig_pending (s : State) (i : Nat) (f : SignalRec → SignalRec) : (s.modSig i f).pending = s.pending := rfl
@[simp] theorem State.modSig_sections (s : State) (i : Nat) (f : SignalRec → SignalRec) : (s.modSig i f).est.sections = s.est.sections := rfl
@[simp] theorem State.modSig_points (s : State) (i : Nat) (f : SignalRec → SignalRec) : (s.modSig i f).est.points = s.est.points := rfl
@[simp] theorem State.modSig_signals (s : State) (i : Nat) (f : SignalRec → SignalRec) : (s.modSig i f).est.signals = s.est.signals.modify i f := rfl
@[simp] theorem State.modSig_secRestr (s : State) (i : Nat) (f : SignalRec → SignalRec) : (s.modSig i f).est.secRestr = s.est.secRestr := rfl
@[simp] theorem State.modSig_ptRestr (s : State) (i : Nat) (f : SignalRec → SignalRec) : (s.modSig i f).est.ptRestr = s.est.ptRestr := rfl
@[simp] theorem State.modSig_sigRestr (s : State) (i : Nat) (f : SignalRec → SignalRec) : (s.modSig i f).est.sigRestr = s.est.sigRestr := rfl

/-! ### `State.setSecRestr` -/

@[simp] theorem State.setSecRestr_mdc (s : State) (i : Nat) (x : SecRestr) : (s.setSecRestr i x).mdc = s.mdc := rfl
@[simp] theorem State.setSecRestr_sds (s : State) (i : Nat) (x : SecRestr) : (s.setSecRestr i x).sds = s.sds := rfl
@[simp] theorem State.setSecRestr_flu (s : State) (i : Nat) (x : SecRestr) : (s.setSecRestr i x).flu = s.flu := rfl
@[simp] theorem State.setSecRestr_rsu (s : State) (i : Nat) (x : SecRestr) : (s.setSecRestr i x).rsu = s.rsu := rfl
@[simp] theorem State.setSecRestr_bdu (s : State) (i : Nat) (x : SecRestr) : (s.setSecRestr i x).bdu = s.bdu := rfl
@[simp] theorem State.setSecRestr_slu (s : State) (i : Nat) (x : SecRestr) : (s.setSecRestr i x).slu = s.slu := rfl
@[simp] theorem State.setSecRestr_releaseDue (s : State) (i : Nat) (x : SecRestr) : (s.setSecRestr i x).releaseDue = s.releaseDue := rfl
@[simp] theorem State.setSecRestr_freeCount (s : State) (i : Nat) (x : SecRestr) : (s.setSecRestr i x).freeCount = s.freeCount := rfl
@[simp] theorem State.setSecRestr_pending (s : State) (i : Nat) (x : SecRestr) : (s.setSecRestr i x).pending = s.pending := rfl
@[simp] theorem State.setSecRestr_sections (s : State) (i : Nat) (x : SecRestr) : (s.setSecRestr i x).est.sections = s.est.sections := rfl
@[simp] theorem State.setSecRestr_points (s : State) (i : Nat) (x : SecRestr) : (s.setSecRestr i x).est.points = s.est.points := rfl
@[simp] theorem State.setSecRestr_signals (s : State) (i : Nat) (x : SecRestr) : (s.setSecRestr i x).est.signals = s.est.signals := rfl
@[simp] theorem State.setSecRestr_secRestr (s : State) (i : Nat) (x : SecRestr) : (s.setSecRestr i x).est.secRestr = Sparse.set SecRestr.empty s.est.secRestr i x := rfl
@[simp] theorem State.setSecRestr_ptRestr (s : State) (i : Nat) (x : SecRestr) : (s.setSecRestr i x).est.ptRestr = s.est.ptRestr := rfl
@[simp] theorem State.setSecRestr_sigRestr (s : State) (i : Nat) (x : SecRestr) : (s.setSecRestr i x).est.sigRestr = s.est.sigRestr := rfl

/-! ### `State.setPtRestr` -/

@[simp] theorem State.setPtRestr_mdc (s : State) (i : Nat) (x : PtRestr) : (s.setPtRestr i x).mdc = s.mdc := rfl
@[simp] theorem State.setPtRestr_sds (s : State) (i : Nat) (x : PtRestr) : (s.setPtRestr i x).sds = s.sds := rfl
@[simp] theorem State.setPtRestr_flu (s : State) (i : Nat) (x : PtRestr) : (s.setPtRestr i x).flu = s.flu := rfl
@[simp] theorem State.setPtRestr_rsu (s : State) (i : Nat) (x : PtRestr) : (s.setPtRestr i x).rsu = s.rsu := rfl
@[simp] theorem State.setPtRestr_bdu (s : State) (i : Nat) (x : PtRestr) : (s.setPtRestr i x).bdu = s.bdu := rfl
@[simp] theorem State.setPtRestr_slu (s : State) (i : Nat) (x : PtRestr) : (s.setPtRestr i x).slu = s.slu := rfl
@[simp] theorem State.setPtRestr_releaseDue (s : State) (i : Nat) (x : PtRestr) : (s.setPtRestr i x).releaseDue = s.releaseDue := rfl
@[simp] theorem State.setPtRestr_freeCount (s : State) (i : Nat) (x : PtRestr) : (s.setPtRestr i x).freeCount = s.freeCount := rfl
@[simp] theorem State.setPtRestr_pending (s : State) (i : Nat) (x : PtRestr) : (s.setPtRestr i x).pending = s.pending := rfl
@[simp] theorem State.setPtRestr_sections (s : State) (i : Nat) (x : PtRestr) : (s.setPtRestr i x).est.sections = s.est.sections := rfl
@[simp] theorem State.setPtRestr_points (s : State) (i : Nat) (x : PtRestr) : (s.setPtRestr i x).est.points = s.est.points := rfl
@[simp] theorem State.setPtRestr_signals (s : State) (i : Nat) (x : PtRestr) : (s.setPtRestr i x).est.signals = s.est.signals := rfl
@[simp] theorem State.setPtRestr_secRestr (s : State) (i : Nat) (x : PtRestr) : (s.setPtRestr i x).est.secRestr = s.est.secRestr := rfl
@[simp] theorem State.setPtRestr_ptRestr (s : State) (i : Nat) (x : PtRestr) : (s.setPtRestr i x).est.ptRestr = Sparse.set PtRestr.empty s.est.ptRestr i x := rfl
@[simp] theorem State.setPtRestr_sigRestr (s : State) (i : Nat) (x : PtRestr) : (s.setPtRestr i x).est.sigRestr = s.est.sigRestr := rfl

/-! ### `State.setSigRestr` -/

@[simp] theorem State.setSigRestr_mdc (s : State) (i : Nat) (x : SigRestr) : (s.setSigRestr i x).mdc = s.mdc := rfl
@[simp] theorem State.setSigRestr_sds (s : State) (i : Nat) (x : SigRestr) : (s.setSigRestr i x).sds = s.sds := rfl
@[simp] theorem State.setSigRestr_flu (s : State) (i : Nat) (x : SigRestr) : (s.setSigRestr i x).flu = s.flu := rfl
@[simp] theorem State.setSigRestr_rsu (s : State) (i : Nat) (x : SigRestr) : (s.setSigRestr i x).rsu = s.rsu := rfl
@[simp] theorem State.setSigRestr_bdu (s : State) (i : Nat) (x : SigRestr) : (s.setSigRestr i x).bdu = s.bdu := rfl
@[simp] theorem State.setSigRestr_slu (s : State) (i : Nat) (x : SigRestr) : (s.setSigRestr i x).slu = s.slu := rfl
@[simp] theorem State.setSigRestr_releaseDue (s : State) (i : Nat) (x : SigRestr) : (s.setSigRestr i x).releaseDue = s.releaseDue := rfl
@[simp] theorem State.setSigRestr_freeCount (s : State) (i : Nat) (x : SigRestr) : (s.setSigRestr i x).freeCount = s.freeCount := rfl
@[simp] theorem State.setSigRestr_pending (s : State) (i : Nat) (x : SigRestr) : (s.setSigRestr i x).pending = s.pending := rfl
@[simp] theorem State.setSigRestr_sections (s : State) (i : Nat) (x : SigRestr) : (s.setSigRestr i x).est.sections = s.est.sections := rfl
@[simp] theorem State.setSigRestr_points (s : State) (i : Nat) (x : SigRestr) : (s.setSigRestr i x).est.points = s.est.points := rfl
@[simp] theorem State.setSigRestr_signals (s : State) (i : Nat) (x : SigRestr) : (s.setSigRestr i x).est.signals = s.est.signals := rfl
@[simp] theorem State.setSigRestr_secRestr (s : State) (i : Nat) (x : SigRestr) : (s.setSigRestr i x).est.secRestr = s.est.secRestr := rfl
@[simp] theorem State.setSigRestr_ptRestr (s : State) (i : Nat) (x : SigRestr) : (s.setSigRestr i x).est.ptRestr = s.est.ptRestr := rfl
@[simp] theorem State.setSigRestr_sigRestr (s : State) (i : Nat) (x : SigRestr) : (s.setSigRestr i x).est.sigRestr = Sparse.set SigRestr.empty s.est.sigRestr i x := rfl

/-! ### `State.modSlot` -/

@[simp] theorem State.modSlot_mdc (s : State) (i : Nat) (f : Slot → Slot) : (s.modSlot i f).mdc = s.mdc := rfl
@[simp] theorem State.modSlot_sds (s : State) (i : Nat) (f : Slot → Slot) : (s.modSlot i f).sds = s.sds := rfl
@[simp] theorem State.modSlot_est (s : State) (i : Nat) (f : Slot → Slot) : (s.modSlot i f).est = s.est := rfl
@[simp] theorem State.modSlot_flu (s : State) (i : Nat) (f : Slot → Slot) : (s.modSlot i f).flu = s.flu := rfl
@[simp] theorem State.modSlot_bdu (s : State) (i : Nat) (f : Slot → Slot) : (s.modSlot i f).bdu = s.bdu := rfl
@[simp] theorem State.modSlot_slu (s : State) (i : Nat) (f : Slot → Slot) : (s.modSlot i f).slu = s.slu := rfl
@[simp] theorem State.modSlot_releaseDue (s : State) (i : Nat) (f : Slot → Slot) : (s.modSlot i f).releaseDue = s.releaseDue := rfl
@[simp] theorem State.modSlot_freeCount (s : State) (i : Nat) (f : Slot → Slot) : (s.modSlot i f).freeCount = s.freeCount := rfl
@[simp] theorem State.modSlot_pending (s : State) (i : Nat) (f : Slot → Slot) : (s.modSlot i f).pending = s.pending := rfl
@[simp] theorem State.modSlot_slots (s : State) (i : Nat) (f : Slot → Slot) : (s.modSlot i f).rsu.slots = s.rsu.slots.modify i f := rfl
@[simp] theorem State.modSlot_store (s : State) (i : Nat) (f : Slot → Slot) : (s.modSlot i f).rsu.store = s.rsu.store := rfl
@[simp] theorem State.modSlot_lastRemoval (s : State) (i : Nat) (f : Slot → Slot) : (s.modSlot i f).rsu.lastRemoval = s.rsu.lastRemoval := rfl

/-! ### `State.modLink` -/

@[simp] theorem State.modLink_mdc (s : State) (l : Nat) (f : Link → Link) : (s.modLink l f).mdc = s.mdc := rfl
@[simp] theorem State.modLink_sds (s : State) (l : Nat) (f : Link → Link) : (s.modLink l f).sds = s.sds := rfl
@[simp] theorem State.modLink_est (s : State) (l : Nat) (f : Link → Link) : (s.modLink l f).est = s.est := rfl
@[simp] theorem State.modLink_flu (s : State) (l : Nat) (f : Link → Link) : (s.modLink l f).flu = s.flu := rfl
@[simp] theorem State.modLink_rsu (s : State) (l : Nat) (f : Link → Link) : (s.modLink l f).rsu = s.rsu := rfl
@[simp] theorem State.modLink_slu (s : State) (l : Nat) (f : Link → Link) : (s.modLink l f).slu = s.slu := rfl
@[simp] theorem State.modLink_releaseDue (s : State) (l : Nat) (f : Link → Link) : (s.modLink l f).releaseDue = s.releaseDue := rfl
@[simp] theorem State.modLink_freeCount (s : State) (l : Nat) (f : Link → Link) : (s.modLink l f).freeCount = s.freeCount := rfl
@[simp] theorem State.modLink_pending (s : State) (l : Nat) (f : Link → Link) : (s.modLink l f).pending = s.pending := rfl
@[simp] theorem State.modLink_links (s : State) (l : Nat) (f : Link → Link) : (s.modLink l f).bdu.links = s.bdu.links.modify l f := rfl
@[simp] theorem State.modLink_ports (s : State) (l : Nat) (f : Link → Link) : (s.modLink l f).bdu.ports = s.bdu.ports := rfl

/-! ### `State.modPort` -/

@[simp] theorem State.modPort_mdc (s : State) (p : Nat) (f : Port → Port) : (s.modPort p f).mdc = s.mdc := rfl
@[simp] theorem State.modPort_sds (s : State) (p : Nat) (f : Port → Port) : (s.modPort p f).sds = s.sds := rfl
@[simp] theorem State.modPort_est (s : State) (p : Nat) (f : Port → Port) : (s.modPort p f).est = s.est := rfl
@[simp] theorem State.modPort_flu (s : State) (p : Nat) (f : Port → Port) : (s.modPort p f).flu = s.flu := rfl
@[simp] theorem State.modPort_rsu (s : State) (p : Nat) (f : Port → Port) : (s.modPort p f).rsu = s.rsu := rfl
@[simp] theorem State.modPort_slu (s : State) (p : Nat) (f : Port → Port) : (s.modPort p f).slu = s.slu := rfl
@[simp] theorem State.modPort_releaseDue (s : State) (p : Nat) (f : Port → Port) : (s.modPort p f).releaseDue = s.releaseDue := rfl
@[simp] theorem State.modPort_freeCount (s : State) (p : Nat) (f : Port → Port) : (s.modPort p f).freeCount = s.freeCount := rfl
@[simp] theorem State.modPort_pending (s : State) (p : Nat) (f : Port → Port) : (s.modPort p f).pending = s.pending := rfl
@[simp] theorem State.modPort_links (s : State) (p : Nat) (f : Port → Port) : (s.modPort p f).bdu.links = s.bdu.links := rfl
@[simp] theorem State.modPort_ports (s : State) (p : Nat) (f : Port → Port) : (s.modPort p f).bdu.ports = s.bdu.ports.modify p f := rfl

/-! ### `State.respond` -/

@[simp] theorem State.respond_mdc (s : State) (f : Frame) : (s.respond f).mdc = s.mdc := rfl
@[simp] theorem State.respond_sds (s : State) (f : Frame) : (s.respond f).sds = s.sds := rfl
@[simp] theorem State.respond_est (s : State) (f : Frame) : (s.respond f).est = s.est := rfl
@[simp] theorem State.respond_flu (s : State) (f : Frame) : (s.respond f).flu = s.flu := rfl
@[simp] theorem State.respond_rsu (s : State) (f : Frame) : (s.respond f).rsu = s.rsu := rfl
@[simp] theorem State.respond_bdu (s : State) (f : Frame) : (s.respond f).bdu = s.bdu := rfl
@[simp] theorem State.respond_releaseDue (s : State) (f : Frame) : (s.respond f).releaseDue = s.releaseDue := rfl
@[simp] theorem State.respond_freeCount (s : State) (f : Frame) : (s.respond f).freeCount = s.freeCount := rfl
@[simp] theorem State.respond_pending (s : State) (f : Frame) : (s.respond f).pending = s.pending := rfl
@[simp] theorem State.respond_holders (s : State) (f : Frame) : (s.respond f).slu.holders = s.slu.holders := rfl
@[simp] theorem State.respond_gateCentre (s : State) (f : Frame) : (s.respond f).slu.gateCentre = s.slu.gateCentre := rfl
@[simp] theorem State.respond_gatePanel (s : State) (f : Frame) : (s.respond f).slu.gatePanel = s.slu.gatePanel := rfl
@[simp] theorem State.respond_rx (s : State) (f : Frame) : (s.respond f).slu.rx = s.slu.rx := rfl
@[simp] theorem State.respond_inputQ (s : State) (f : Frame) : (s.respond f).slu.inputQ = s.slu.inputQ := rfl
@[simp] theorem State.respond_inProgress (s : State) (f : Frame) : (s.respond f).slu.inProgress = s.slu.inProgress := rfl
@[simp] theorem State.respond_respQ (s : State) (f : Frame) : (s.respond f).slu.respQ = s.slu.respQ ++ [f] := rfl
@[simp] theorem State.respond_noticeQ (s : State) (f : Frame) : (s.respond f).slu.noticeQ = s.slu.noticeQ := rfl
@[simp] theorem State.respond_noticeCount (s : State) (f : Frame) : (s.respond f).slu.noticeCount = s.slu.noticeCount := rfl
@[simp] theorem State.respond_line (s : State) (f : Frame) : (s.respond f).slu.line = s.slu.line := rfl

/-! ### `State.releaseEvent` -/

@[simp] theorem State.releaseEvent_mdc (s : State)  : s.releaseEvent.mdc = s.mdc := rfl
@[simp] theorem State.releaseEvent_sds (s : State)  : s.releaseEvent.sds = s.sds := rfl
@[simp] theorem State.releaseEvent_est (s : State)  : s.releaseEvent.est = s.est := rfl
@[simp] theorem State.releaseEvent_flu (s : State)  : s.releaseEvent.flu = s.flu := rfl
@[simp] theorem State.releaseEvent_rsu (s : State)  : s.releaseEvent.rsu = s.rsu := rfl
@[simp] theorem State.releaseEvent_bdu (s : State)  : s.releaseEvent.bdu = s.bdu := rfl
@[simp] theorem State.releaseEvent_slu (s : State)  : s.releaseEvent.slu = s.slu := rfl
@[simp] theorem State.releaseEvent_freeCount (s : State)  : s.releaseEvent.freeCount = s.freeCount := rfl
@[simp] theorem State.releaseEvent_pending (s : State)  : s.releaseEvent.pending = s.pending := rfl
@[simp] theorem State.releaseEvent_releaseDue (s : State)  : s.releaseEvent.releaseDue = true := rfl

/-! ### Reading a record after it has been changed -/

/-- One place of a list after a change of one place. -/
theorem getD_modify_eq {α : Type} (l : List α) (i j : Nat) (f : α → α) (d : α) :
    (l.modify i f).getD j d = if i = j ∧ j < l.length then f (l.getD j d) else l.getD j d := by
  simp only [List.getD_eq_getElem?_getD, List.getElem?_modify]
  by_cases e : i = j
  · subst e
    by_cases h : i < l.length
    · simp [h]
    · simp [h]
  · cases h : l[j]? <;> simp [e]

/-- `State.sec` after `State.modSec`. -/
theorem State.modSec_sec_at (s : State) (i j : Nat) (f : SectionRec → SectionRec) :
    (s.modSec i f).sec j = if i = j ∧ j < s.est.sections.length then f (s.sec j) else s.sec j := getD_modify_eq _ _ _ _ _

@[simp] theorem State.modSec_pt (s : State) (i j : Nat) (f : SectionRec → SectionRec) : (s.modSec i f).pt j = s.pt j := rfl
@[simp] theorem State.modSec_sig (s : State) (i j : Nat) (f : SectionRec → SectionRec) : (s.modSec i f).sig j = s.sig j := rfl
@[simp] theorem State.modSec_slot (s : State) (i j : Nat) (f : SectionRec → SectionRec) : (s.modSec i f).slot j = s.slot j := rfl
@[simp] theorem State.modSec_link (s : State) (i j : Nat) (f : SectionRec → SectionRec) : (s.modSec i f).link j = s.link j := rfl
@[simp] theorem State.modSec_port (s : State) (i j : Nat) (f : SectionRec → SectionRec) : (s.modSec i f).port j = s.port j := rfl

/-- `State.pt` after `State.modPt`. -/
theorem State.modPt_pt_at (s : State) (i j : Nat) (f : PointRec → PointRec) :
    (s.modPt i f).pt j = if i = j ∧ j < s.est.points.length then f (s.pt j) else s.pt j := getD_modify_eq _ _ _ _ _

@[simp] theorem State.modPt_sec (s : State) (i j : Nat) (f : PointRec → PointRec) : (s.modPt i f).sec j = s.sec j := rfl
@[simp] theorem State.modPt_sig (s : State) (i j : Nat) (f : PointRec → PointRec) : (s.modPt i f).sig j = s.sig j := rfl
@[simp] theorem State.modPt_slot (s : State) (i j : Nat) (f : PointRec → PointRec) : (s.modPt i f).slot j = s.slot j := rfl
@[simp] theorem State.modPt_link (s : State) (i j : Nat) (f : PointRec → PointRec) : (s.modPt i f).link j = s.link j := rfl
@[simp] theorem State.modPt_port (s : State) (i j : Nat) (f : PointRec → PointRec) : (s.modPt i f).port j = s.port j := rfl

/-- `State.sig` after `State.modSig`. -/
theorem State.modSig_sig_at (s : State) (i j : Nat) (f : SignalRec → SignalRec) :
    (s.modSig i f).sig j = if i = j ∧ j < s.est.signals.length then f (s.sig j) else s.sig j := getD_modify_eq _ _ _ _ _

@[simp] theorem State.modSig_sec (s : State) (i j : Nat) (f : SignalRec → SignalRec) : (s.modSig i f).sec j = s.sec j := rfl
@[simp] theorem State.modSig_pt (s : State) (i j : Nat) (f : SignalRec → SignalRec) : (s.modSig i f).pt j = s.pt j := rfl
@[simp] theorem State.modSig_slot (s : State) (i j : Nat) (f : SignalRec → SignalRec) : (s.modSig i f).slot j = s.slot j := rfl
@[simp] theorem State.modSig_link (s : State) (i j : Nat) (f : SignalRec → SignalRec) : (s.modSig i f).link j = s.link j := rfl
@[simp] theorem State.modSig_port (s : State) (i j : Nat) (f : SignalRec → SignalRec) : (s.modSig i f).port j = s.port j := rfl

/-- `State.slot` after `State.modSlot`. -/
theorem State.modSlot_slot_at (s : State) (i j : Nat) (f : Slot → Slot) :
    (s.modSlot i f).slot j = if i = j ∧ j < s.rsu.slots.length then f (s.slot j) else s.slot j := getD_modify_eq _ _ _ _ _

@[simp] theorem State.modSlot_sec (s : State) (i j : Nat) (f : Slot → Slot) : (s.modSlot i f).sec j = s.sec j := rfl
@[simp] theorem State.modSlot_pt (s : State) (i j : Nat) (f : Slot → Slot) : (s.modSlot i f).pt j = s.pt j := rfl
@[simp] theorem State.modSlot_sig (s : State) (i j : Nat) (f : Slot → Slot) : (s.modSlot i f).sig j = s.sig j := rfl
@[simp] theorem State.modSlot_link (s : State) (i j : Nat) (f : Slot → Slot) : (s.modSlot i f).link j = s.link j := rfl
@[simp] theorem State.modSlot_port (s : State) (i j : Nat) (f : Slot → Slot) : (s.modSlot i f).port j = s.port j := rfl

/-- `State.link` after `State.modLink`. -/
theorem State.modLink_link_at (s : State) (i j : Nat) (f : Link → Link) :
    (s.modLink i f).link j = if i = j ∧ j < s.bdu.links.length then f (s.link j) else s.link j := getD_modify_eq _ _ _ _ _

@[simp] theorem State.modLink_sec (s : State) (i j : Nat) (f : Link → Link) : (s.modLink i f).sec j = s.sec j := rfl
@[simp] theorem State.modLink_pt (s : State) (i j : Nat) (f : Link → Link) : (s.modLink i f).pt j = s.pt j := rfl
@[simp] theorem State.modLink_sig (s : State) (i j : Nat) (f : Link → Link) : (s.modLink i f).sig j = s.sig j := rfl
@[simp] theorem State.modLink_slot (s : State) (i j : Nat) (f : Link → Link) : (s.modLink i f).slot j = s.slot j := rfl
@[simp] theorem State.modLink_port (s : State) (i j : Nat) (f : Link → Link) : (s.modLink i f).port j = s.port j := rfl

/-- `State.port` after `State.modPort`. -/
theorem State.modPort_port_at (s : State) (i j : Nat) (f : Port → Port) :
    (s.modPort i f).port j = if i = j ∧ j < s.bdu.ports.length then f (s.port j) else s.port j := getD_modify_eq _ _ _ _ _

@[simp] theorem State.modPort_sec (s : State) (i j : Nat) (f : Port → Port) : (s.modPort i f).sec j = s.sec j := rfl
@[simp] theorem State.modPort_pt (s : State) (i j : Nat) (f : Port → Port) : (s.modPort i f).pt j = s.pt j := rfl
@[simp] theorem State.modPort_sig (s : State) (i j : Nat) (f : Port → Port) : (s.modPort i f).sig j = s.sig j := rfl
@[simp] theorem State.modPort_slot (s : State) (i j : Nat) (f : Port → Port) : (s.modPort i f).slot j = s.slot j := rfl
@[simp] theorem State.modPort_link (s : State) (i j : Nat) (f : Port → Port) : (s.modPort i f).link j = s.link j := rfl

end Sys2Proof.Machine
end

