-- ==== Sys2Proof/Tests/Slice0.lean ====
section
/-! SUPPORT. Tests: worked values of the spec and hand calculations from its rules, and for each statement states and operands
that meet its hypotheses. -/

namespace Sys2Proof.Machine.Tests
open Sys2Proof

-- One proof at a time: each is a kernel evaluation of its own.
set_option Elab.async false

/-! ### Check sequences: the two published check values of the parameters of R198, over "123456789" -/

/-- The digits 1 to 9 as characters. -/
def digits : List Byte := (List.range 9).map fun n => byteOf (0x31 + n)

theorem test_crc16 : crc16 digits = 0x29B1#16 := by decide +kernel
theorem test_crc32 : crc32 digits = 0xCBF43926#32 := by decide +kernel

/-! ### A station of five sections, one point, four signals, one port, three routes

Section 0 leads to section 1, whose far end is the TIP of point 0; its branches are sections 2 (NORMAL) and 3 (REVERSE, a
buffer stop behind it); section 2 leads to section 4, the boundary section of port 0. Signal 0 leaves section 0 toward section
1, signal 1 section 2 toward section 4, signal 2 section 3 toward the point, signal 3 section 3 toward the buffer stop. -/

/-- The bytes of numbers below 256. -/
def raw (l : List Nat) : List Byte := l.map byteOf

/-- A link record that names no neighbour. -/
def rawNoLink : List Byte := raw [0, 0, 0] ++ List.replicate 32 0xFF#8

/-- The station's image as it is laid out in 12. -/
def imageBytes : List Byte :=
  raw [0, 1, 0xFF, 0xFE, 0, 0, 0, 0, 0, 0, 0, 0, 2, 5, 1, 4, 1, 0, 3]
    ++ raw [1, 2]
    ++ raw [3, 0xE8, 3, 0, 0, 0, 1, 0, 1, 0, 0]
    ++ raw [1, 0xF4, 0, 0, 1, 1, 0, 0, 1, 1, 0]
    ++ raw [1, 0xF4, 1, 0, 1, 0, 4, 0, 1, 2, 0]
    ++ raw [1, 0xF4, 1, 0, 2, 3, 0, 0, 1, 3, 0]
    ++ raw [1, 0xF4, 0, 2, 1, 2, 0, 0, 1, 4, 1]
    ++ raw [1, 2, 3, 1, 1, 5, 0]
    ++ raw [0, 1, 2, 0, 0, 2, 1, 2, 1, 0, 3, 0, 2, 2, 0, 3, 1, 2, 3, 0]
    ++ raw [0, 4, 1, 0]
    ++ (raw [0, 7, 1, 0, 4] ++ List.replicate 30 0xFF#8) ++ rawNoLink ++ rawNoLink ++ rawNoLink
    ++ raw [0, 1, 2, 2, 2, 2, 2, 2]
    ++ raw [0, 1, 25, 0, 0, 1, 60, 80, 60, 0, 100, 8, 2, 1, 2, 1, 0, 0, 0, 1, 4, 0, 0, 1, 0]
    ++ raw [0, 2, 25, 2, 1, 0, 0, 40, 60, 0, 0, 0, 1, 4, 0, 0, 0, 1, 0, 0, 5, 0, 2, 2, 1]
    ++ raw [0, 3, 24, 1, 0, 3, 0, 30, 60, 0, 0, 0, 2, 1, 3, 1, 0, 1, 0, 0, 0, 0, 1, 0]

def route1 : RouteDef := ⟨1, .main, 0, 1, [1, 2], [⟨0, .normal, 0⟩], [4], [], [], 60, [0], 80, 60, 100, 8⟩
def route2 : RouteDef := ⟨2, .exit, 1, 0, [4], [], [], [], [⟨0, .sect, 5, .clear⟩], 0, [2, 1], 40, 60, 0, 0⟩
def route3 : RouteDef := ⟨3, .shunt, 0, 3, [1, 3], [⟨0, .reverse, 0⟩], [], [], [], 0, [0], 30, 60, 0, 0⟩

/-- The station's records. -/
def station : Image where
  identity := 1
  settingField := 0
  throwField := 0
  missedField := 0
  linkField := 0
  windowField := 0
  storeField := 0
  controllers := [1, 2]
  sections := [⟨1000, .buffer, .joint 1 .a, 1, 0, 0⟩, ⟨500, .joint 0 .b, .leg 0 .tip, 1, 1, 0⟩,
    ⟨500, .leg 0 .normal, .joint 4 .a, 1, 2, 0⟩, ⟨500, .leg 0 .reverse, .buffer, 1, 3, 0⟩, ⟨500, .joint 2 .b, .port 0, 1, 4, 1⟩]
  points := [⟨1, 2, 3, 1, 1, 5, 0⟩]
  signals := [⟨0, .b, 2, 0, 0⟩, ⟨2, .b, 2, 1, 0⟩, ⟨3, .a, 2, 2, 0⟩, ⟨3, .b, 2, 3, 0⟩]
  ports := [⟨0, 4, .b, false⟩]
  links := [⟨7, [⟨.sect, 4⟩]⟩, ⟨0, []⟩, ⟨0, []⟩, ⟨0, []⟩]
  areas := [.centre, .panel, .none, .none, .none, .none, .none, .none]
  routes := [route1, route2, route3]

/-- The bytes read as the records (R2 to R11). -/
theorem test_image_reads : readImage imageBytes = station := by decide +kernel

/-- The outcome of the checks, with the outcome of check 1 given. -/
def outcome (bs : List Byte) (crcOk : Bool) : CheckResult := firstFailing (checkList bs crcOk)

/-- The image passes the ten checks; with another CRC it fails check 1 (R15). -/
theorem test_image_passes : outcome imageBytes true = ⟨0, none⟩ ∧ (outcome imageBytes false).code = 1 := by decide +kernel
/-- Identity 2 beside the complement of 1: check 2, the header. -/
theorem test_image_identity : outcome (imageBytes.set 1 2#8) true = ⟨2, some (.header, 0)⟩ := by decide +kernel
/-- Cut off before its complement, or whole but for its counts: check 2, check 3, the header (log 24). -/
theorem test_image_short : outcome (imageBytes.take 3) true = ⟨2, some (.header, 0)⟩
    ∧ outcome (imageBytes.take 18) true = ⟨3, some (.header, 0)⟩ := by decide +kernel
/-- Section 0's area 8 is out of range: check 3, section 0. -/
theorem test_image_range : outcome (imageBytes.set 31 8#8) true = ⟨3, some (.sect, 0)⟩ := by decide +kernel
/-- Section 0's controller 3 is not listed: check 4, section 0. -/
theorem test_image_reference : outcome (imageBytes.set 29 3#8) true = ⟨4, some (.sect, 0)⟩ := by decide +kernel
/-- Section 0's end B names section 2, which does not name it back: check 5, section 0. -/
theorem test_image_connection : outcome (imageBytes.set 27 2#8) true = ⟨5, some (.sect, 0)⟩ := by decide +kernel

/-- A path of section 1 alone, entered from section 0 through point 0 NORMAL, which no list names, its overlap beyond the point's
other leg: R12's rear end is B, so check 6 fails. -/
theorem test_rear_unlisted :
    let m : Image := { station with
      sections := [⟨100, .buffer, .leg 0 .normal, 1, 0, 0⟩, ⟨100, .buffer, .leg 0 .tip, 1, 1, 0⟩, ⟨100, .leg 0 .reverse, .buffer, 1, 2, 0⟩]
      points := [⟨1, 0, 2, 1, 1, 5, 0⟩] }
    let d : RouteDef := { route1 with path := [1], pathPoints := [], overlapSecs := [2], overlapPoints := [(0, .reverse)] }
    m.rears d = [.b] ∧ m.continuous d = false := by decide +kernel
/-- A record whose length byte is 1 keeps its number, and the last record's failure stands in ascending order (log 24). -/
theorem test_short_record : routeRecords 1 (raw [0, 5, 1, 9]) = some ([raw [0, 5, 1]], [])
    ∧ badRoutes [raw [0, 9, 3], raw [0, 5, 3]] true = [5, 5, 9] := by decide +kernel

/-- The image's CRC-32, in five pieces. -/
theorem crc_image : crc32 imageBytes = 543988980#32 := by
  have p0 : (imageBytes.take 66).foldl crc32Byte 0xFFFFFFFF#32 = 1622051061#32 := by decide +kernel
  have p1 : ((imageBytes.drop 66).take 66).foldl crc32Byte 1622051061#32 = 2953404673#32 := by decide +kernel
  have p2 : ((imageBytes.drop 132).take 66).foldl crc32Byte 2953404673#32 = 2969338190#32 := by decide +kernel
  have p3 : ((imageBytes.drop 198).take 66).foldl crc32Byte 2969338190#32 = 4250004703#32 := by decide +kernel
  have p4 : (imageBytes.drop 264).foldl crc32Byte 4250004703#32 = 3750978315#32 := by decide +kernel
  have e : imageBytes = imageBytes.take 66 ++ ((imageBytes.drop 66).take 66 ++ ((imageBytes.drop 132).take 66 ++
    ((imageBytes.drop 198).take 66 ++ imageBytes.drop 264))) := by decide +kernel
  unfold crc32
  rw [e, List.foldl_append, List.foldl_append, List.foldl_append, List.foldl_append, p0, p1, p2, p3, p4]
  decide

/-! ### A part that works the station -/

/-- The state after a command; the state before where it has none. -/
def after (i : Instr) (s : State) : State :=
  match exec i s with
  | .next t => t
  | .fault _ => s
  | .refused _ => s

/-- The frame that goes out last. -/
def sent (i : Instr) (s : State) : Option Frame := (after i s).outgoing.getLast?

def clearSec : SectionRec := { SectionRec.start with occ := .clear, last := .clear }
def normalPt : PointRec := { PointRec.start with pos := .normal, commanded := some .normal, last := .normal }
def stopSig : SignalRec := { SignalRec.start with reported := .stop }

/-- OPERATIONAL, everything at rest: sections CLEAR, the point NORMAL, signals at STOP; area 0 with CENTRE, area 1 with PANEL;
link 0 DOWN. -/
def base : State :=
  { State.reset with
    mdc := ⟨.running, .operational, .cold, none, none, false, .idle⟩
    sds := { State.reset.sds with stored := ⟨imageBytes, 543988980#32, false⟩, active := some ⟨station, 543988980#32⟩, verifyMs := some 600000 }
    est := ⟨List.replicate 5 clearSec, [normalPt], List.replicate 4 stopSig, [], [], []⟩
    flu := ⟨[⟨1, .active, 0⟩, ⟨2, .active, 0⟩], some 1, .waiting, none⟩
    bdu := ⟨List.replicate 4 { Link.start with sinceMs := some 0 }, [Port.start]⟩
    slu := { State.reset.slu with holders := station.areas, rx := .hunting, noticeQ := [] } }

/-- `base` with another mode. -/
def inMode (m : Mode) : State := { base with mdc := { base.mdc with mode := m }, sds := { base.sds with verifyMs := none } }

/-- Decides `State.ready`. -/
def readyB (s : State) : Bool :=
  decide (s.mdc.power = .running) && decide (s.slu.rx = .hunting) && decide (s.slu.inProgress = none) && decide (s.slu.inputQ = [])
    && decide (s.slu.respQ.length < 8) && (decide (s.slu.line ≠ none) || (decide (s.slu.respQ = []) && decide (s.slu.noticeQ = [])))
    && !s.releaseDue

/-- What `readyB` decides. -/
theorem ready_of {s : State} (h : readyB s = true) : s.ready := by
  simp only [readyB, Bool.and_eq_true, Bool.or_eq_true, decide_eq_true_eq, Bool.not_eq_true'] at h
  obtain ⟨⟨⟨⟨⟨⟨h1, h0⟩, h2⟩, h3⟩, h4⟩, h5⟩, h6⟩ := h
  exact ⟨h1, h0, h2, h3, h4, fun hn => h5.resolve_left (fun h => h hn), h6⟩

theorem test_ready : readyB base = true := by decide +kernel

/-! ### Supply, reset line, start (R191, R192, R18, R194, R196, R19) -/

theorem test_powerOn : (after .powerOn base).mdc = ⟨.checking, .unconfigured, .cold, none, none, false, .idle⟩
    ∧ (after .powerOn base).sds.stored = base.sds.stored ∧ (after .powerOn base).slu.holders = List.replicate 8 .none := by decide +kernel

/-- ACTIVATE is cut off by the loss of supply (R17). -/
def activating : State := { inMode .loading with
  sds := { (inMode .loading).sds with load := ⟨.accepted, 3, some .centre, some .unconfigured, some 7⟩, buffer := [(1, 5)] }
  slu := { base.slu with inProgress := some ⟨.centre, 9, .activate⟩ } }

theorem test_powerLoss : (after .powerLoss activating).mdc.power = .off
    ∧ (after .powerLoss activating).sds.stored = { activating.sds.stored with damaged := true } := by decide +kernel
theorem test_resetLineLow : (after (.resetLineLow 10) base).mdc.power = .held ∧ after (.resetLineLow 4) base = base := by decide +kernel

/-- `base` with the reset line held low. -/
def held : State := { base with mdc := { base.mdc with power := .held } }

theorem test_resetLineRelease : (after .resetLineRelease held).mdc.cause = .warmLine
    ∧ (after .resetLineRelease held).slu.holders = station.areas ∧ (after .resetLineRelease held).est.sections = [] := by decide +kernel

/-- The start check of the test image passes (R18). -/
theorem stored_passes : (Stored.mk imageBytes 543988980#32 false).check = ⟨0, none⟩ := by
  unfold Stored.check
  rw [show (decide (crc32 imageBytes = 543988980#32) && !false) = true by rw [crc_image]; rfl]
  exact test_image_passes.1

/-- A cold start with the test image stored. -/
def cold : State := State.coldStart ⟨imageBytes, 543988980#32, false⟩ 0 []

theorem test_startCheckComplete : (after .startCheckComplete State.reset).mdc.mode = .unconfigured
    ∧ (after .startCheckComplete State.reset).sds.lastCheck = ⟨2, some (.header, 0)⟩ := by decide +kernel

/-- STARTING, its CRC being computed, controller 2 still UNKNOWN. -/
def starting : State := { base with
  mdc := ⟨.running, .starting, .cold, none, some 10000, false, .running⟩
  sds := { base.sds with verifyMs := none }
  flu := { base.flu with ctrls := [⟨1, .active, 0⟩, ⟨2, .unknown, 0⟩] } }

/-- `starting` with every controller ACTIVE. -/
def polled : State := { starting with flu := base.flu }
/-- `starting` with its CRC matched. -/
def matched : State := { starting with mdc := { starting.mdc with startCrc := .matched } }

theorem test_startingCrcComplete : (after (.startingCrcComplete 543988980#32) polled).mdc.mode = .operational
    ∧ (after (.startingCrcComplete 543988980#32) polled).sds.verifyCount = 1
    ∧ (after (.startingCrcComplete 0#32) polled).mdc.halt = some .startingImage := by decide +kernel
theorem test_startupTimerExpiry : (after .startupTimerExpiry matched).mdc.mode = .operational
    ∧ (after .startupTimerExpiry matched).flu.ctrls = [⟨1, .active, 0⟩, ⟨2, .lost, 0⟩]
    ∧ (after .startupTimerExpiry starting).mdc.mode = .starting := by decide +kernel

/-- A verify pass runs; the count stands at its last value. -/
def verifying : State := { base with sds := { base.sds with verifyMs := none, verifyPass := true, verifyCount := 65535 } }

theorem test_verifyTimerExpiry : (after .verifyTimerExpiry base).sds.verifyPass = true
    ∧ (after .verifyTimerExpiry base).sds.verifyMs = none := by decide +kernel
/-- 65,535 is followed by 0 (R19); a mismatch halts with reason IMAGE. -/
theorem test_verifyPassComplete : (after (.verifyPassComplete 543988980#32) verifying).sds.verifyCount = 0
    ∧ (after (.verifyPassComplete 1#32) verifying).mdc.halt = some .image
    ∧ (after (.verifyPassComplete 1#32) verifying).sds.verifyCount = 65535 := by decide +kernel

/-! ### The load (R13 to R16) -/

/-- LOADING, four bytes declared by CENTRE. -/
def loading : State := { inMode .loading with
  sds := { (inMode .loading).sds with load := ⟨.opened, 4, some .centre, some .halted, none⟩ } }

theorem test_loadBegin : sent (.loadBegin .panel 9 65536) (inMode .halted) = some (.reply 9 1 .panel .done .none)
    ∧ sent (.loadBegin .panel 9 65537) (inMode .halted) = some (.reply 9 1 .panel .badParameter .none)
    ∧ sent (.loadBegin .panel 9 1) base = some (.reply 9 1 .panel .notPermitted .none) := by decide +kernel
theorem test_loadSegment : (List.range 4).map (Memory.read (after (.loadSegment .centre 9 1 [5#8, 6#8]) loading).sds.buffer) = [0#8, 5#8, 6#8, 0#8]
    ∧ sent (.loadSegment .panel 9 1 [5#8]) loading = some (.reply 9 2 .panel .notPermitted .none)
    ∧ sent (.loadSegment .centre 9 3 [5#8, 6#8]) loading = some (.reply 9 2 .centre .badParameter .none) := by decide +kernel
theorem test_loadEnd : (after (.loadEnd .centre 9 4 0#32) loading).slu.inProgress = some ⟨.centre, 9, .loadEnd 4 0#32⟩
    ∧ sent (.loadEnd .centre 9 5 0#32) loading = some (.reply 9 3 .centre .badParameter .none) := by decide +kernel

/-- LOAD_END over four zero bytes, in progress. -/
def checkingLoad : State := { loading with slu := { loading.slu with inProgress := some ⟨.centre, 9, .loadEnd 4 0#32⟩ } }

theorem test_loadEndChecksComplete : (after .loadEndChecksComplete checkingLoad).sds.lastCheck.code = 1
    ∧ (after .loadEndChecksComplete checkingLoad).sds.load.state = .opened
    ∧ (after .loadEndChecksComplete checkingLoad).slu.inProgress = none := by decide +kernel
theorem test_activate : sent (.activate .centre 9) loading = some (.reply 9 4 .centre .notPermitted .none) := by decide +kernel
theorem test_activateWriteComplete :
    let t := after (.activateWriteComplete 7#32) activating
    t.mdc.cause = .activate ∧ t.sds.stored = ⟨[0#8, 5#8, 0#8], 7#32, false⟩ ∧ t.outgoing = [.reply 9 4 .centre .done .none] := by decide +kernel

/-! ### Routes (R59 to R77). Route 1: V 80, b 60, so D = ⌈80² · 10,000 / (2592 · 60)⌉ = 412, Q = 412 + 100 = 512, covered by
section 0's 1000 m, T = ⌈80 · 1000 / (36 · 60)⌉ + 8 = 46 -/

theorem test_setRoute :
    let t := after (.setRoute .centre 9 1 0 0) base
    t.slu.line = some (.reply 9 5 .centre .accepted (.slotState 0 .clearing)) ∧ (t.sig 0).commanded = .proceed
      ∧ (t.slot 0).figures = some ⟨80, none, 412, 512, 1, 1000, false, 46⟩ ∧ (t.slot 0).timerMs = some 30000
      ∧ (t.slot 0).claims.map Claim.what = [.signal 2] ∧ (t.sig 2).holds = 1
      ∧ (t.sec 1).kind = some .path ∧ (t.sec 4).kind = some .overlap := by decide +kernel
/-- Route 3 moves the point; its flank falls back to sections 2 and 4. -/
theorem test_setRoute_moves :
    let t := after (.setRoute .centre 9 3 0 0) base
    t.slu.line = some (.reply 9 5 .centre .accepted (.slotState 0 .setting)) ∧ (t.pt 0).pos = .moving
      ∧ (t.pt 0).commanded = some .reverse ∧ (t.pt 0).throwMs = some 8000 ∧ (t.slot 0).pendingPts = [0]
      ∧ (t.slot 0).claims.map Claim.what = [.sect 2, .sect 4] := by decide +kernel

/-- Route 1 set in slot 0 and its signal proven: CLEARED. -/
def cleared : State :=
  let path : SectionRec := { clearSec with owner := some (.slot 0), kind := some .path }
  { base with
    est := { base.est with
      sections := [clearSec, path, path, clearSec, { path with kind := some .overlap }]
      points := [{ normalPt with owner := some (.slot 0), kind := some .path, lockedPos := some .normal }]
      signals := [{ stopSig with commanded := .proceed, reported := .proceed, owner := some 0 }, stopSig, { stopSig with holds := 1 }, stopSig] }
    rsu := { base.rsu with slots :=
      { Slot.start with
        route := some 1, kind := some .main, originator := some .centre, state := .cleared
        figures := some ⟨80, none, 412, 512, 1, 1000, false, 46⟩
        claims := [⟨.signal 2, some (.path 0), false, true⟩] } :: List.replicate 47 Slot.start } }

/-- `cleared` with a section's occupancy changed. -/
def clearedWith (i : Nat) (o : Occ) : State :=
  { cleared with est := { cleared.est with sections := cleared.est.sections.modify i fun r => { r with occ := o } } }

/-- Route 1 HELD with hold causes. -/
def heldRoute (h : Holds) : State :=
  { cleared with
    est := { cleared.est with signals := cleared.est.signals.modify 0 fun r => { r with commanded := .stop, reported := .stop } }
    rsu := { cleared.rsu with slots := cleared.rsu.slots.modify 0 fun k => { k with state := .held, holds := h } } }

theorem test_reclear : sent (.reclear .centre 3 1) (heldRoute Holds.empty) = some (.reply 3 6 .centre .done .none)
    ∧ ((after (.reclear .centre 3 1) (heldRoute Holds.empty)).sig 0).commanded = .proceed
    ∧ sent (.reclear .centre 3 1) (heldRoute { Holds.empty with lamp := true }) = some (.reply 3 6 .centre .fault .none) := by decide +kernel
theorem test_cancelRoute : sent (.cancelRoute .centre 3 1) cleared = some (.reply 3 7 .centre .done (.slotEnded 0 .cancelled))
    ∧ ((after (.cancelRoute .centre 3 1) cleared).sec 1).owner = none := by decide +kernel
/-- A train on the chain: APPROACH_LOCKED for 46 s, the locks kept. -/
theorem test_cancelRoute_locks :
    sent (.cancelRoute .centre 3 1) (clearedWith 0 .occupied) = some (.reply 3 7 .centre .done (.slotState 0 .approachLocked))
    ∧ ((after (.cancelRoute .centre 3 1) (clearedWith 0 .occupied)).slot 0).timerMs = some 46000
    ∧ ((after (.cancelRoute .centre 3 1) (clearedWith 0 .occupied)).sec 1).owner = some (.slot 0) := by decide +kernel

/-! ### Elements, ports, areas -/

theorem test_movePoint : sent (.movePoint .centre 3 0 1) base = some (.reply 3 9 .centre .accepted .none)
    ∧ ((after (.movePoint .centre 3 0 1) base).pt 0).pos = .moving
    ∧ sent (.movePoint .centre 3 0 0) base = some (.reply 3 9 .centre .done .none)
    ∧ sent (.movePoint .centre 3 0 1) (clearedWith 1 .clear) = some (.reply 3 9 .centre .inUse .none) := by decide +kernel
/-- SPEED 5 stands as 10, and the lower of two stays (R38). -/
theorem test_addRestriction : ((after (.addRestriction .centre 3 0 0 1 5) base).secRestr 0).speed = some 10
    ∧ ((after (.addRestriction .centre 3 0 0 1 90) (after (.addRestriction .centre 3 0 0 1 70) base)).secRestr 0).speed = some 70
    ∧ sent (.addRestriction .centre 3 0 4 0 0) base = some (.reply 3 10 .centre .notInControl .none) := by decide +kernel

/-- Link 0 in a state, the neighbour's port known, its port in a view. -/
def linked (st : LinkState) (v : View) : State :=
  { base with bdu := ⟨base.bdu.links.modify 0 fun k =>
      { k with state := st, seen := true, answered := true, nbPorts := some [0], lastSeq := some 3, timeoutMs := some 1500 },
    base.bdu.ports.modify 0 fun q => { q with view := v }⟩ }

theorem test_requestDirection : sent (.requestDirection .panel 3 0) (linked .up .neutral) = some (.reply 3 13 .panel .accepted .none)
    ∧ ((after (.requestDirection .panel 3 0) (linked .up .into)).port 0).prev = some .into
    ∧ sent (.requestDirection .panel 3 0) base = some (.reply 3 13 .panel .fault .none) := by decide +kernel
theorem test_giveControl : sent (.giveControl .centre 3 0 1) base = some (.reply 3 16 .centre .done .none)
    ∧ (after (.giveControl .centre 3 0 1) base).holder 0 = .panel
    ∧ sent (.giveControl .centre 3 1 2) base = some (.reply 3 16 .centre .notInControl .none) := by decide +kernel

/-! ### Two-step commands (R173, R174, R176) -/

/-- The gate of an originator holds an inner command. -/
def prepared (s : State) (o : Originator) (x : Inner) : State := s.setGate o (some ⟨x, 15000⟩)

theorem test_prepare : sent (.prepare .centre 3 (.takeControl 1)) base = some (.reply 3 18 .centre .prepared .none)
    ∧ (after (.prepare .centre 3 (.takeControl 1)) base).slu.gateCentre = some ⟨.takeControl 1, 15000⟩
    ∧ sent (.prepare .centre 3 (.other 21 [])) base = some (.reply 3 18 .centre .notPermitted .none) := by decide +kernel
theorem test_execute : sent (.execute .centre 3 (.takeControl 1)) base = some (.reply 3 19 .centre .noPrepare .none)
    ∧ sent (.execute .centre 3 (.takeControl 2)) (prepared base .centre (.takeControl 1)) = some (.reply 3 19 .centre .mismatch .none)
    ∧ (after (.execute .centre 3 (.takeControl 1)) (prepared base .centre (.takeControl 1))).holder 1 = .centre := by decide +kernel
theorem test_takeControl : sent (.takeControl .centre 3 1) base = some (.reply 3 17 .centre .twoStep .none) := by decide +kernel

/-- `base` with a section's record changed. -/
def secIs (i : Nat) (f : SectionRec → SectionRec) : State := { base with est := { base.est with sections := base.est.sections.modify i f } }
/-- Section 0 DISTURBED, its last report OCCUPIED. -/
def disturbed0 : State := secIs 0 fun r => { r with occ := .disturbed, last := .occupied }

theorem test_restoreSection : sent (.restoreSection .centre 3 0) base = some (.reply 3 12 .centre .twoStep .none)
    ∧ ((after (.execute .centre 3 (.restoreSection 0)) (prepared disturbed0 .centre (.restoreSection 0))).sec 0).occ = .occupied
    ∧ sent (.prepare .centre 3 (.restoreSection 0)) base = some (.reply 3 18 .centre .notPermitted .none) := by decide +kernel

/-- Section 0 carries NO_ROUTE and SPEED 70. -/
def restricted : State := { base with est := { base.est with secRestr := [(0, ⟨true, some 70⟩)] } }

theorem test_removeRestriction : sent (.removeRestriction .centre 3 0 0 0) base = some (.reply 3 11 .centre .twoStep .none)
    ∧ (after (.execute .centre 3 (.removeRestriction 0 0 0)) (prepared restricted .centre (.removeRestriction 0 0 0))).secRestr 0 = ⟨false, some 70⟩ := by decide +kernel
theorem test_forcedRelease : sent (.forcedRelease .centre 3 0 1) cleared = some (.reply 3 8 .centre .twoStep .none)
    ∧ sent (.execute .centre 3 (.forcedRelease 0 1)) (prepared cleared .centre (.forcedRelease 0 1)) = some (.reply 3 19 .centre .done (.slotState 0 .releaseTiming))
    ∧ ((after (.execute .centre 3 (.forcedRelease 0 1)) (prepared cleared .centre (.forcedRelease 0 1))).sig 0).commanded = .stop := by decide +kernel
theorem test_forceDirection : sent (.forceDirection .panel 3 0) base = some (.reply 3 14 .panel .twoStep .none)
    ∧ ((after (.execute .panel 3 (.forceDirection 0)) (prepared base .panel (.forceDirection 0))).port 0).view = .out := by decide +kernel

/-- Link 0 holds one remote claim entry that locks section 4. -/
def claimed : State := { base with
  est := { base.est with sections := base.est.sections.modify 4 fun r => { r with owner := some (.remote 0 0) } }
  bdu := ⟨base.bdu.links.modify 0 fun k =>
      { k with table := k.table.set 0 (some ⟨5, ⟨false, .sect, 4, some .clear⟩, .granted, true, true, some ⟨.sect, 4⟩, []⟩) },
    base.bdu.ports⟩ }

theorem test_clearRemoteClaims : sent (.clearRemoteClaims .panel 3 0) claimed = some (.reply 3 15 .panel .twoStep .none)
    ∧ ((after (.execute .panel 3 (.clearRemoteClaims 0)) (prepared claimed .panel (.clearRemoteClaims 0))).sec 4).owner = none
    ∧ ((after (.execute .panel 3 (.clearRemoteClaims 0)) (prepared claimed .panel (.clearRemoteClaims 0))).link 0).table = List.replicate 16 none := by decide +kernel
theorem test_restart : sent (.restart .centre 3 0) base = some (.reply 3 20 .centre .twoStep .none)
    ∧ (after (.execute .centre 3 (.restart 0)) (prepared base .centre (.restart 0))).mdc.power = .checking
    ∧ (after (.execute .centre 3 (.restart 1)) (prepared base .centre (.restart 1))).mdc.power = .running := by decide +kernel

/-! ### Queries (R187, R188) -/

theorem test_status : (after (.status .panel 3) base).slu.line.isSome ∧ base.statusView.identity = some 1
    ∧ base.statusView.live = 0 ∧ base.statusView.declared = none := by decide +kernel
theorem test_getElement : sent (.getElement .centre 3 0 5) base = some (.reply 3 22 .centre .unknown .none)
    ∧ sent (.getElement .centre 3 0 240) base = some (.reply 3 22 .centre .badParameter .none)
    ∧ sent (.getElement .centre 3 0 4) base = some (.reply 3 22 .centre .done (.record (.sect clearSec SecRestr.empty))) := by decide +kernel
theorem test_getPort : sent (.getPort .centre 3 1) base = some (.reply 3 23 .centre .unknown .none)
    ∧ sent (.getPort .centre 3 8) base = some (.reply 3 23 .centre .badParameter .none) := by decide +kernel
theorem test_getLink : sent (.getLink .centre 3 0) base = some (.reply 3 24 .centre .done (.record (.link ⟨.down, false, false, false, none, none, 0, 0⟩)))
    ∧ sent (.getLink .centre 3 4) base = some (.reply 3 24 .centre .badParameter .none) := by decide +kernel
theorem test_getInstance : sent (.getInstance .centre 3 47) base = some (.reply 3 25 .centre .done (.record (.slot 47 Slot.start [])))
    ∧ sent (.getInstance .centre 3 48) base = some (.reply 3 25 .centre .badParameter .none) := by decide +kernel
/-- Three routes of 25, 25 and 24 bytes fit; the reading starts at the number and comes round. -/
theorem test_readTable : sent (.readTable .centre 3 0 2) base
      = some (.reply 3 26 .centre .done (.table [.route route2, .route route3, .route route1] 2 none))
    ∧ sent (.readTable .centre 3 0 513) base = some (.reply 3 26 .centre .badParameter .none) := by decide +kernel

/-! ### The supervisory line (R179 to R184) -/

/-- STATUS of CENTRE with tag 9 as a frame: C3, length 4, COMMAND, CENTRE, tag, code 21, CRC-16 high byte first. -/
def statusFrame : List Byte := raw [0xC3, 4, 0, 1, 9, 21] ++ crc16Bytes (crc16 (raw [4, 0, 1, 9, 21]))

theorem test_supFrameComplete : sent (.supFrameComplete statusFrame) base = some (.reply 9 21 .centre .done (.record (.system base.statusView)))
    ∧ sent (.supFrameComplete (statusFrame.set 4 8#8)) base = some (.faultReport { Faults.empty with check := true } none)
    ∧ (after (.supFrameComplete (statusFrame.set 4 8#8)) base).slu.rx = .draining := by decide +kernel
theorem test_supFrameLengthFault : sent (.supFrameLengthFault 245#8) base = some (.faultReport { Faults.empty with length := true } none)
    ∧ (after (.supFrameLengthFault 245#8) base).slu.rx = .draining := by decide +kernel
theorem test_supInterbyteGap : sent (.supInterbyteGap (raw [0xC3, 4, 1, 1]) 0xC3#8) base
      = some (.faultReport { Faults.empty with gap := true, kind := true } none)
    ∧ (after (.supInterbyteGap (raw [0xC3, 4, 1, 1]) 0xC3#8) base).slu.rx = .receiving := by decide +kernel

/-- `base` with its supervisory unit changed. -/
def withSlu (f : Slu → Slu) : State := { base with slu := f base.slu }

theorem test_supDrainIdle : (after .supDrainIdle (withSlu fun u => { u with rx := .draining })).slu.rx = .hunting := by decide +kernel
/-- What arrives while the receiver drains is discarded; a payload of a wrong length drains it (R179, R180). -/
theorem test_draining : after (.getPort .centre 3 0) (withSlu fun u => { u with rx := .draining }) = withSlu (fun u => { u with rx := .draining })
    ∧ (after (.loadSegment .centre 3 0 []) base).slu.rx = .draining := by decide +kernel
/-- The line frees with a notice of section 2 waiting. -/
theorem test_transmitLineFree :
    let s := withSlu fun u => { u with line := some (.reply 1 4 .centre .done .none), noticeQ := [.sect 2], noticeCount := 255 }
    (after .transmitLineFree s).slu.line = some (.notice 255 (.sect 2) (.sect clearSec SecRestr.empty))
      ∧ (after .transmitLineFree s).slu.noticeQ = [] ∧ (after .transmitLineFree s).slu.noticeCount = 0 := by decide +kernel
/-- A fifth command while four wait behind a LOAD_END in progress is reported OVERRUN (R181). -/
theorem test_overrun : sent (.getPort .centre 7 0)
      { checkingLoad with slu := { checkingLoad.slu with line := some (.reply 1 4 .centre .done .none), inputQ := List.replicate 4 ⟨.centre, 1, .status⟩ } }
    = some (.faultReport { Faults.empty with overrun := true } (some (7, 1, 23))) := by decide +kernel

/-! ### The field bus (R44 to R49) -/

/-- `base` with the poll of controller `a` outstanding. -/
def polling (a : Nat) : State := { base with flu := { base.flu with pollPos := some a } }

/-- The answer of controller 1: section 2 OCCUPIED, the point without detection. -/
def answer1 : List Byte := answerFrame 1 [0, 0, 1, 0, 0, 5, 0, 0, 0, 0, 0, 0, 0, 0, 0, 0]

theorem test_fieldAnswerReceived :
    let t := after (.fieldAnswerReceived answer1) (polling 1)
    (t.sec 2).occ = .occupied ∧ (t.sec 1).occ = .clear ∧ (t.pt 0).pos = .lost ∧ (t.pt 0).detectionLost = true
      ∧ t.flu.pollPos = some 2 ∧ t.flu.lastPoll.map Poll.cmds = some ([.stop, .stop, .stop, .stop] ++ List.replicate 12 .nothing) := by decide +kernel
/-- The train passes the entry signal of route 1: OCCUPIED, the signal at STOP and free (R119). -/
theorem test_fieldAnswer_entry :
    let t := after (.fieldAnswerReceived (answerFrame 1 [0, 1, 0, 0, 0, 3, 0, 0, 0, 0, 0, 0, 0, 0, 0, 0])) { cleared with flu := (polling 1).flu }
    (t.slot 0).state = .occupied ∧ (t.slot 0).head = some 0 ∧ (t.sig 0).commanded = .stop ∧ (t.sig 0).owner = none := by decide +kernel
theorem test_fieldFrameInvalid : (after (.fieldFrameInvalid answer1) (polling 2)).ctrl? 2 = some ⟨2, .active, 1⟩
    ∧ (after (.fieldFrameInvalid answer1) (polling 2)).flu.pollPos = some 1 := by decide +kernel
/-- The fifth missed poll in a row takes the controller to LOST with its elements (R49). -/
theorem test_answerWaitExpiry :
    let t := after (.answerWaitExpiry true) { polling 1 with flu := { (polling 1).flu with ctrls := [⟨1, .active, 4⟩, ⟨2, .active, 0⟩] } }
    t.ctrl? 1 = some ⟨1, .lost, 5⟩ ∧ (t.sec 0).occ = .disturbed ∧ (t.sec 0).last = .noReport ∧ (t.pt 0).pos = .lost
      ∧ t.flu.poll = .lateFrame := by decide +kernel
theorem test_fieldLineIdle :
    (after .fieldLineIdle { base with flu := { base.flu with poll := .lateFrame } }).flu.poll = .waiting := by decide +kernel

/-! ### Timers (R31, R71, R81, R112, R114, R130, R172) -/

/-- The point moves to REVERSE. -/
def moving : State := { base with est := { base.est with points := [{ normalPt with pos := .moving, commanded := some .reverse, throwMs := some 0 }] } }

theorem test_throwTimerExpiry : let r := (after (.throwTimerExpiry 0) moving).pt 0
    r.pos = .lost ∧ r.commanded = none ∧ r.detectionLost = true ∧ r.throwMs = none := by decide +kernel

/-- Route 1 in a state of its own, its timer running. -/
def timed (st : SlotState) : State :=
  { cleared with rsu := { cleared.rsu with slots := cleared.rsu.slots.modify 0 fun k => { k with state := st, timerMs := some 0, head := some 2, release := some 1 } } }

theorem test_settingTimerExpiry : ((after (.settingTimerExpiry 0) (timed .setting)).slot 0).reason = .settingFailed .signal
    ∧ ((after (.settingTimerExpiry 0) (timed .clearing)).slot 0).reason = .cancelled := by decide +kernel
/-- Route 1 in SETTING, its PORT_FLANK request GRANTED by a neighbour whose link has left UP: cause NEIGHBOUR (R164, R71). -/
def settingPort : State := { timed .setting with rsu := { (timed .setting).rsu with
  slots := (timed .setting).rsu.slots.modify 0 fun k => { k with
    claims := [⟨.port 0, some (.path 0), false, true⟩], remote := [⟨.ask ⟨true, .port, 0, none⟩, 0, 5, .granted, none⟩] } } }

theorem test_settingTimerExpiry_link : ((after (.settingTimerExpiry 0) settingPort).slot 0).reason = .settingFailed .neighbour
    ∧ settingPort.linkUp 0 = false ∧ settingPort.intact 0 (.port 0) = false := by decide +kernel
theorem test_approachTimerExpiry : ((after (.approachTimerExpiry 0) (timed .approachLocked)).slot 0).reason = .approachReleased := by decide +kernel
theorem test_releaseTimerExpiry : ((after (.releaseTimerExpiry 0) (timed .releaseTiming)).slot 0).reason = .forced
    ∧ ((after (.releaseTimerExpiry 0) (timed .releaseTiming)).sec 1).owner = none := by decide +kernel
theorem test_overlapTimerExpiry :
    let t := after (.overlapTimerExpiry 0) (timed .berthed)
    (t.slot 0).state = .berthed ∧ (t.sec 4).owner = none ∧ (t.sec 2).owner = some (.slot 0) := by decide +kernel
theorem test_storeEntryExpiry :
    let t := after (.storeEntryExpiry 1) { base with rsu := { base.rsu with store := [⟨1, .centre, 0⟩, ⟨3, .panel, 9⟩] } }
    t.rsu.store = [⟨3, .panel, 9⟩] ∧ t.rsu.lastRemoval = some (1, .expired) := by decide +kernel
theorem test_twoStepWindowExpiry : (after (.twoStepWindowExpiry .centre) (prepared base .centre (.takeControl 1))).slu.gateCentre = none := by decide +kernel

/-! ### Neighbour telegrams (R141 to R146): station 7 on link 0 -/

/-- A telegram of station 7 with sequence 4: start, length, kind, identity, complement, alive byte, content, CRC-32. -/
def telegram (kind : Nat) (content : List Nat) : List Byte :=
  let covered := raw ([6 + content.length, kind, 0, 7, 0xFF, 0xF8, 4 + 16 * 11] ++ content)
  raw [0x7E] ++ covered ++ crc32Bytes (crc32 covered)

/-- HELLO: not seen, one port 0 that yields, NEUTRAL. -/
def helloTel : List Byte := telegram 0 [0, 1, 0, 1, 0]
/-- STATUS: port 0 NEUTRAL, no answer, no acceptance, CLEAR; no request; no answer. -/
def statusTel : List Byte := telegram 1 [1, 0, 0, 0, 0, 0xFF, 0, 0xFF, 0, 0, 0]
def haltTel : List Byte := telegram 2 []

theorem test_helloReceived : let k := (after (.helloReceived 0 helloTel) base).link 0
    k.state = .hello ∧ k.seen = true ∧ k.config = false ∧ k.nbPorts = some [0] ∧ k.lastSeq = some 4 ∧ k.timeoutMs = some 1500 := by decide +kernel
theorem test_statusTelegramReceived : ((after (.statusTelegramReceived 0 statusTel) (linked .hello .neutral)).link 0).state = .up
    ∧ ((after (.statusTelegramReceived 0 statusTel) base).link 0).state = .hello := by decide +kernel
theorem test_haltReceived : ((after (.haltReceived 0 haltTel) (linked .up .requesting)).link 0).state = .disturbed
    ∧ ((after (.haltReceived 0 haltTel) (linked .up .requesting)).port 0).view = .neutral := by decide +kernel
theorem test_telegramDiscarded : after (.telegramDiscarded 0 (haltTel.set 3 9#8)) (linked .up .neutral) = linked .up .neutral := by decide +kernel

/-- `linked` with another last sequence. -/
def lastSeq (s : State) (n : Nat) : State := { s with bdu := { s.bdu with links := s.bdu.links.modify 0 fun k => { k with lastSeq := some n } } }

/-- After 1 the sequences 2 and 3 are taken, 4 is a jump; after 4 the same is a duplicate; after 2 one is lost. -/
theorem test_sequenceJump : ((after (.sequenceJump 0 statusTel) (lastSeq (linked .up .neutral) 1)).link 0).state = .disturbed
    ∧ ((after (.sequenceJump 0 statusTel) (lastSeq (linked .up .neutral) 4)).link 0).state = .up
    ∧ ((after (.sequenceJump 0 statusTel) (lastSeq (linked .up .neutral) 2)).link 0).lastSeq = some 4 := by decide +kernel
theorem test_linkTimeout : let k := (after (.linkTimeout 0) (linked .up .neutral)).link 0
    k.state = .disturbed ∧ k.seen = false ∧ k.lastSeq = none ∧ k.timeoutMs = none := by decide +kernel
theorem test_telegramSendTimer : ((after (.telegramSendTimer 0) base).link 0).lastSent = some ⟨1, .hello false [⟨0, false, .neutral⟩], 0⟩
    ∧ ((after (.telegramSendTimer 0) base).link 0).nextSeq = 1 := by decide +kernel
theorem test_telegramChangeSpacing : ((after (.telegramChangeSpacing 0) (linked .up .out)).link 0).lastSent.isSome
    ∧ after (.telegramChangeSpacing 0) (after (.telegramSendTimer 0) base) = after (.telegramSendTimer 0) base := by decide +kernel

/-! ### Well-formed commands: an ill-formed term for each check -/

theorem test_wf_load : (Instr.loadBegin .centre 256 1).wf = false ∧ (Instr.loadBegin .centre 0 4294967296).wf = false
    ∧ (Instr.loadSegment .centre 256 0 [0#8]).wf = false ∧ (Instr.loadSegment .centre 0 65536 [0#8]).wf = false
    ∧ (Instr.loadSegment .centre 0 0 []).wf = false ∧ (Instr.loadSegment .centre 0 0 (List.replicate 201 0#8)).wf = false
    ∧ (Instr.loadEnd .centre 256 0 0#32).wf = false ∧ (Instr.loadEnd .centre 0 4294967296 0#32).wf = false
    ∧ (Instr.activate .centre 256).wf = false := by decide +kernel
theorem test_wf_routes : (Instr.setRoute .centre 256 1 0 0).wf = false ∧ (Instr.setRoute .centre 0 65536 0 0).wf = false
    ∧ (Instr.setRoute .centre 0 1 256 0).wf = false ∧ (Instr.setRoute .centre 0 1 0 65536).wf = false
    ∧ (Instr.reclear .centre 256 1).wf = false ∧ (Instr.reclear .centre 0 65536).wf = false
    ∧ (Instr.cancelRoute .centre 256 1).wf = false ∧ (Instr.cancelRoute .centre 0 65536).wf = false
    ∧ (Instr.forcedRelease .centre 256 0 1).wf = false ∧ (Instr.forcedRelease .centre 0 256 1).wf = false
    ∧ (Instr.forcedRelease .centre 0 0 65536).wf = false := by decide
theorem test_wf_elements : (Instr.movePoint .centre 256 0 0).wf = false ∧ (Instr.movePoint .centre 0 256 0).wf = false
    ∧ (Instr.movePoint .centre 0 0 256).wf = false ∧ (Instr.restoreSection .centre 256 0).wf = false
    ∧ (Instr.restoreSection .centre 0 256).wf = false ∧ (Instr.addRestriction .centre 256 0 0 0 0).wf = false
    ∧ (Instr.addRestriction .centre 0 256 0 0 0).wf = false ∧ (Instr.addRestriction .centre 0 0 256 0 0).wf = false
    ∧ (Instr.addRestriction .centre 0 0 0 256 0).wf = false ∧ (Instr.addRestriction .centre 0 0 0 0 256).wf = false
    ∧ (Instr.removeRestriction .centre 256 0 0 0).wf = false ∧ (Instr.removeRestriction .centre 0 256 0 0).wf = false
    ∧ (Instr.removeRestriction .centre 0 0 256 0).wf = false ∧ (Instr.removeRestriction .centre 0 0 0 256).wf = false := by decide
theorem test_wf_boundary : (Instr.requestDirection .centre 256 0).wf = false ∧ (Instr.requestDirection .centre 0 256).wf = false
    ∧ (Instr.forceDirection .centre 256 0).wf = false ∧ (Instr.forceDirection .centre 0 256).wf = false
    ∧ (Instr.clearRemoteClaims .centre 256 0).wf = false ∧ (Instr.clearRemoteClaims .centre 0 256).wf = false
    ∧ (Instr.giveControl .centre 256 0 0).wf = false ∧ (Instr.giveControl .centre 0 256 0).wf = false
    ∧ (Instr.giveControl .centre 0 0 256).wf = false ∧ (Instr.takeControl .centre 256 0).wf = false
    ∧ (Instr.takeControl .centre 0 256).wf = false := by decide
theorem test_wf_gates : (Instr.prepare .centre 256 (.takeControl 0)).wf = false ∧ (Instr.prepare .centre 0 (.takeControl 256)).wf = false
    ∧ (Instr.execute .centre 256 (.takeControl 0)).wf = false ∧ (Instr.execute .centre 0 (.restoreSection 256)).wf = false
    ∧ (Inner.forcedRelease 256 0).wf = false ∧ (Inner.forcedRelease 0 65536).wf = false ∧ (Inner.removeRestriction 256 0 0).wf = false
    ∧ (Inner.removeRestriction 0 256 0).wf = false ∧ (Inner.removeRestriction 0 0 256).wf = false ∧ (Inner.forceDirection 256).wf = false
    ∧ (Inner.clearRemoteClaims 256).wf = false ∧ (Inner.restart 256).wf = false ∧ (Inner.other 256 []).wf = false
    ∧ (Inner.other 12 [0#8]).wf = false ∧ (Inner.other 0 (List.replicate 240 0#8)).wf = false
    ∧ (Instr.restart .centre 256 0).wf = false ∧ (Instr.restart .centre 0 256).wf = false := by decide +kernel
theorem test_wf_queries : (Instr.status .centre 256).wf = false ∧ (Instr.getElement .centre 256 0 0).wf = false
    ∧ (Instr.getElement .centre 0 256 0).wf = false ∧ (Instr.getElement .centre 0 0 256).wf = false
    ∧ (Instr.getPort .centre 256 0).wf = false ∧ (Instr.getPort .centre 0 256).wf = false ∧ (Instr.getLink .centre 256 0).wf = false
    ∧ (Instr.getLink .centre 0 256).wf = false ∧ (Instr.getInstance .centre 256 0).wf = false ∧ (Instr.getInstance .centre 0 256).wf = false
    ∧ (Instr.readTable .centre 256 0 0).wf = false ∧ (Instr.readTable .centre 0 256 0).wf = false
    ∧ (Instr.readTable .centre 0 0 65536).wf = false := by decide
theorem test_wf_events : (Instr.supFrameComplete (List.replicate 7 0#8)).wf = false ∧ (Instr.supFrameLengthFault 4#8).wf = false
    ∧ (Instr.supFrameLengthFault 244#8).wf = false ∧ (Instr.supInterbyteGap [] 0#8).wf = false
    ∧ (Instr.fieldAnswerReceived (List.replicate 21 0#8)).wf = false ∧ (Instr.throwTimerExpiry 96).wf = false
    ∧ (Instr.settingTimerExpiry 48).wf = false ∧ (Instr.approachTimerExpiry 48).wf = false ∧ (Instr.releaseTimerExpiry 48).wf = false
    ∧ (Instr.overlapTimerExpiry 48).wf = false ∧ (Instr.storeEntryExpiry 0).wf = false ∧ (Instr.storeEntryExpiry 513).wf = false
    ∧ (Instr.helloReceived 4 []).wf = false ∧ (Instr.statusTelegramReceived 4 []).wf = false ∧ (Instr.haltReceived 4 []).wf = false
    ∧ (Instr.telegramDiscarded 4 []).wf = false ∧ (Instr.sequenceJump 4 []).wf = false ∧ (Instr.linkTimeout 4).wf = false
    ∧ (Instr.telegramSendTimer 4).wf = false ∧ (Instr.telegramChangeSpacing 4).wf = false := by decide +kernel

/-! ### The sweep (R26) and time -/

/-- The sweep of R26: OCCUPIED, then CLEAR returns the section to service; CLEAR alone does not. -/
theorem test_sweep : let r := { clearSec with occ := .disturbed }
    ((r.report .occupied).report .clear).occ = .clear ∧ (r.report .clear).occ = .disturbed
      ∧ (((r.report .occupied).report .disturbed).report .clear).occ = .disturbed := by decide
/-- No word spells a command. -/
theorem test_decodeTableWord : decodeTableWord 8 0 = none ∧ State.reset.withFetchWord 8 0 = State.reset := by decide +kernel

/-! ### What the statements are about: for each statement with hypotheses, states and operands that meet them, clause by clause -/

theorem witness_EmptyQueueTick : State.reset.pending = [] ∧ State.reset.mdc.power ≠ .running
    ∧ base.pending = [] ∧ base.mdc.power = .running := by decide +kernel
theorem witness_EveryCommandCompletes : held.alive = false ∧ (Instr.status .centre 0) ≠ .powerOn ∧ (Instr.status .centre 0) ≠ .powerLoss
    ∧ (Instr.status .centre 0) ≠ .resetLineRelease := by decide +kernel

/-- A state that meets every invariant, with a route live and a command waiting that changes the station. -/
def running : State := { cleared with pending := [.cancelRoute .centre 3 1] }

theorem running_steps : ∃ t, step running = .next t := ⟨_, rfl⟩
theorem witness_CapacitiesKept : running.queuesHold ∧ running.linksHold := by
  have links : running.linksHold := by unfold State.linksHold; decide +kernel
  refine ⟨?_, links⟩
  constructor
  case lasting =>
    intro q h
    rw [show running.slu.inProgress = none by decide +kernel] at h
    exact nomatch h
  case served => intro _; unfold State.served; decide +kernel
  case waiting => exact fun _ h => absurd (show running.slu.inputQ = [] by decide +kernel) h
  all_goals decide +kernel
/-- Beyond the slots every slot is FREE. -/
theorem slot_beyond {s : State} {i : Nat} (hi : s.rsu.slots.length ≤ i) : s.slot i = Slot.start := by
  simp [State.slot, List.getD_eq_getElem?_getD, List.getElem?_eq_none hi]
/-- Beyond the signals every record is the start's. -/
theorem sig_beyond {s : State} {g : Nat} (hg : s.est.signals.length ≤ g) : s.sig g = SignalRec.start := by
  simp [State.sig, List.getD_eq_getElem?_getD, List.getElem?_eq_none hg]
/-- Slot 0 alone is live where none of the others is. -/
theorem live_of {s : State} (hl : s.rsu.slots.length = 48) (h : ∀ i, i < 48 → s.live i = true → i = 0) : ∀ i, s.live i = true → i = 0 := by
  intro i hi
  by_cases hb : i < 48
  · exact h i hb hi
  · simp [State.live, slot_beyond (by omega : s.rsu.slots.length ≤ i), Slot.start] at hi
/-- The counts are exact where they are so for what is defined, the FREE slots ask nothing, and the tables are empty. -/
theorem counts_of {s : State} (hl : s.rsu.slots.length = 48) (hp : s.mdc.power ≠ .checking) (ht : ∀ l e x, s.entry l e ≠ some x)
    (hs : ∀ k, k < s.est.sections.length → (s.sec k).claims = countOn s.allClaims ⟨.sect, k⟩)
    (hq : ∀ k, k < s.est.points.length → (s.pt k).claims = countOn s.allClaims ⟨.point, k⟩)
    (hg : ∀ k, k < s.est.signals.length → (s.sig k).holds = countOn s.allClaims ⟨.signal, k⟩)
    (hf : ∀ i, i < 48 → s.live i = false → (s.slot i).claims = []) : s.countsExact := by
  refine ⟨hs, hq, hg, fun i h => ?_, fun l e x hx => absurd hx (ht l e x), fun h => absurd h hp⟩
  by_cases hi : i < 48
  · exact hf i hi h
  · rw [slot_beyond (by omega : s.rsu.slots.length ≤ i)]; rfl
/-- The signals are as `State.clearedOwned` has it where slot 0 alone is live and they are so for it. -/
theorem owned_of {s : State} (hp : s.mdc.power ≠ .checking) (live : ∀ i, s.live i = true → i = 0)
    (ha : ∀ g, g < s.est.signals.length → (s.sig g).commanded ≠ .stop → (s.sig g).owner = some 0
      ∧ ((s.slot 0).state = .clearing ∨ (s.slot 0).state = .cleared) ∧ (s.sig g).holds = 0 ∧ (s.sigRestr g).noClear = false)
    (ho : ∀ g, g < s.est.signals.length → (s.sig g).owner = none
      ∨ (s.sig g).owner = some 0 ∧ s.live 0 = true ∧ (s.slotRoute 0).entry = g ∧ (s.sig g).holds = 0)
    (he : (s.sig (s.slotRoute 0).entry).owner = some 0) : s.clearedOwned := by
  refine ⟨fun g h => ?_, fun g i h => ?_, fun i h _ => ?_, fun h => absurd h hp⟩
  · by_cases hg : g < s.est.signals.length
    · exact ⟨0, ha g hg h⟩
    · exact absurd (by rw [sig_beyond (by omega)]; rfl) h
  · by_cases hg : g < s.est.signals.length
    · rcases ho g hg with hn | ⟨hz, hr⟩
      · rw [hn] at h; exact nomatch h
      · rw [hz] at h
        obtain rfl := Option.some.inj h
        exact hr
    · rw [sig_beyond (by omega)] at h; exact nomatch h
  · obtain rfl : i = 0 := live i (by rcases h with h | h | h | h <;> simp [State.live, h])
    exact he
/-- Slot 0 alone is live. -/
theorem running_live : ∀ i, running.live i = true → i = 0 := live_of (by decide +kernel) (by decide +kernel)
/-- No table of `running` has an entry. -/
theorem running_entry : ∀ l e x, running.entry l e ≠ some x := by
  intro l e x h
  have ht : ∀ k ∈ running.bdu.links, ∀ y ∈ k.table, y = none := by decide +kernel
  have hk : ∀ y ∈ (running.link l).table, y = none := by
    by_cases hl : l < running.bdu.links.length
    · have : running.link l = running.bdu.links[l] := by simp [State.link, List.getD_eq_getElem?_getD, List.getElem?_eq_getElem hl]
      rw [this]; exact ht _ (List.getElem_mem _)
    · have : running.link l = Link.start := by
        simp [State.link, List.getD_eq_getElem?_getD, List.getElem?_eq_none (by omega : running.bdu.links.length ≤ l)]
      rw [this]; simp [Link.start]
  have he : (running.link l).table[e]?.getD none = some x := by
    rw [← List.getD_eq_getElem?_getD]; exact h
  cases hg : (running.link l).table[e]? with
  | none => rw [hg] at he; exact absurd he (by simp)
  | some y =>
    rw [hg] at he
    rw [hk y (List.mem_of_getElem? hg)] at he
    exact absurd he (by simp)
theorem witness_CapacitiesKept_store : running.storeAgrees ∧ running.live 0 = true := by
  have none : running.rsu.store = [] := by decide +kernel
  refine ⟨⟨by decide +kernel, fun e he => ?_, fun i j _ hi hj _ _ => (running_live i hi).trans (running_live j hj).symm⟩, by decide +kernel⟩
  rw [none] at he
  exact nomatch he
/-- `running`, with a claim of slot 0 on the point it locks: its list asks point 0 in NORMAL. -/
def claiming : State := { running with
  est := { running.est with points :=
    [{ normalPt with owner := some (.slot 0), kind := some .path, lockedPos := some .normal, claims := 1, claimPos := some .normal }] }
  rsu := { running.rsu with slots := running.rsu.slots.modify 0 fun k =>
    { k with claims := [⟨.signal 2, some (.path 0), false, true⟩, ⟨.point 0 .normal, some (.path 0), false, true⟩] } } }

theorem claiming_entry (l e : Nat) (x : RemoteEntry) : claiming.entry l e ≠ some x := running_entry l e x
theorem witness_PointsAgreeKept_positions : claiming.positionsAgree ∧ (claiming.pt 0).owner = some (.slot 0) := by
  refine ⟨⟨by decide +kernel, by decide +kernel, by decide +kernel, ?_, fun l e x _ h => absurd h (claiming_entry l e x),
    fun l e x h => absurd h (claiming_entry l e x)⟩, by decide +kernel⟩
  intro k i h
  by_cases hk : k < claiming.est.points.length
  · have hk0 : k = 0 := by
      have : claiming.est.points.length = 1 := by decide +kernel
      omega
    subst hk0
    rw [show (claiming.pt 0).owner = some (.slot 0) by decide +kernel] at h
    simp only [Option.some.injEq, Owner.slot.injEq] at h
    subst h
    exact ⟨by decide +kernel, fun hkind => absurd hkind (by decide +kernel)⟩
  · have : claiming.pt k = PointRec.start := by
      simp [State.pt, List.getD_eq_getElem?_getD, List.getElem?_eq_none (by omega : claiming.est.points.length ≤ k)]
    rw [this] at h
    simp [PointRec.start] at h
theorem witness_PointsAgreeKept_claims : claiming.countsExact ∧ claiming.claimsAsk ∧ .point 0 .normal ∈ claiming.allClaims := by
  have asked : claiming.allClaims = [.signal 2, .point 0 .normal] := by decide +kernel
  refine ⟨?_, fun k p h _ => ?_, by simp [asked]⟩
  · refine counts_of ?_ ?_ claiming_entry ?_ ?_ ?_ ?_ <;> decide +kernel
  · rw [asked] at h
    simp only [List.mem_cons, reduceCtorEq, ClaimOn.point.injEq, List.not_mem_nil, or_false, false_or] at h
    obtain ⟨rfl, rfl⟩ := h
    decide +kernel
theorem witness_OwnersLiveKept_views : running.viewsAgree ∧ (linked .up .out).live 0 = false := by
  refine ⟨⟨fun i h hk => ?_, fun p h => ?_, fun h => absurd h (by decide +kernel)⟩, by decide +kernel⟩
  · rw [running_live i h] at hk; exact absurd hk (by decide +kernel)
  · by_cases hp : p < running.bdu.ports.length
    · have hp0 : p = 0 := by
        have : running.bdu.ports.length = 1 := by decide +kernel
        omega
      subst hp0
      exact absurd h (by decide +kernel)
    · have : running.port p = Port.start := by
        simp [State.port, List.getD_eq_getElem?_getD, List.getElem?_eq_none (by omega : running.bdu.ports.length ≤ p)]
      rw [this] at h
      exact absurd h (by decide)
theorem witness_CountsKept_exact : running.countsExact ∧ (running.sig 2).holds = 1 := by
  refine ⟨counts_of ?_ ?_ running_entry ?_ ?_ ?_ ?_, ?_⟩ <;> decide +kernel
theorem witness_CanonicalKept : running.canonical := by constructor <;> decide +kernel
theorem witness_SignalsStopKept : (inMode .halted).signalsStop ∧ (inMode .halted).mdc.mode ≠ .operational := by
  refine ⟨fun _ => ?_, ?_⟩ <;> decide +kernel
/-- Signal 0 is away from STOP, owned by slot 0 in CLEARED. -/
theorem witness_SignalsStopKept_owned : running.clearedOwned ∧ (running.sig 0).commanded = .proceed := by
  refine ⟨owned_of ?_ running_live ?_ ?_ ?_, ?_⟩ <;> decide +kernel
theorem witness_ModesKept : running.modesLegal := by constructor <;> decide +kernel
/-- A LOADING begun from HALTED keeps image and halt reason; the start check has neither. -/
theorem witness_ModesKept_loading : { loading with mdc.halt := some .image }.modesLegal ∧ cold.modesLegal := by
  refine ⟨?_, ?_⟩ <;> constructor <;> decide +kernel
theorem witness_PointsAgreeKept : running.pointsAgree := by
  intro r hr
  have : r = { normalPt with owner := some (.slot 0), kind := some .path, lockedPos := some .normal } := by simpa [running, cleared] using hr
  subst this
  exact ⟨rfl, rfl⟩

/-- An owner among records whose owners are all none or slot 0. -/
theorem witness_OwnersLiveKept : running.ownersLive ∧ (running.sec 1).owner = some (.slot 0) := by
  have live : running.live 0 = true := by decide +kernel
  refine ⟨⟨fun r hr i e => ?_, fun r hr i e => ?_, fun r hr i e => ?_⟩, by decide +kernel⟩
  · have h : ∀ r ∈ running.est.sections, r.owner = none ∨ r.owner = some (.slot 0) := by decide +kernel
    rcases h r hr with h | h <;> rw [h] at e <;> simp at e
    subst e; exact live
  · have h : ∀ r ∈ running.est.points, r.owner = none ∨ r.owner = some (.slot 0) := by decide +kernel
    rcases h r hr with h | h <;> rw [h] at e <;> simp at e
    subst e; exact live
  · have h : ∀ r ∈ running.est.signals, r.owner = none ∨ r.owner = some 0 := by decide +kernel
    rcases h r hr with h | h <;> rw [h] at e <;> simp at e
    subst e; exact live
theorem witness_CountsKept : running.countsHold := by constructor <;> decide +kernel

theorem witness_TelegramReadsBack : (65535 < 65536) ∧ (15 < 16) ∧ (TelBody.hello true [⟨255, true, .neutral⟩]).sendable
    ∧ (TelBody.status [⟨0, .outMine, .none, some 255, .granted, some 0, .clear⟩] [(255, ⟨false, .sect, 239, some .clear⟩)] [⟨0, .refused none⟩]).sendable
    ∧ TelBody.halt.sendable := by
  simp [TelBody.sendable, PortEntry.sendable]
theorem witness_FrameIsItsCommand : (rowOf .panel 255 (.prepare (.other 0 []))).wf = true ∧ cmdSized (.prepare (.other 0 [])) = true
    ∧ base.alive = true ∧ base.slu.rx ≠ .draining ∧ (withSlu fun u => { u with rx := .draining }).slu.rx = .draining := by decide +kernel

/-- Each kind of change that is noted: a section, the point, a signal, a slot; a port, a link; the store; the system. -/
theorem witness_ChangesNoted : base.sec 1 ≠ (finish base cleared).sec 1 ∧ (base.pt 0).still ≠ ((finish base cleared).pt 0).still
    ∧ base.sig 0 ≠ (finish base cleared).sig 0 ∧ (base.slot 0).still ≠ ((finish base cleared).slot 0).still
    ∧ base.port 0 ≠ (finish base (linked .up .out)).port 0 ∧ (base.link 0).key ≠ ((finish base (linked .up .out)).link 0).key
    ∧ ({ base with rsu := { base.rsu with lastRemoval := some (1, .set) } } : State).rsu.storeKey ≠ (finish base base).rsu.storeKey
    ∧ base.systemKey ≠ (finish base (inMode .halted)).systemKey ∧ base.slu.noticeQ.Nodup := by decide +kernel

theorem witness_ResetLineRows : held.alive = false ∧ base.alive = true ∧ held.mdc.power = .held ∧ base.mdc.power ≠ .held := by decide +kernel
/-- The check of an image left partly written, with no image active before it. -/
theorem witness_StartCheckRow_failing : let s := State.coldStart ⟨[1#8], 0#32, true⟩ 0 []
    s.modesLegal ∧ s.mdc.power = .checking ∧ s.sds.stored.check.code ≠ 0 := by
  refine ⟨?_, by decide +kernel, by decide +kernel⟩
  constructor <;> decide +kernel
theorem witness_StartCheckRow : base.mdc.power ≠ .checking ∧ cold.mdc.power = .checking ∧ cold.sds.stored.check.code = 0
    ∧ State.reset.mdc.power = .checking ∧ State.reset.sds.stored.check.code ≠ 0 := by
  have h : cold.sds.stored.check.code = 0 := by rw [show cold.sds.stored.check = _ from stored_passes]
  exact ⟨by decide +kernel, by decide +kernel, h, by decide +kernel, by decide +kernel⟩
theorem witness_StartUpRows : starting.mdc.power = .running ∧ starting.mdc.mode = .starting
    ∧ starting.sds.active = some ⟨station, 543988980#32⟩ ∧ starting.mdc.startCrc = .running
    ∧ (∀ x ∈ polled.flu.ctrls, x.state ≠ .unknown) ∧ ¬((∀ x ∈ starting.flu.ctrls, x.state ≠ .unknown) ∨ starting.mdc.startupExpired = true)
    ∧ (0#32 : Crc32) ≠ 543988980#32 ∧ matched.mdc.startupMs.isSome ∧ matched.mdc.startCrc = .matched ∧ starting.mdc.startupMs.isSome
    ∧ starting.mdc.startCrc ≠ .matched := by decide +kernel
/-- UNKNOWN controllers at the entry: the timer has expired, or expires; controller 2 serves signal 0. -/
theorem witness_StartUpRows_unknown : starting.unknownAt 2 = true ∧ starting.unknownAt 1 = false ∧ (starting.sigDef 0).ctrl = 2
    ∧ ({ starting with mdc := { starting.mdc with startupExpired := true } } : State).mdc.startupExpired = true
    ∧ matched.unknownAt 2 = true ∧ ((after .startupTimerExpiry matched).sig 0).reported = .unknown
    ∧ ((after .startupTimerExpiry matched).sec 0).occ = .clear ∧ base.mdc.startupMs = none ∧ matched.mdc.startCrc ≠ .running := by
  decide +kernel
theorem witness_VerifyRows : base.mdc.power = .running ∧ base.sds.active = some ⟨station, 543988980#32⟩ ∧ base.sds.verifyMs.isSome
    ∧ verifying.sds.active = some ⟨station, 543988980#32⟩ ∧ verifying.sds.verifyPass = true ∧ verifying.sds.verifyMs = none
    ∧ base.sds.verifyPass = false ∧ (0#32 : Crc32) ≠ 543988980#32 := by decide +kernel

/-! The load. -/

theorem witness_LoadBeginRow : readyB base = true ∧ base.mdc.mode ≠ .unconfigured ∧ base.mdc.mode ≠ .halted ∧ readyB (inMode .halted) = true
    ∧ (inMode .halted).mdc.mode = .halted ∧ readyB (inMode .unconfigured) = true ∧ (inMode .unconfigured).mdc.mode = .unconfigured := by decide +kernel
theorem witness_LoadSegmentRow : readyB loading = true ∧ loading.mdc.mode = .loading ∧ loading.sds.load.owner = some .centre
    ∧ loading.sds.load.state ≠ .closed ∧ loading.sds.load.declared < 4 + 1 ∧ 3 + 1 ≤ loading.sds.load.declared
    ∧ Memory.wf loading.sds.buffer = true ∧ loading.sds.load.owner ≠ some .panel ∧ 200 < (List.replicate 201 0#8).length := by decide +kernel
theorem witness_LoadEndRows : readyB loading = true ∧ loading.mdc.mode = .loading ∧ loading.sds.load.owner = some .centre
    ∧ loading.sds.load.state ≠ .closed ∧ 5 ≠ loading.sds.load.declared ∧ 4 = loading.sds.load.declared ∧ loading.sds.load.owner ≠ some .panel
    ∧ checkingLoad.mdc.power = .running ∧ checkingLoad.slu.inProgress = some ⟨.centre, 9, .loadEnd 4 0#32⟩
    ∧ Memory.wf checkingLoad.sds.buffer = true
    ∧ (structuralChecks ((List.range 4).map fun a => Memory.read checkingLoad.sds.buffer a) 0#32).code ≠ 0 := by decide +kernel

/-- A load buffer that lists bytes from an address on, those that are 0 left out. -/
def cells : Nat → List Byte → List Host.Cell
  | _, [] => []
  | a, b :: rest => if b = 0 then cells (a + 1) rest else (a, b) :: cells (a + 1) rest

/-- LOAD_END over the test image, in progress. -/
def loaded : State := { checkingLoad with
  sds := { checkingLoad.sds with buffer := cells 0 imageBytes, load := ⟨.opened, 329, some .centre, some .halted, none⟩ }
  slu := { base.slu with inProgress := some ⟨.centre, 9, .loadEnd 329 543988980#32⟩ } }

/-- The checks that pass, in a load. -/
theorem witness_LoadEndRows_accepted : loaded.slu.inProgress = some ⟨.centre, 9, .loadEnd 329 543988980#32⟩
    ∧ Memory.wf loaded.sds.buffer = true
    ∧ (structuralChecks ((List.range 329).map fun a => Memory.read loaded.sds.buffer a) 543988980#32).code = 0 := by
  have e : (List.range 329).map (fun a => Memory.read loaded.sds.buffer a) = imageBytes := by decide +kernel
  refine ⟨by decide +kernel, by decide +kernel, ?_⟩
  rw [e]
  have h := stored_passes
  unfold Stored.check at h
  simp only [Bool.not_false, Bool.and_true] at h
  exact congrArg CheckResult.code h
/-- Checks 1 and 2 that fail, a later one that does, and none. -/
theorem witness_LoadEndRows_checks : crc32 digits ≠ 0#32 ∧ ¬(1 ≤ u16 digits 0 ∧ u16 digits 0 ≤ 65534 ∧ u16 digits 2 = 65535 - u16 digits 0)
    ∧ (1 ≤ u16 imageBytes 0 ∧ u16 imageBytes 0 ≤ 65534 ∧ u16 imageBytes 2 = 65535 - u16 imageBytes 0) ∧ crc32 imageBytes = 543988980#32
    ∧ structuralChecks (raw [0, 1, 0xFF, 0xFE]) (crc32 (raw [0, 1, 0xFF, 0xFE])) = ⟨3, some (.header, 0)⟩ := by
  refine ⟨?_, ?_, ?_, crc_image, ?_⟩
  all_goals decide +kernel
theorem witness_LoadEndRows_routes : failRanges imageBytes = none ∧ ((readImage imageBytes).routes.map RouteDef.number).Nodup
    ∧ (readImage imageBytes).routes ≠ [] := by decide +kernel
theorem witness_ActivateRows : readyB loading = true ∧ loading.sds.load.state ≠ .accepted
    ∧ readyB { activating with slu := base.slu } = true ∧ activating.mdc.mode = .loading ∧ activating.sds.load.owner = some .centre
    ∧ activating.sds.load.state = .accepted ∧ activating.mdc.power = .running ∧ activating.slu.inProgress = some ⟨.centre, 9, .activate⟩
    ∧ Memory.wf activating.sds.buffer = true := by decide +kernel

/-! Routes. -/

/-- A section carries NO_ROUTE. -/
def noRouteOn (k : Nat) : State := { base with est := { base.est with secRestr := [(k, ⟨true, none⟩)] } }
/-- Section 1 OCCUPIED, the store holding some requests. -/
def taken (store : List StoreEntry) : State :=
  { secIs 1 (fun r => { r with occ := .occupied }) with rsu := { base.rsu with store := store } }
def fullStore : List StoreEntry := (List.range 16).map fun k => ⟨100 + k, .centre, 1000⟩
/-- Route 3 with its point listed seventeen times: its flank needs 34 entries. -/
def crowded : State := { base with sds := { base.sds with
  active := some ⟨{ station with routes := [{ route3 with pathPoints := List.replicate 17 ⟨0, .reverse, 0⟩ }] }, 0#32⟩ } }

theorem witness_SetRouteRow_early : readyB base = true ∧ ¬(1 ≤ 0 ∧ 0 ≤ 512) ∧ ¬(1 ≤ 513 ∧ 513 ≤ 512) ∧ 1 < 2 ∧ 65535 < 65536
    ∧ readyB (inMode .starting) = true ∧ (inMode .starting).operational = false
    ∧ base.operational = true ∧ base.routeDef? 512 = none ∧ base.routeDef? 1 = some route1
    ∧ base.holds .panel (base.sigDef route1.entry).area ≠ true ∧ base.holds .centre (base.sigDef route1.entry).area = true := by decide +kernel
theorem witness_SetRouteRow_checks : readyB cleared = true ∧ cleared.live 0 = true ∧ (cleared.slot 0).route = some 1
    ∧ readyB (noRouteOn 1) = true ∧ (noRouteOn 1).blockedBy route1 = some ⟨.sect, 1⟩
    ∧ readyB disturbed0 = true ∧ (secIs 1 fun r => { r with occ := .disturbed }).faultyOf route1 = some ⟨.sect, 1⟩
    ∧ (secIs 1 fun r => { r with occ := .disturbed }).blockedBy route1 = none
    ∧ base.routeDef? 2 = some route2 ∧ route2.kind = .exit ∧ (base.port route2.exit).view ≠ .out
    ∧ base.blockedBy route2 = none ∧ base.faultyOf route2 = none := by decide +kernel
theorem witness_SetRouteRow_check8 : readyB crowded = true ∧ (∃ d, crowded.routeDef? 3 = some d ∧ crowded.check8 d = .refused .fault none
      ∧ crowded.blockedBy d = none ∧ crowded.faultyOf d = none ∧ d.kind ≠ .exit)
    ∧ readyB (taken []) = true ∧ (taken []).check8 route1 = .refused .conflict (some ⟨.sect, 1⟩) ∧ (taken []).blockedBy route1 = none
    ∧ (taken []).faultyOf route1 = none ∧ route1.kind ≠ .exit ∧ (taken []).rsu.store.length < 16
    ∧ readyB (taken fullStore) = true ∧ (taken fullStore).check8 route1 = .refused .conflict (some ⟨.sect, 1⟩)
    ∧ 16 ≤ (taken fullStore).rsu.store.length := by
  refine ⟨by decide +kernel, ⟨{ route3 with pathPoints := List.replicate 17 ⟨0, .reverse, 0⟩ }, by decide +kernel⟩, by decide +kernel⟩
/-- Accepted: a MAIN route, a SHUNT route that moves its point, an EXIT route; the hypotheses of the acceptance. -/
theorem witness_AcceptanceEffect : base.routeChecks .centre 1 false = .accepted 0 [⟨.signal 2, some (.path 0), false, false⟩]
    ∧ base.routeDef? 1 = some route1 ∧ (route1.points.map Prod.fst).Nodup ∧ (base.pt 0).pos = Pos.normal.rest
    ∧ base.routeChecks .centre 3 true = .accepted 0 [⟨.sect 2, some (.path 0), false, false⟩, ⟨.sect 4, some (.path 0), false, false⟩]
    ∧ base.routeDef? 3 = some route3 ∧ (route3.points.map Prod.fst).Nodup ∧ (base.pt 0).pos = Pos.reverse.other.rest
    ∧ (linked .up .out).routeChecks .centre 2 false = .accepted 0 [] := by decide +kernel
/-- Every check passes: a request of the host, and a stored one on a retry pass, whose own entry stands. -/
theorem witness_SetRouteRow_accepted : base.check8 route1 = .accepted 0 [⟨.signal 2, some (.path 0), false, false⟩]
    ∧ base.blockedBy route1 = none ∧ base.faultyOf route1 = none ∧ route1.kind ≠ .exit ∧ base.rsu.store = []
    ∧ (let s : State := { base with rsu := { base.rsu with store := [⟨1, .centre, 5⟩] } }
      s.routeChecks .centre 1 true = s.check8 route1 ∧ s.routeChecks .centre 1 false = .refused .duplicate none)
    ∧ (linked .up .out).blockedBy route2 = none ∧ ((linked .up .out).port 0).view = .out := by decide +kernel
/-- The acceptance clears at once, and waits in SETTING while the point moves. -/
theorem witness_AcceptanceEffect_clears :
    ((base.acceptRoute .centre route1 0 [⟨.signal 2, some (.path 0), false, false⟩]).slot 0).state = .clearing
    ∧ ((base.acceptRoute .centre route3 0 [⟨.sect 2, some (.path 0), false, false⟩]).slot 0).state = .setting := by decide +kernel
theorem witness_ReclearRow : readyB base = true ∧ ¬(1 ≤ 0 ∧ 0 ≤ 512) ∧ (inMode .halted).operational = false ∧ readyB (inMode .halted) = true
    ∧ base.routeDef? 4 = none ∧ base.routeDef? 1 = some route1 ∧ base.holds .panel (base.sigDef route1.entry).area = false
    ∧ base.holds .centre (base.sigDef route1.entry).area = true ∧ base.liveSlot 1 = none
    ∧ readyB cleared = true ∧ cleared.liveSlot 1 = some 0 ∧ (cleared.slot 0).state ≠ .held
    ∧ readyB (heldRoute { Holds.empty with lamp := true }) = true ∧ ((heldRoute { Holds.empty with lamp := true }).slot 0).holds ≠ Holds.empty
    ∧ (heldRoute Holds.empty).liveSlot 1 = some 0 ∧ ((heldRoute Holds.empty).slot 0).state = .held
    ∧ ((heldRoute Holds.empty).slot 0).holds = Holds.empty ∧ readyB (heldRoute Holds.empty) = true := by decide +kernel

/-- Route 1's instance in a state. -/
def route1In (st : SlotState) : State :=
  { cleared with rsu := { cleared.rsu with slots := cleared.rsu.slots.modify 0 fun k => { k with state := st } } }

/-- Route 1 BERTHED with port 0 OUT and its link UP: the donor of route 2, whose path is its overlap section. -/
def donating : State := { route1In .berthed with bdu := (linked .up .out).bdu }

theorem witness_AcceptanceEffect_donor : donating.donor route2 = some 0 ∧ (donating.sec 4).owner = some (.slot 0)
    ∧ (donating.sec 4).kind = some .overlap ∧ 4 ∈ route2.sections ∧ 4 ∈ (donating.slotRoute 0).overlapSecs
    ∧ ((donating.sig 1).owner = none) ∧ donating.routeDef? 2 = some route2
    ∧ donating.routeChecks .centre 2 false = .accepted 1 [] := by decide +kernel
/-- Section 2 leads to the NORMAL leg of a second point, which route 3's flank search turns away and so moves; section 3 carries a
mark. -/
def farPoint : State := { base with
  sds := { base.sds with active := some ⟨{ station with
    sections := station.sections.modify 2 fun d => { d with endB := .leg 1 .normal }
    points := station.points ++ [⟨4, 2, 0, 4, 1, 6, 0⟩] }, 0#32⟩ }
  est := { base.est with
    points := base.est.points ++ [normalPt]
    sections := base.est.sections.modify 3 fun r => { r with vanished := true } } }

theorem witness_AcceptanceEffect_moves :
    let cs := [⟨.point 1 .reverse, some (.path 0), false, false⟩]
    farPoint.routeChecks .centre 3 false = .accepted 0 cs ∧ 1 ∉ route3.points.map Prod.fst ∧ (farPoint.pt 1).pos = Pos.reverse.other.rest
      ∧ ((farPoint.pt 1).claims = 0 ↔ (farPoint.pt 1).claimPos = none)
      ∧ (let b := farPoint.acceptRoute .centre route3 0 cs
        (b.pt 1).pos = .moving ∧ (b.pt 1).claimPos = some .reverse ∧ (b.sec 3).vanished = false) := by decide +kernel
/-- The donor's overlap claim on section 3 leaves with the takeover, and the section is enqueued (R41). -/
def donatingClaim : State := { donating with
  est := { donating.est with sections := donating.est.sections.modify 3 fun r => { r with claims := 1 } }
  rsu := { donating.rsu with slots := donating.rsu.slots.modify 0 fun k => { k with claims := [⟨.sect 3, some (.overlap 0), false, true⟩] } } }

theorem witness_AcceptanceEffect_claims :
    let b := donatingClaim.acceptRoute .centre route2 1 []
    (b.sec 3).claims ≠ (donatingClaim.sec 3).claims ∧ Ref.sect 3 ∈ b.slu.noticeQ
      ∧ donatingClaim.routeChecks .centre 2 false = .accepted 1 [] := by decide +kernel
/-- Checks 5, 6 and 8: an element each of them finds, a donor and none, a free slot, a search that ends each way. -/
theorem witness_SetRouteRow_finds : (noRouteOn 1).blockedBy route1 = some ⟨.sect, 1⟩ ∧ base.blockedBy route1 = none
    ∧ base.donor route1 = none ∧ donating.donor route2 = some 0 ∧ base.takenOf (base.needOf route1) route1 = none
    ∧ (taken []).takenOf ((taken []).needOf route1) route1 = some ⟨.sect, 1⟩ ∧ base.live 0 = false
    ∧ base.searchAll (base.needOf route1) route1.protPoints [] = .success [⟨.signal 2, some (.path 0), false, false⟩]
    ∧ crowded.searchAll (crowded.needOf { route3 with pathPoints := List.replicate 17 ⟨0, .reverse, 0⟩ })
        (RouteDef.protPoints { route3 with pathPoints := List.replicate 17 ⟨0, .reverse, 0⟩ }) [] = .limit
    ∧ (secIs 4 fun r => { r with occ := .occupied }).searchAll ((secIs 4 fun r => { r with occ := .occupied }).needOf route3) route3.protPoints []
        = .conflict 0 := by decide +kernel
theorem witness_CancelRouteRow : (∀ st ∈ [SlotState.setting, .clearing, .cleared, .held, .occupied, .berthed, .approachLocked, .releaseTiming],
      readyB (route1In st) = true ∧ (route1In st).liveSlot 1 = some 0 ∧ ((route1In st).slot 0).state = st)
    ∧ cleared.routeDef? 1 = some route1 ∧ cleared.holds .centre (cleared.sigDef route1.entry).area = true
    ∧ cleared.approachOccupied 0 = false ∧ (clearedWith 0 .occupied).approachOccupied 0 = true ∧ cleared.live 0 = true
    ∧ readyB (taken [⟨1, .centre, 5⟩]) = true ∧ (taken [⟨1, .centre, 5⟩]).liveSlot 1 = none ∧ (∃ e ∈ (taken [⟨1, .centre, 5⟩]).rsu.store, e.route = 1)
    ∧ base.liveSlot 1 = none ∧ ¬(∃ e ∈ base.rsu.store, e.route = 1) := by
  refine ⟨by decide +kernel, ?_⟩
  decide +kernel

/-- Route 1 CLEARED with the boundary section on its chain. -/
def nearPort (inc : Incoming) : State := { cleared with
  sds := { cleared.sds with active := some ⟨{ station with routes := [{ route1 with chain := [4] }] }, 0#32⟩ }
  bdu := ⟨cleared.bdu.links, cleared.bdu.ports.modify 0 fun q => { q with inc := inc, incTag := some 9 }⟩ }

/-- The approach occupied by a section, by an acceptance granted, by SHORT; free; an entry signal that is not the slot's. -/
theorem witness_CancelClearedEffect : (cleared.slot 0).figures = some ⟨80, none, 412, 512, 1, 1000, false, 46⟩
    ∧ cleared.approachOccupied 0 = false ∧ (clearedWith 0 .disturbed).approachOccupied 0 = true
    ∧ (nearPort .completed).approachOccupied 0 = true ∧ (nearPort .refused).approachOccupied 0 = false
    ∧ (clearedWith 3 .occupied).approachOccupied 0 = false ∧ cleared.live 0 = true
    ∧ (cleared.sig (cleared.slotRoute 0).entry).owner = some 0 := by decide +kernel

/-- Route 2, EXIT, live in slot 0 with its acceptance and its RESERVE request posted. -/
def exitRoute : State :=
  { base with
    bdu := ⟨base.bdu.links.modify 0 fun k => { k with state := .up, outgoing := [⟨1, ⟨false, .sect, 5, some .clear⟩, 0⟩] },
      base.bdu.ports.modify 0 fun q => { q with view := .out, outAcc := some (0, 0) }⟩
    rsu := { base.rsu with slots :=
      { Slot.start with
        route := some 2, kind := some .exit, originator := some .centre, state := .setting, timerMs := some 30000
        remote := [⟨.acceptance 0, 0, 0, .pending, none⟩, ⟨.ask ⟨false, .sect, 5, some .clear⟩, 0, 1, .pending, none⟩] } :: List.replicate 47 Slot.start } }

/-- A STATUS without an entry for the port answers its acceptance request with nothing: GRANTED becomes REFUSED (R163). -/
theorem test_missing_entry :
    let s : State := { exitRoute with
      rsu := { exitRoute.rsu with slots := exitRoute.rsu.slots.modify 0 fun k => { k with remote := [⟨.acceptance 0, 0, 0, .granted, none⟩] } } }
    ((s.actStatus 0 [] [] []).slot 0).remote.map RemoteReq.status = [.refused] := by decide +kernel

theorem witness_EndFreesAll : 0 < cleared.rsu.slots.length ∧ (cleared.sec 1).owner = some (.slot 0) ∧ (cleared.sec 0).owner ≠ some (.slot 0)
    ∧ (cleared.sig (cleared.slotRoute 0).entry).owner = some 0
    ∧ (exitRoute.slot 0).remote.map RemoteReq.what = [.acceptance 0, .ask ⟨false, .sect, 5, some .clear⟩] := by decide +kernel

/-! Timers. -/

/-- `timed` with another element record of its route. -/
def setting : State := timed .setting
/-- The point is LOST: a pending route point. -/
def settingPoint : State := { setting with est := { setting.est with points := [{ normalPt with pos := .lost }] } }
/-- The flank signal is not proven. -/
def settingFlank : State := { setting with est := { setting.est with signals := setting.est.signals.modify 2 fun r => { r with reported := .dark } } }
/-- The overlap section is DISTURBED. -/
def settingFault : State := { setting with est := { setting.est with sections := setting.est.sections.modify 4 fun r => { r with occ := .disturbed } } }

theorem witness_SettingExpiryRow : setting.mdc.power = .running ∧ (setting.slot 0).timerMs.isSome ∧ (setting.slot 0).state = .setting
    ∧ (∃ p ∈ settingPoint.pendingOf 0, p ∈ (settingPoint.slotRoute 0).points.map Prod.fst)
    ∧ settingFlank.pendingOf 0 = [] ∧ (settingFlank.slot 0).claims.map Claim.what = [.signal 2] ∧ (settingFlank.sig 2).reported ≠ .stop
    ∧ exitRoute.pendingOf 0 = [] ∧ (exitRoute.slot 0).claims = [] ∧ (∃ r ∈ (exitRoute.slot 0).remote, r.status ≠ .granted)
    ∧ settingFault.pendingOf 0 = [] ∧ (settingFault.slot 0).claims.map Claim.what = [.signal 2] ∧ (settingFault.sig 2) = (setting.sig 2)
    ∧ (settingFault.slot 0).remote = [] ∧ (∃ k ∈ (settingFault.slotRoute 0).sections, (settingFault.sec k).occ = .disturbed)
    ∧ setting.pendingOf 0 = [] ∧ (setting.slot 0).claims.map Claim.what = [.signal 2]
    ∧ (setting.sig 2).commanded = .stop ∧ (setting.sig 2).reported = .stop ∧ (setting.sig 2).lamp = false
    ∧ (∀ k ∈ (setting.slotRoute 0).sections, (setting.sec k).occ ≠ .disturbed)
    ∧ ((timed .clearing).slot 0).state = .clearing ∧ ((timed .berthed).slot 0).state ≠ .setting ∧ ((timed .berthed).slot 0).state ≠ .clearing
    ∧ (cleared.slot 0).timerMs = none := by decide +kernel
/-- The entry of slot 0's list stands, and does not where its signal is dark. -/
theorem flank_stands : (∀ c ∈ (cleared.slot 0).claims, cleared.stands 0 c.what) ∧ ¬settingFlank.stands 0 (.signal 2) := by
  refine ⟨fun c hc => ?_, fun h => absurd h.2.1 (by decide +kernel)⟩
  rw [show (cleared.slot 0).claims = [⟨.signal 2, some (.path 0), false, true⟩] by decide +kernel, List.mem_singleton] at hc
  subst hc
  exact ⟨by decide +kernel, by decide +kernel, by decide +kernel⟩
/-- Route 1 with everything at rest has no hold cause; with section 2 OCCUPIED it has SECTION. -/
theorem witness_CausesAre : (∀ z, cleared.CausesAre 0 z Holds.empty) ∧ (clearedWith 2 .occupied).CausesAre 0 True { Holds.empty with sect := true } := by
  refine ⟨fun z => ⟨by decide +kernel, ?_, ?_, by decide +kernel, by decide +kernel, by decide +kernel, ?_, by decide +kernel⟩,
    ⟨by decide +kernel, ?_, ?_, by decide +kernel, by decide +kernel, by decide +kernel, ?_, by decide +kernel⟩⟩
  · refine ⟨fun h => absurd h (by decide), fun h => ?_⟩
    rcases h with h | h | ⟨-, h⟩ <;> exact absurd h (by decide +kernel)
  · exact ⟨fun h => absurd h (by decide), fun ⟨c, hc, hn⟩ => absurd (flank_stands.1 c hc) hn⟩
  · refine ⟨fun h => absurd h (by decide), fun ⟨c, hc, hl⟩ => ?_⟩
    rw [show cleared.ctrl? (cleared.sigDef (cleared.slotRoute 0).entry).ctrl = some ⟨2, .active, 0⟩ by decide +kernel] at hc
    simp only [Option.some.injEq] at hc
    subst hc; exact absurd hl (by decide)
  · exact ⟨fun _ => Or.inr (Or.inl (by decide +kernel)), fun _ => by decide⟩
  · refine ⟨fun h => absurd h (by decide), fun ⟨c, hc, hn⟩ => absurd ?_ hn⟩
    rw [show ((clearedWith 2 .occupied).slot 0).claims = [⟨.signal 2, some (.path 0), false, true⟩] by decide +kernel, List.mem_singleton] at hc
    subst hc
    exact ⟨by decide +kernel, by decide +kernel, by decide +kernel⟩
  · refine ⟨fun h => absurd h (by decide), fun ⟨c, hc, hl⟩ => ?_⟩
    rw [show (clearedWith 2 .occupied).ctrl? ((clearedWith 2 .occupied).sigDef ((clearedWith 2 .occupied).slotRoute 0).entry).ctrl
      = some ⟨2, .active, 0⟩ by decide +kernel] at hc
    simp only [Option.some.injEq] at hc
    subst hc; exact absurd hl (by decide)
/-- Route 1's instance in a state, with a section's occupancy changed. -/
def route1With (st : SlotState) (k : Nat) (o : Occ) : State :=
  { route1In st with est := { cleared.est with sections := cleared.est.sections.modify k fun r => { r with occ := o } } }

/-- What a change does: SETTING with a section hit, with a refused request, with the test passed and failed; CLEARING, CLEARED and
HELD without a hold cause and with one, no train entering. -/
theorem witness_SettingExpiryRow_change : ((route1With .setting 2 .occupied).slot 0).state = .setting
    ∧ hitIn cleared (route1With .setting 2 .occupied) 0 ((route1With .setting 2 .occupied).slotRoute 0).sections 2
    ∧ (∀ k, k < 5 → ¬hitIn cleared (route1In .setting) 0 ((route1In .setting).slotRoute 0).sections k)
    ∧ ¬entersIn cleared (clearedWith 2 .occupied) 0
    ∧ (∃ r ∈ [({ (⟨.acceptance 0, 0, 0, .refused, none⟩ : RemoteReq) with tag := 1 } : RemoteReq)], r.status = .refused)
    ∧ (route1In .setting).pendingOf 0 = [] ∧ ((route1In .setting).slot 0).remote = []
    ∧ (∀ k ∈ ((route1In .setting).slotRoute 0).sections, ((route1In .setting).sec k).occ = .clear)
    ∧ ((route1In .setting).sig 0).lamp = false ∧ ((route1In .setting).sigRestr 0).noClear = false
    ∧ (route1In .setting).mdc.mode = .operational ∧ (route1In .clearing).est = cleared.est ∧ ((route1In .clearing).slot 0).state = .clearing
    ∧ ((route1In .clearing).sig 0).commanded = .proceed ∧ ((route1In .clearing).sig 0).reported = .proceed
    ∧ (cleared.slotRoute 0).path ≠ [] ∧ (cleared.slot 0).state = .cleared
    ∧ ((route1In .held).slot 0).state = .held ∧ (route1In .held).est = cleared.est := by
  refine ⟨by decide +kernel, ?_, ?_, ?_, by decide, by decide +kernel⟩
  · unfold hitIn; decide +kernel
  · unfold hitIn; decide +kernel
  · rintro ⟨k, hk, -, ho⟩
    rw [show ((clearedWith 2 .occupied).slotRoute 0).path.head? = some 1 by decide +kernel] at hk
    simp only [Option.some.injEq] at hk
    subst hk
    exact absurd ho (by decide +kernel)
/-- Route 1 in CLEARING and in CLEARED with section 2 OCCUPIED: SECTION stands, and the invariants of the signals and the counts hold. -/
theorem witness_SettingExpiryRow_held : ∀ st, st = .clearing ∨ st = .cleared →
    ((route1With st 2 .occupied).slot 0).state = st ∧ (route1With st 2 .occupied).clearedOwned ∧ (route1With st 2 .occupied).countsExact
    ∧ (route1With st 2 .occupied).CausesAre 0 True { Holds.empty with sect := true }
    ∧ ∀ z, ¬(route1With st 2 .occupied).CausesAre 0 z Holds.empty := by
  intro st h
  have c := witness_CausesAre.2
  have stands : ∃ k ∈ ((route1With st 2 .occupied).slotRoute 0).sections.drop 1, ((route1With st 2 .occupied).sec k).occ = .occupied := by
    rcases h with rfl | rfl <;> decide +kernel
  refine ⟨rfl, owned_of ?_ (live_of ?_ ?_) ?_ ?_ ?_, counts_of ?_ ?_ running_entry ?_ ?_ ?_ ?_,
    ⟨c.point, c.sect, c.flank, c.neighbour, c.lamp, c.noClear, c.controller, c.halted⟩,
    fun z n => absurd (n.sect.2 (.inr (.inl stands))) (by decide)⟩
  all_goals rcases h with rfl | rfl <;> decide +kernel
/-- A train enters from CLEARED, HELD and APPROACH_LOCKED, and passes in RELEASE_TIMING; section 2 ahead of it is OCCUPIED. -/
theorem witness_ReleaseExpiryRows_change : (∀ st ∈ [SlotState.cleared, .held, .approachLocked, .releaseTiming],
      ((route1With st 1 .occupied).slot 0).state = st ∧ ((route1With st 1 .occupied).slotRoute 0).path.head? = some 1
      ∧ (cleared.sec 1).occ ≠ .occupied ∧ ((route1With st 1 .occupied).sec 1).occ = .occupied ∧ ((route1With st 1 .occupied).slot 0).head = none)
    ∧ (∃ k ∈ ((route1With .cleared 2 .occupied).slotRoute 0).path.drop 1, ((route1With .cleared 2 .occupied).sec k).occ = .occupied)
    ∧ ((timed .releaseTiming).slot 0).head ≠ none ∧ (base.slot 0).state = .free := by decide +kernel
theorem witness_ReleaseExpiryRows : (∀ st ∈ [SlotState.approachLocked, .releaseTiming, .berthed],
      (timed st).mdc.power = .running ∧ ((timed st).slot 0).state = st ∧ ((timed st).slot 0).timerMs.isSome = true)
    ∧ (cleared.slot 0).timerMs.isSome ≠ true ∧ ((timed .berthed).sec 4).owner = some (.slot 0) ∧ ((timed .berthed).sec 4).kind = some .overlap
    ∧ 4 ∈ ((timed .berthed).slotRoute 0).overlapSecs := by decide +kernel
/-- The overlap with a claim and a RESERVE request of its own. -/
def overlapHeld : State := { timed .berthed with
  est := { cleared.est with sections := cleared.est.sections.modify 3 fun r => { r with claims := 1 } }
  rsu := { cleared.rsu with slots := (timed .berthed).rsu.slots.modify 0 fun k => { k with
    claims := [⟨.signal 2, some (.path 0), false, true⟩, ⟨.sect 3, some (.overlap 0), false, true⟩]
    remote := [⟨.ask ⟨false, .sect, 5, some .clear⟩, 0, 1, .granted, none⟩] } } }

theorem witness_ReleaseExpiryRows_overlap : (overlapHeld.slot 0).state = .berthed ∧ (overlapHeld.slot 0).timerMs.isSome = true
    ∧ overlapHeld.claimCount (.sect 3) ≠ 0 ∧ (let b := overlapHeld.releaseOverlap 0
      b.claimCount (.sect 3) = 0 ∧ b.releaseDue = true ∧ (b.slot 0).claims = [⟨.signal 2, some (.path 0), false, true⟩]
      ∧ (b.slot 0).remote = []) := by decide +kernel
theorem witness_ThrowStoreWindowExpiryRows : moving.mdc.power = .running ∧ (moving.pt 0).throwMs.isSome ∧ (base.pt 0).throwMs = none
    ∧ (∃ e ∈ (taken fullStore).rsu.store, e.route = 115) ∧ ¬(∃ e ∈ (taken fullStore).rsu.store, e.route = 1) := by decide +kernel

/-! Elements, restrictions, authority, the gate. -/

/-- The point's record changed. -/
def ptIs (f : PointRec → PointRec) : State := { base with est := { base.est with points := base.est.points.modify 0 f } }

theorem witness_MovePointRow : readyB base = true ∧ Pos.code .reverse = 1 ∧ base.image.points.length ≤ 1 ∧ 0 < base.image.points.length
    ∧ base.holds .panel (base.ptDef 0).area = false ∧ base.holds .centre (base.ptDef 0).area = true
    ∧ readyB (inMode .starting) = true ∧ (inMode .starting).operational = false ∧ base.operational = true
    ∧ readyB moving = true ∧ (moving.pt 0).pos = .moving ∧ (base.pt 0).pos = Pos.normal.rest ∧ (base.pt 0).pos = Pos.reverse.other.rest
    ∧ ((ptIs fun r => { r with pos := .lost }).pt 0).pos = .lost ∧ (base.ptRestr 0).noMove = false
    ∧ ({ base with est := { base.est with ptRestr := [(0, ⟨false, true, false⟩)] } } : State).ptRestr 0 = ⟨false, true, false⟩
    ∧ (cleared.pt 0).owner ≠ none ∧ (cleared.pt 0).lockedPos ≠ some .reverse ∧ (cleared.pt 0).pos = Pos.reverse.other.rest
    ∧ ((secIs 1 fun r => { r with occ := .occupied }).sec (base.ptDef 0).fouling).occ ≠ .clear
    ∧ (base.sec (base.ptDef 0).fouling).occ = .clear ∧ (base.pt 0).owner = none ∧ (base.pt 0).claims = 0 := by decide +kernel
/-- The classes and restrictions at their bounds; an index the image defines and one it does not; held and not held. -/
theorem witness_AddRestrictionRow : readyB base = true ∧ 239 < 240 ∧ 250 ≤ 250 ∧ 95 < 96 ∧ 159 < 160 ∧ ¬(251 ≤ 250)
    ∧ (inMode .loading).mdc.mode ≠ .starting ∧ (inMode .loading).mdc.mode ≠ .operational ∧ readyB (inMode .loading) = true
    ∧ base.image.sections.length ≤ 239 ∧ 4 < base.image.sections.length ∧ base.holds .centre (base.secDef 4).area = false
    ∧ base.holds .centre (base.secDef 0).area = true ∧ base.image.points.length ≤ 95 ∧ 0 < base.image.points.length
    ∧ base.holds .panel (base.ptDef 0).area = false ∧ base.image.signals.length ≤ 159 ∧ 3 < base.image.signals.length
    ∧ base.holds .panel (base.sigDef 3).area = false ∧ base.holds .centre (base.sigDef 3).area = true ∧ base.mdc.mode = .operational := by decide +kernel
theorem witness_SweepTable : ({ clearSec with occ := .disturbed } : SectionRec).occ = .disturbed
    ∧ ({ clearSec with occ := .disturbed } : SectionRec).sweep = false ∧ ({ clearSec with occ := .disturbed, sweep := true } : SectionRec).sweep = true := by
  decide
theorem witness_GiveControlRow : readyB base = true ∧ Holder.code .centre = 0 ∧ Holder.code .none = 2 ∧ Holder.none ≠ Holder.centre
    ∧ base.holder 1 ≠ Holder.centre ∧ base.holder 0 = .centre ∧ 7 < 8 ∧ base.holder 7 ≠ .centre ∧ base.mdc.mode = .operational
    ∧ (inMode .halted).holder 0 = .centre ∧ (inMode .halted).mdc.mode ≠ .starting ∧ (inMode .halted).mdc.mode ≠ .operational
    ∧ readyB (inMode .halted) = true ∧ 0 < base.slu.holders.length := by decide +kernel

/-- The gate of an originator holds the inner command and the mode serves it. -/
theorem prepared_for {s : State} {x : Inner} (h : s.mdc.mode ≠ .halted) : (prepared s .centre x).preparedFor .centre x :=
  ⟨fun hm => absurd hm h, ⟨x, 15000⟩, rfl, rfl⟩
theorem prepared_for_panel {s : State} {x : Inner} (h : s.mdc.mode ≠ .halted) : (prepared s .panel x).preparedFor .panel x :=
  ⟨fun hm => absurd hm h, ⟨x, 15000⟩, rfl, rfl⟩

/-- TWO_STEP's clauses: in HALTED any inner command but RESTART is refused; elsewhere the checks decide. -/
theorem witness_TwoStep : (inMode .halted).mdc.mode = .halted ∧ readyB (inMode .halted) = true ∧ innerRestart (.takeControl 1) = false
    ∧ innerRestart (.restart 1) = true ∧ base.mdc.mode ≠ .halted := by decide +kernel
theorem witness_TakeControlRow : (prepared base .centre (.takeControl 1)).ready ∧ (prepared base .centre (.takeControl 1)).preparedFor .centre (.takeControl 1)
    ∧ 8 ≤ 8 ∧ ¬(8 ≤ 7) ∧ base.mdc.mode = .operational ∧ base.holder 1 ≠ .centre ∧ base.holder 0 = .centre ∧ 7 < base.slu.holders.length :=
  ⟨ready_of (by decide +kernel), prepared_for (by decide +kernel), by decide +kernel⟩
theorem witness_GateRefusals : readyB base = true ∧ innerSized (.other 21 []) = true ∧ innerTwoStep (.other 21 []) = false ∧ base.gate .centre = none
    ∧ base.mdc.mode ≠ .halted ∧ (prepared base .centre (.takeControl 1)).gate .centre = some ⟨.takeControl 1, 15000⟩
    ∧ Inner.takeControl 1 ≠ Inner.takeControl 2 ∧ innerSized (.other 21 [0#8]) = false ∧ readyB (prepared base .centre (.takeControl 1)) = true := by decide +kernel
theorem witness_RestoreSectionRow : (prepared disturbed0 .centre (.restoreSection 0)).ready
    ∧ (prepared disturbed0 .centre (.restoreSection 0)).preparedFor .centre (.restoreSection 0)
    ∧ ¬(240 ≤ 0) ∧ ¬(disturbed0.image.sections.length ≤ 0) ∧ disturbed0.holds .centre (disturbed0.secDef 0).area ≠ false
    ∧ disturbed0.operational ≠ false ∧ (disturbed0.sec 0).occ = .disturbed ∧ (disturbed0.sec 0).owner = none ∧ (disturbed0.sec 0).last = .occupied
    ∧ base.image.sections.length ≤ 239 ∧ (base.sec 0).occ ≠ .disturbed :=
  ⟨ready_of (by decide +kernel), prepared_for (by decide +kernel), by decide +kernel⟩

/-- `restricted` with the removal of section 0's NO_ROUTE prepared. -/
def removing : State := prepared restricted .centre (.removeRestriction 0 0 0)

theorem witness_RemoveRestrictionRow : removing.ready ∧ removing.canonical ∧ removing.preparedFor .centre (.removeRestriction 0 0 0)
    ∧ 0 < removing.image.sections.length ∧ removing.holds .centre (removing.secDef 0).area = true ∧ (removing.sec 0).owner = none
    ∧ removing.mdc.mode = .operational ∧ (cleared.sec 1).owner ≠ none ∧ (cleared.pt 0).owner ≠ none ∧ (cleared.sig 0).owner ≠ none :=
  ⟨ready_of (by decide +kernel), by constructor <;> decide +kernel,
    prepared_for (by decide +kernel), by decide +kernel⟩
theorem witness_ForcedReleaseRow : ∀ st ∈ [SlotState.setting, .clearing, .cleared, .held, .occupied, .berthed, .approachLocked],
    readyB (prepared (route1In st) .centre (.forcedRelease 0 1)) = true ∧ (route1In st).mdc.mode ≠ .halted ∧ ¬(48 ≤ 0)
      ∧ (route1In st).operational ≠ false ∧ ((route1In st).slot 0).state ≠ .free ∧ ((route1In st).slot 0).route = some 1
      ∧ (route1In st).holds .centre ((route1In st).sigDef ((route1In st).slotRoute 0).entry).area ≠ false
      ∧ ((route1In st).slot 0).state = st ∧ st ≠ .releaseTiming := by decide +kernel
theorem witness_ForceDirectionRow : (prepared base .panel (.forceDirection 0)).ready
    ∧ (prepared base .panel (.forceDirection 0)).preparedFor .panel (.forceDirection 0)
    ∧ ¬(8 ≤ 0) ∧ ¬(base.bdu.ports.length ≤ 0) ∧ base.holds .panel (base.secDef (base.portDef 0).sec).area ≠ false ∧ base.operational ≠ false
    ∧ (base.link (base.portDef 0).link).state ≠ .up ∧ (base.port 0).inc = .none ∧ (base.sec (base.portDef 0).sec).occ = .clear
    ∧ (base.port 0).view ≠ .out ∧ ((linked .disturbed .out).port 0).view = .out ∧ base.bdu.ports.length ≤ 7 :=
  ⟨ready_of (by decide +kernel), prepared_for_panel (by decide +kernel), by decide +kernel⟩

/-- `claimed` with an acceptance of port 0 in a state. -/
def receiving (inc : Incoming) : State := { claimed with
  est := { claimed.est with sections := claimed.est.sections.modify 4 fun r => { r with owner := some (.accept 0) } }
  bdu := ⟨claimed.bdu.links, claimed.bdu.ports.modify 0 fun q => { q with inc := inc, incTag := some 9 }⟩ }

/-- The neighbour's request is absent from a STATUS without the port's entry (R156). -/
theorem test_missing_entry_incoming : (((receiving .waiting).actStatus 0 [] [] []).port 0).inc = .none
    ∧ (((receiving .waiting).actStatus 0 [] [] []).sec 4).owner = none := by decide +kernel
theorem witness_ClearRemoteClaimsRow : (prepared claimed .panel (.clearRemoteClaims 0)).ready
    ∧ (prepared claimed .panel (.clearRemoteClaims 0)).preparedFor .panel (.clearRemoteClaims 0)
    ∧ ¬(4 ≤ 0) ∧ claimed.equipped 0 ≠ false ∧ claimed.equipped 3 = false ∧ claimed.operational ≠ false
    ∧ ¬(∃ p ∈ claimed.portsOf 0, claimed.holds .panel (claimed.secDef (claimed.portDef p).sec).area = false)
    ∧ (claimed.link 0).state ≠ .up ∧ 0 ∈ claimed.portsOf 0
    ∧ ((receiving .receiving).port 0).inc = .receiving ∧ ((receiving .waiting).port 0).inc = .waiting :=
  ⟨ready_of (by decide +kernel), prepared_for_panel (by decide +kernel), by decide +kernel⟩
/-- The tests of a point and of a signal for a reservation, both ways. -/
def windowAll : State := { base with sds := { base.sds with
  active := some ⟨{ station with links := [⟨7, [⟨.sect, 4⟩, ⟨.point, 0⟩, ⟨.signal, 1⟩]⟩] }, 0#32⟩ } }

/-- The remote claim table: an entry to free, requests in and out of the window, an identical request that shares a lock. -/
theorem witness_ClearRemoteClaimsRow_table : claimed.entry 0 0 = some ⟨5, ⟨false, .sect, 4, some .clear⟩, .granted, true, true, some ⟨.sect, 4⟩, []⟩
    ∧ claimed.entry 0 1 = none ∧ claimed.entryOf 0 5 = some 0 ∧ claimed.entryOf 0 6 = none ∧ 1 < (claimed.link 0).table.length
    ∧ (⟨.sect, 4⟩ : ElemRef) ∈ (claimed.linkDef 0).window ∧ (⟨.point, 0⟩ : ElemRef) ∈ (windowAll.linkDef 0).window
    ∧ (⟨.signal, 1⟩ : ElemRef) ∈ (windowAll.linkDef 0).window ∧ (⟨.sect, 3⟩ : ElemRef) ∉ (claimed.linkDef 0).window
    ∧ stateFits .sect .clear = true ∧ stateFits .point .reverse = true ∧ stateFits .signal .stop = true ∧ stateFits .signal .clear = false
    ∧ (Ask.mk false .sect 4 (some .clear)).elem? = some ⟨.sect, 4⟩ ∧ (Ask.mk false .port 0 none).elem? = none
    ∧ base.noRouteOn ⟨.sect, 4⟩ = false ∧ (noRouteOn 4).noRouteOn ⟨.sect, 4⟩ = true
    ∧ base.decideReserve 0 0 ⟨false, .sect, 4, some .clear⟩ = .lockSec 4
    ∧ claimed.decideReserve 0 1 ⟨false, .sect, 4, some .clear⟩ = .claims [⟨.sect 4, none, false, false⟩]
    ∧ windowAll.decideReserve 0 1 ⟨false, .point, 0, some .reverse⟩ = .lockPt 0 .reverse
    ∧ windowAll.decideReserve 0 1 ⟨false, .signal, 1, some .stop⟩ = .claims [⟨.signal 1, none, false, false⟩]
    ∧ (linked .up .neutral).ownPort 0 0 = some 0 ∧ base.ownPort 0 0 = none := by decide +kernel
/-- A granted acceptance whose section is swept, occupied, cleared; one withdrawn, decided, answered already. -/
theorem witness_ForceDirectionRow_acceptance : 0 < (receiving .waiting).bdu.ports.length ∧ ((receiving .waiting).port 0).inc = .waiting
    ∧ ((receiving .waiting).sec 4).owner = some (.accept 0) ∧ ((receiving .waiting).port 0).incTag = some 9
    ∧ ((secIs 4 fun r => { r with occ := .disturbed, sweep := true }).sec 4).occ = .disturbed
    ∧ ((secIs 4 fun r => { r with occ := .disturbed, sweep := true }).sec 4).sweep = true ∧ ((receiving .waiting).sec 4).occ = .clear
    ∧ ((secIs 4 fun r => { r with occ := .occupied }).sec 4).occ = .occupied ∧ ((receiving .receiving).port 0).inc = .receiving
    ∧ ((receiving .completed).port 0).inc = .completed ∧ (base.port 0).inc = .none ∧ base.mdc.mode = .operational
    ∧ ((linked .up .into).port 0).view = .into ∧ ((linked .up .into).sec 4).owner = none := by decide +kernel
/-- `receiving` in HALTED, and in LOADING begun from it. -/
def receivingHalted (inc : Incoming) (mode : Mode) : State := { receiving inc with
  mdc := { (receiving inc).mdc with mode := mode }, sds := { (receiving inc).sds with load := ⟨.opened, 1, some .centre, some .halted, none⟩ } }

/-- In HALTED the acceptance and its lock stay as they stood, though the section has become CLEAR (R146). -/
theorem test_halted_keeps_acceptance : ∀ mode ∈ [Mode.halted, .loading],
    let t := handOn (secIs 4 fun r => { r with occ := .occupied }) (receivingHalted .receiving mode)
    (t.port 0).inc = .receiving ∧ (t.sec 4).owner = some (.accept 0) := by decide +kernel

/-- The boundary section's change acts outside HALTED only: RECEIVING is COMPLETED with the lock freed (R146, R156). -/
theorem witness_ForceDirectionRow_halted : (receivingHalted .receiving .halted).mdc.mode = .halted
    ∧ (receivingHalted .waiting .loading).mdc.mode = .loading ∧ (receivingHalted .waiting .loading).sds.load.origin = some .halted
    ∧ 0 < (receivingHalted .waiting .loading).bdu.ports.length ∧ (receiving .receiving).haltedNow = false
    ∧ ((portEdges (secIs 4 fun r => { r with occ := .occupied }) (receiving .receiving) 0).port 0).inc = .completed
    ∧ ((portEdges (secIs 4 fun r => { r with occ := .occupied }) (receiving .receiving) 0).sec 4).owner = none := by decide +kernel
theorem witness_RestartRow : (prepared base .centre (.restart 0)).ready ∧ (prepared base .centre (.restart 0)).preparedFor .centre (.restart 0)
    ∧ (prepared base .centre (.restart 1)).ready ∧ (prepared base .centre (.restart 1)).preparedFor .centre (.restart 1) :=
  ⟨ready_of (by decide +kernel), prepared_for (by decide +kernel), ready_of (by decide +kernel), prepared_for (by decide +kernel)⟩

/-! The field bus. -/

theorem witness_FieldAnswerRow : (polling 1).mdc.power = .running ∧ (polling 1).flu.poll = .waiting ∧ (polling 1).flu.pollPos = some 1
    ∧ ((polling 1).flu.ctrls.map Ctrl.addr).find? (fun x => decide (1 < x)) = some 2
    ∧ (polling 2).flu.pollPos = some 2 ∧ ((polling 2).flu.ctrls.map Ctrl.addr).find? (fun x => decide (2 < x)) = none
    ∧ ((polling 2).flu.ctrls.map Ctrl.addr).head? = some 1 ∧ (List.replicate 16 255).length = 16 ∧ (∀ x ∈ List.replicate 16 255, x < 256)
    ∧ matched.mdc.mode = .starting ∧ matched.mdc.startCrc = .matched ∧ (∀ c ∈ matched.flu.ctrls, c.addr ≠ 2 → c.state ≠ .unknown)
    ∧ base.mdc.mode ≠ .starting ∧ 4 < (polling 1).image.sections.length ∧ ((polling 1).secDef 4).ctrl = 1
    ∧ ((polling 1).ptDef 0).ctrl = 1 ∧ ((polling 1).sigDef 3).ctrl = 2 := by decide +kernel
/-- The entry into OPERATIONAL falls due at a poll's end with controller 2 still UNKNOWN; what stands on the channels of a poll. -/
theorem witness_FieldAnswerRow_entry : (let s : State := { matched with mdc := { matched.mdc with startupExpired := true } }
      s.mdc.startCrc = .matched ∧ s.mdc.startupExpired = true ∧ s.flu.pollPos = some 1 ∧ s.unknownAt 2 = true)
    ∧ 0 < base.image.points.length ∧ (base.ptDef 0).ctrl = 1 ∧ (base.ptDef 0).chan = 5 ∧ (base.pt 0).commanded = some .normal
    ∧ (base.sigDef 3).ctrl = 2 ∧ (base.sigDef 3).chan = 3 ∧ (base.sig 3).commanded = .stop
    ∧ (base.pollOf 1).cmds[5]? = some .normal ∧ (base.pollOf 2).cmds[3]? = some .stop ∧ (base.pollOf 2).cmds[5]? = some .nothing := by
  decide +kernel
/-- The records a report meets: a section CLEAR and OCCUPIED, a point at rest in both positions, MOVING, LOST free and LOST against its
lock, a signal with an equal and another report. -/
theorem witness_FieldAnswerRow_reports : clearSec.occ ≠ .disturbed ∧ ({ clearSec with occ := .occupied } : SectionRec).occ ≠ .disturbed
    ∧ normalPt.pos = Pos.normal.rest ∧ normalPt.pos = Pos.reverse.other.rest ∧ (moving.pt 0).pos = .moving
    ∧ (moving.pt 0).commanded = some .reverse ∧ (moving.pt 0).commanded ≠ some .normal ∧ PointRec.start.pos = .lost
    ∧ PointRec.start.owner = none ∧ PointRec.start.claims = 0
    ∧ (let r : PointRec := { PointRec.start with owner := some (.slot 0), lockedPos := some .reverse }
      r.owner ≠ none ∧ r.lockedPos ≠ none ∧ r.lockedPos ≠ some .normal) ∧ stopSig.commanded = .stop := by decide +kernel
/-- A frame with every check met, and six that fail one check each: start byte, count, length byte, kind, address, CRC-16 (R46). -/
theorem witness_MissedPollRows_checks :
    let made (start len addr kind : Nat) : List Byte :=
      let body := raw [len, addr, kind] ++ List.replicate 16 0#8
      byteOf start :: body ++ crc16Bytes (crc16 body)
    answerValid 1 (made 0x96 18 1 2) = true ∧ answerValid 1 (made 0x95 18 1 2) = false ∧ answerValid 1 (made 0x96 18 1 2 ++ [0#8]) = false
      ∧ answerValid 1 (made 0x96 17 1 2) = false ∧ answerValid 1 (made 0x96 18 1 1) = false ∧ answerValid 1 (made 0x96 18 2 2) = false
      ∧ answerValid 1 ((made 0x96 18 1 2).set 21 0#8) = false ∧ (made 0x96 18 1 2).length = 22 := by decide +kernel
theorem witness_MissedPollRows : base.flu.poll ≠ .lateFrame ∧ (polling 1).flu.poll = .waiting ∧ answerValid 1 [] = false ∧ (polling 1).mdc.mode ≠ .starting
    ∧ (polling 1).ctrl? 1 = some ⟨1, .active, 0⟩ ∧ ¬((polling 1).missedLimit ≤ 0 + 1) ∧ (polling 1).missedLimit ≤ 4 + 1
    ∧ ({ base with flu := { base.flu with poll := .lateFrame } } : State).flu.pollPos = some 1
    ∧ ({ base with flu := { base.flu with poll := .lateFrame } } : State).flu.poll ≠ .waiting
    ∧ starting.mdc.mode = .starting ∧ starting.mdc.startCrc ≠ .matched ∧ starting.flu.poll = .waiting
    ∧ ({ matched with mdc := { matched.mdc with startupExpired := true } } : State).mdc.startupExpired = true
    ∧ matched.mdc.startCrc = .matched ∧ (∀ c ∈ polled.flu.ctrls, c.state ≠ .unknown) := by decide +kernel

/-! Boundaries. -/

theorem witness_RequestDirectionRow : readyB base = true ∧ base.bdu.ports.length ≤ 7 ∧ 0 < base.bdu.ports.length
    ∧ base.holds .centre (base.secDef (base.portDef 0).sec).area = false ∧ base.holds .panel (base.secDef (base.portDef 0).sec).area = true
    ∧ base.operational = true ∧ (inMode .halted).operational = false ∧ ((linked .up .out).port 0).view = .out
    ∧ ((linked .up .requesting).port 0).view = .requesting ∧ (base.port 0).view = .neutral ∧ ((linked .up .into).port 0).view = .into
    ∧ (base.link (base.portDef 0).link).state ≠ .up ∧ ((linked .up .into).link 0).state = .up ∧ ((receiving .completed).port 0).inc = .completed
    ∧ ((linked .up .into).sec 4).occ = .clear ∧ ((secIs 4 fun r => { r with occ := .occupied }).sec 4).occ ≠ .clear
    ∧ ((linked .up .into).port 0).nbDirAns = .none ∧ readyB (linked .up .into) = true := by decide +kernel
/-- The neighbour's direction request: the conditions hold, and do not; this part's own request stands, yielding and not. -/
theorem witness_RequestDirectionRow_answers : 0 < (linked .up .neutral).bdu.ports.length ∧ ((linked .up .neutral).link 0).state = .up
    ∧ ((linked .up .neutral).port 0).inc = .none ∧ ((linked .up .neutral).sec 4).occ = .clear ∧ ((linked .up .neutral).port 0).dirAns = .none
    ∧ (∀ i, i < 48 → (linked .up .neutral).live i = false) ∧ (base.link 0).state ≠ .up ∧ NbView.outMine ≠ .requesting
    ∧ ((linked .up .requesting).port 0).view = .requesting ∧ ((linked .up .requesting).portDef 0).yields = false
    ∧ ({ Port.start with dirAns := .grant } : Port).dirAns ≠ .none := by decide +kernel
theorem witness_TelegramIgnored : base.mdc.power = .running ∧ base.sends 3 = false ∧ base.fate 0 [] = .discarded
    ∧ (lastSeq (linked .up .neutral) 4).fate 0 statusTel = .duplicate ∧ (base.link 0).timeoutMs = none := by decide +kernel
/-- Each fate: no telegram, another identity, a port that is not the neighbour's, no sequence before, equal, on, a jump. -/
theorem witness_Fates : readTelegram [] = none ∧ (readTelegram statusTel).map RecvTel.identity = some 7 ∧ base.fate 1 statusTel = .discarded
    ∧ ({ linked .up .neutral with bdu := ⟨(linked .up .neutral).bdu.links.modify 0 fun k => { k with nbPorts := some [1] }, base.bdu.ports⟩ }
        : State).fate 0 statusTel = .discarded
    ∧ (base.link 0).lastSeq = none ∧ (lastSeq base 9).fate 0 haltTel = .accepted 4 .halt ∧ (lastSeq (linked .up .neutral) 4).fate 0 haltTel = .duplicate
    ∧ (lastSeq (linked .up .neutral) 2).fate 0 haltTel = .accepted 4 .halt ∧ (lastSeq (linked .hello .neutral) 5).fate 0 haltTel = .jump := by
  decide +kernel
theorem witness_LinkDisturbed : ((linked .up .requesting).link 0).timeoutMs.isSome ∧ 0 < (linked .up .requesting).bdu.links.length
    ∧ (linked .up .requesting).sends 0 = true ∧ (lastSeq (linked .up .requesting) 1).fate 0 statusTel = .jump
    ∧ (linked .up .requesting).fate 0 haltTel = .accepted 4 .halt ∧ (linked .up .requesting).haltedNow = false
    ∧ ((linked .up .requesting).link 0).state ≠ .disturbed ∧ 0 ∈ (linked .up .requesting).portsOf 0
    ∧ ((linked .hello .neutral).link 0).state ≠ .up ∧ (linked .hello .neutral).fate 0 haltTel = .accepted 4 .halt
    ∧ ((linked .disturbed .neutral).link 0).state = .disturbed ∧ (linked .disturbed .neutral).fate 0 haltTel = .accepted 4 .halt
    ∧ (linked .disturbed .neutral).sends 0 = true ∧ (linked .disturbed .neutral).haltedNow = false := by decide +kernel

/-- HALTED with link 0 in HELLO. -/
def halted : State := { linked .hello .neutral with mdc := (inMode .halted).mdc }

theorem witness_TelegramAccepted : (∃ b, halted.fate 0 haltTel = .accepted 4 b) ∧ halted.haltedNow = true ∧ halted.sends 0 = true
    ∧ base.fate 0 helloTel = .accepted 4 (.hello false [⟨0, true, .neutral⟩]) ∧ base.haltedNow = false ∧ base.sends 0 = true
    ∧ (∀ x ∈ (base.portsOf 0).zip [(⟨0, true, .neutral⟩ : HelloPort)], (base.portDef x.1).yields ≠ x.2.yields)
    ∧ base.fate 0 (telegram 0 [1, 1, 0, 0, 0]) = .accepted 4 (.hello true [⟨0, false, .neutral⟩])
    ∧ (linked .up .neutral).fate 0 statusTel = .accepted 4 (.status [⟨0, .neutral, .none, none, .none, none, .clear⟩] [] [])
    ∧ (linked .hello .neutral).fate 0 statusTel = .accepted 4 (.status [⟨0, .neutral, .none, none, .none, none, .clear⟩] [] [])
    ∧ base.fate 0 statusTel = .accepted 4 (.status [⟨0, .neutral, .none, none, .none, none, .clear⟩] [] []) ∧ (base.link 0).state = .down := by
  refine ⟨⟨.halt, by decide +kernel⟩, by decide +kernel⟩
theorem witness_TelegramSendRows : base.sends 0 = true ∧ (base.link 0).sinceMs.isSome ∧ (base.link 0).lastSent.map SentTel.body ≠ some (base.content 0)
    ∧ ((after (.telegramSendTimer 0) base).link 0).lastSent.map SentTel.body = some ((after (.telegramSendTimer 0) base).content 0)
    ∧ base.sends 1 = false := by decide +kernel
/-- What HELLO and STATUS hold, with a request, an answer and an acceptance of the neighbour. -/
theorem witness_TelegramSendRows_bodies : base.portsOf 0 = [0] ∧ base.helloBody 0 true = .hello true [⟨0, false, .neutral⟩]
    ∧ exitRoute.statusBody 0 = .status [⟨0, .outMine, .none, some 0, .none, none, .clear⟩] [(1, ⟨false, .sect, 5, some .clear⟩)] []
    ∧ (receiving .waiting).statusBody 0 = .status [⟨0, .neutral, .none, none, .granted, some 9, .clear⟩] [] [⟨5, .granted⟩] := by
  decide +kernel
/-- The answers to this part's requests: the tags of the list, the acceptance posted. -/
theorem witness_TelegramSendRows_answers : ((exitRoute.link 0).outgoing.map OutReq.tag).Nodup ∧ 0 < exitRoute.bdu.ports.length
    ∧ (exitRoute.port 0).outAcc = some (0, 0) ∧ (base.port 0).outAcc = none
    ∧ (∃ o ∈ (exitRoute.link 0).outgoing, o.slot = 0 ∧ o.tag = 1) := by decide +kernel

/-! The supervisory line, the queries, the calculations. -/

/-- A complete frame of the test's own with its CRC-16. -/
def frame (body : List Nat) : List Byte := raw [0xC3] ++ raw body ++ crc16Bytes (crc16 (raw body))

theorem witness_FrameFaultRows : readyB base = true ∧ base.alive = true ∧ base.slu.inputQ = [] ∧ base.slu.rx ≠ .draining
    ∧ isFrame (statusFrame.set 4 8#8) = true ∧ (statusFrame.set 4 8#8).head? = some 0xC3#8 ∧ frameCrcOk (statusFrame.set 4 8#8) = false
    ∧ isFrame (frame [4, 1, 3, 0, 27]) = true ∧ frameCrcOk (frame [4, 1, 3, 0, 27]) = true ∧ (frame [4, 1, 3, 0, 27]).head? = some 0xC3#8
    ∧ payloadOk 21 [0#8] = false ∧ frameCrcOk (frame [5, 0, 1, 0, 21, 0]) = true ∧ isFrame (frame [5, 0, 1, 0, 21, 0]) = true
    ∧ isPartial (raw [0xC3]) = true ∧ isPartial (raw [0xC3, 4, 0, 1, 0, 0]) = true ∧ (raw [0xC3]).head? = some 0xC3#8 := by decide +kernel
/-- The receiver drains, or receives while eight frames wait behind the one being sent. -/
theorem witness_FrameFaultRows_full :
    let sending : State := withSlu fun u => { u with line := some (.reply 1 4 .centre .done .none), respQ := List.replicate 8 (.reply 1 4 .centre .done .none), rx := .receiving }
    (withSlu fun u => { u with rx := .draining }).alive = true ∧ (withSlu fun u => { u with rx := .draining }).slu.line = none
    ∧ (withSlu fun u => { u with rx := .draining }).slu.noticeQ = [] ∧ sending.alive = true ∧ sending.served
    ∧ sending.slu.inputQ = [] ∧ sending.slu.respQ.length = 8 := by
  refine ⟨by decide +kernel, by decide +kernel, by decide +kernel, by decide +kernel, (fun h => nomatch h), by decide +kernel, by decide +kernel⟩
theorem witness_LineRows : base.alive = true ∧ base.slu.inputQ = []
    ∧ (withSlu fun u => { u with noticeQ := [.sect 2] }).record (.sect 2) = some (.sect clearSec SecRestr.empty)
    ∧ base.record (.sect 5) = none ∧ State.reset.alive = true ∧ State.reset.mdc.power = .checking ∧ State.reset.slu.inputQ = []
    ∧ State.reset.slu.respQ = [] ∧ cmdSized .status = true ∧ checkingLoad.slu.inProgress.isSome ∧ checkingLoad.alive = true
    ∧ checkingLoad.slu.inputQ.length < 4 ∧ checkingLoad.slu.respQ.length < 7
    ∧ ({ checkingLoad with slu := { checkingLoad.slu with line := some (.reply 1 4 .centre .done .none) } } : State).slu.line.isSome := by decide +kernel

/-- The line busy, replies waiting, commands waiting behind an ACTIVATE in progress. -/
def busy (replies commands : Nat) : State := { activating with slu := { activating.slu with
  line := some (.reply 1 4 .centre .done .none), respQ := List.replicate replies (.reply 1 4 .centre .done .none)
  inputQ := List.replicate commands ⟨.centre, 1, .status⟩ } }

/-- A fifth command: reported OVERRUN with 6 replies waiting, and with 7 where none is in progress (a start check runs); not
reported with 7 behind a command in progress; a full response queue with commands waiting; references without a record first. -/
theorem witness_LineRows_overrun : (busy 6 4).alive = true ∧ (busy 6 4).slu.rx ≠ .draining ∧ (busy 6 4).slu.line.isSome
    ∧ (busy 6 4).slu.inProgress.isSome ∧ (busy 6 4).slu.inputQ.length = 4 ∧ (busy 6 4).slu.respQ.length < 7
    ∧ (busy 7 4).slu.respQ.length = 7 ∧ (busy 7 4).slu.inProgress.isSome
    ∧ ({ busy 7 4 with mdc := State.reset.mdc, slu := { (busy 7 4).slu with inProgress := none } } : State).mdc.power = .checking
    ∧ (withSlu fun u => { u with respQ := (busy 8 4).slu.respQ, inputQ := (busy 8 4).slu.inputQ }).slu.inProgress = none
    ∧ (withSlu fun u => { u with respQ := (busy 8 4).slu.respQ, inputQ := (busy 8 4).slu.inputQ }).slu.respQ
        = .reply 1 4 .centre .done .none :: List.replicate 7 (.reply 1 4 .centre .done .none)
    ∧ (∀ x ∈ [Ref.sect 5, .link 9], base.record x = none) ∧ (base.record (.sect 2)).isSome := by decide +kernel
theorem witness_QueryRows : readyB base = true ∧ ¬(5 < base.est.sections.length) ∧ 4 < base.est.sections.length ∧ 239 < 240 ∧ 95 < 96
    ∧ 159 < 160 ∧ 7 < 8 ∧ 3 < base.bdu.links.length ∧ 47 < base.rsu.slots.length := by decide +kernel
/-- What is shown of a load, of a link with an entry; where a reading continues: on, and of an empty store at its start. -/
theorem witness_QueryRows_views : base.sds.load.state = .closed ∧ loading.statusView.declared = some 4 ∧ cleared.statusView.live = 1
    ∧ (claimed.link 0).view.entries = 1
    ∧ sent (.readTable .centre 3 2 5) base = some (.reply 3 26 .centre .done (.table [] 5 (some (0, none)))) := by decide +kernel
theorem witness_ReadTableRow : readyB base = true ∧ base.sds.active.isSome = true ∧ (inMode .loading).sds.active.isSome = true
    ∧ State.reset.sds.active.isSome = false ∧ base.equipped 0 = true ∧ base.equipped 3 = false
    ∧ readyB { base with sds := { base.sds with active := none } } = true := by decide +kernel
/-- SPEED 70 on both path sections of route 1. -/
def slow : State := { base with est := { base.est with secRestr := [(1, ⟨false, some 70⟩), (2, ⟨false, some 70⟩)] } }

theorem witness_EffectiveSpeed : restricted.figuresOf route1 = base.figuresOf route1
    ∧ (slow.figuresOf route1).v = 70 ∧ (slow.figuresOf route1).source = some 1 ∧ (slow.secRestr 2).speed = some 70
    ∧ 10 ≤ route1.speed ∧ route1.speed ≤ 250 ∧ route3.speed ≤ 40 := by decide +kernel
/-- Slot 0 holds figures with SHORT. -/
def withFigures : State := { base with
  rsu := { base.rsu with slots := base.rsu.slots.modify 0 fun k =>
    { k with figures := some (base.figuresOf { route1 with sight := 500, speed := 250, decel := 30 }) } } }

theorem witness_DistancesAndTime : (base.figuresOf route1).short = false ∧ (base.figuresOf { route1 with sight := 500, speed := 250, decel := 30 }).short = true
    ∧ (base.figuresOf { route1 with chain := [] }).k = 0 ∧ 0 < (base.figuresOf { route1 with chain := [] }).q
    ∧ (base.figuresOf { route1 with sight := 500, speed := 250, decel := 30 }).d = 8038
    ∧ (base.figuresOf { route1 with sight := 500, speed := 250, decel := 30 }).t = 240
    ∧ (withFigures.slot 0).figures = some (withFigures.figuresOf { route1 with sight := 500, speed := 250, decel := 30 })
    ∧ withFigures.approachOccupied 0 = true := by decide +kernel
theorem witness_HeadAdvance : 0 ≤ route1.path.length ∧ headAfter cleared (clearedWith 1 .occupied) 0 route1 0 = 0
    ∧ headAfter cleared (clearedWith 2 .occupied) 0 route1 0 = 1 := by decide +kernel

/-- The train has left section 1 for section 2. -/
def passing : State := timed .occupied

theorem witness_SequentialRelease : ({ passing with rsu := { passing.rsu with slots := passing.rsu.slots.modify 0 fun k => { k with release := some 0, head := some 1 } } } : State).slot 0
      = { passing.slot 0 with release := some 0, head := some 1 }
    ∧ ((passing.releaseFrom 0 route1 1 2 0).slot 0).release = some 1 ∧ ((passing.releaseFrom 0 route1 1 2 0).sec 1).owner = none
    ∧ ((passing.releaseFrom 0 route1 1 2 0).pt 0).owner = none ∧ ((passing.releaseFrom 0 route1 1 2 0).slot 0).claims = [] := by decide +kernel
/-- The evaluation: what is reached, a section ahead of the head, a head that vanishes, the berth, the last-section release. -/
theorem witness_SequentialRelease_evaluation : (passing.slot 0).head = some 2 ∧ (passing.slot 0).release = some 1 ∧ passing.slotRoute 0 = route1
    ∧ (passing.slot 0).marks.sequence = false ∧ reached cleared (clearedWith 2 .occupied) 0 2 = true ∧ 2 ∈ route1.path.drop 1
    ∧ route1.path[1]? = some 2 ∧ ((clearedWith 2 .occupied).sec 2).occ ≠ .clear ∧ (cleared.sec 2).occ = .clear
    ∧ passing.successor route1 = .sections [4] ∧ passing.successor route2 = .port 0 ∧ passing.successor route3 = .nothing
    ∧ (passing.slot 0).state = .occupied ∧ (passing.slot 0).release = some (route1.path.length - 1) ∧ route1.path.length - 1 ≤ 2
    ∧ route1.overlapTime ≠ 0 ∧ route1.overlapSecs ≠ [] ∧ ((timed .berthed).slot 0).state = .berthed
    ∧ ((timed .berthed).sec (route1.path.getLastD 0)).occ = .clear := by decide +kernel
theorem witness_SearchBounds : base.searchAll (base.needOf route3) route3.protPoints []
      = .success [⟨.sect 2, some (.path 0), false, false⟩, ⟨.sect 4, some (.path 0), false, false⟩]
    ∧ base.searchPort 0 = .going [⟨.signal 1, none, false, false⟩] 2
    ∧ base.explore (base.needOf route3) none 4 2 .a [] [] 0 = .going [⟨.sect 2, none, false, false⟩, ⟨.sect 4, none, false, false⟩] 2 := by decide +kernel

end Sys2Proof.Machine.Tests
end

/-! ### What most events leave: the mode record, the data store, the restriction tables, the command in progress

`CoreKept` says that an operation leaves these alone, `Lasting` lists the operations that do not, and `Lasting.step` packages
the induction over them: a statement about these fields that each listed operation keeps is kept by every step. -/

namespace Sys2Proof.Machine

/-- The mode record, the station data store, the restriction tables and the command in progress are as they were. -/
structure CoreKept (s t : State) : Prop where
  mdc : t.mdc = s.mdc
  sds : t.sds = s.sds
  secRestr : t.est.secRestr = s.est.secRestr
  ptRestr : t.est.ptRestr = s.est.ptRestr
  sigRestr : t.est.sigRestr = s.est.sigRestr
  inProgress : t.slu.inProgress = s.slu.inProgress

theorem CoreKept.refl (s : State) : CoreKept s s := ⟨rfl, rfl, rfl, rfl, rfl, rfl⟩

theorem CoreKept.trans {s t u : State} (h : CoreKept s t) (k : CoreKept t u) : CoreKept s u :=
  ⟨k.mdc.trans h.mdc, k.sds.trans h.sds, k.secRestr.trans h.secRestr, k.ptRestr.trans h.ptRestr,
    k.sigRestr.trans h.sigRestr, k.inProgress.trans h.inProgress⟩

theorem CoreKept.ite {s t u : State} {c : Prop} [Decidable c] (h : CoreKept s t) (k : CoreKept s u) :
    CoreKept s (if c then t else u) := by
  split
  · exact h
  · exact k

theorem CoreKept.each {α : Type} (s : State) (l : List α) (f : State → α → State) (h : ∀ t x, CoreKept t (f t x)) :
    CoreKept s (s.each l f) := by
  suffices ∀ t, CoreKept s t → CoreKept s (l.foldl f t) from this s (CoreKept.refl s)
  induction l with
  | nil => exact fun t ht => ht
  | cons x l ih => exact fun t ht => ih _ (ht.trans (h t x))

theorem Handed.coreKept {s t : State} (h : Handed s t) : CoreKept s t :=
  ⟨h.mdc, h.sds, h.secRestrMap, h.ptRestrMap, h.sigRestrMap, h.inProgress⟩

/-! #### Writing records -/

theorem CoreKept.modSec (s : State) (i : Nat) (f : SectionRec → SectionRec) : CoreKept s (s.modSec i f) := { CoreKept.refl s with }
theorem CoreKept.modPt (s : State) (i : Nat) (f : PointRec → PointRec) : CoreKept s (s.modPt i f) := { CoreKept.refl s with }
theorem CoreKept.modSig (s : State) (i : Nat) (f : SignalRec → SignalRec) : CoreKept s (s.modSig i f) := { CoreKept.refl s with }
theorem CoreKept.modSlot (s : State) (i : Nat) (f : Slot → Slot) : CoreKept s (s.modSlot i f) := { CoreKept.refl s with }
theorem CoreKept.modPort (s : State) (i : Nat) (f : Port → Port) : CoreKept s (s.modPort i f) := { CoreKept.refl s with }
theorem CoreKept.modLink (s : State) (i : Nat) (f : Link → Link) : CoreKept s (s.modLink i f) := { CoreKept.refl s with }
theorem CoreKept.modCtrl (s : State) (a : Nat) (f : Ctrl → Ctrl) : CoreKept s (s.modCtrl a f) := { CoreKept.refl s with }
theorem CoreKept.setHolder (s : State) (a : Nat) (h : Holder) : CoreKept s (s.setHolder a h) := { CoreKept.refl s with }
theorem CoreKept.setRx (s : State) (x : Rx) : CoreKept s (s.setRx x) := { CoreKept.refl s with }
theorem CoreKept.respond (s : State) (f : Frame) : CoreKept s (s.respond f) := { CoreKept.refl s with }
theorem CoreKept.leaveStore (s : State) (n : Nat) (r : Removal) : CoreKept s (s.leaveStore n r) := { CoreKept.refl s with }
theorem CoreKept.releaseEvent (s : State) : CoreKept s s.releaseEvent := { CoreKept.refl s with }
theorem CoreKept.note (s : State) (r : Ref) : CoreKept s (s.note r) := (Handed.note s r).coreKept

theorem CoreKept.inputQ (s : State) (l : List QCmd) : CoreKept s { s with slu.inputQ := l } := { CoreKept.refl s with }
theorem CoreKept.pending (s : State) (l : List Instr) : CoreKept s { s with pending := l } := { CoreKept.refl s with }

theorem CoreKept.setGate (s : State) (o : Originator) (g : Option Gate) : CoreKept s (s.setGate o g) := by
  cases o <;> exact { CoreKept.refl s with }

theorem CoreKept.moveIfOther (s : State) (i : Nat) (p : Pos) : CoreKept s (s.moveIfOther i p) :=
  CoreKept.ite (CoreKept.modPt s i _) (CoreKept.refl s)

/-! #### Lines and queues -/

theorem CoreKept.faultReport (s : State) (f : Faults) (h : Option (Nat × Nat × Nat)) : CoreKept s (s.faultReport f h) :=
  CoreKept.ite (CoreKept.refl s) (CoreKept.respond s _)

theorem CoreKept.enqueue (s : State) (q : QCmd) : CoreKept s (s.enqueue q) :=
  CoreKept.ite (CoreKept.faultReport s _ _) { CoreKept.refl s with }

theorem CoreKept.arbiter (s : State) : CoreKept s s.arbiter := by
  obtain ⟨a, b, c, d, h⟩ := arbiter_keeps s
  rw [h]; exact { CoreKept.refl s with }

/-! #### The field bus -/

theorem CoreKept.takeReports (s : State) (a : Nat) (codes : List Nat) : CoreKept s (s.takeReports a codes) :=
  ((CoreKept.each s _ _ fun t i => CoreKept.modSec t i _).trans
    (CoreKept.each _ _ _ fun t i => CoreKept.ite ((CoreKept.modPt t i _).trans (CoreKept.releaseEvent _)) (CoreKept.modPt t i _))).trans
    (CoreKept.each _ _ _ fun t i => CoreKept.modSig t i _)

theorem CoreKept.loseController (s : State) (a : Nat) : CoreKept s (s.loseController a) :=
  (((CoreKept.modCtrl s a _).trans (CoreKept.each _ _ _ fun t i => CoreKept.modSec t i _)).trans
    (CoreKept.each _ _ _ fun t i => CoreKept.ite ((CoreKept.modPt t i _).trans (CoreKept.releaseEvent _)) (CoreKept.modPt t i _))).trans
    (CoreKept.each _ _ _ fun t i => CoreKept.modSig t i _)

theorem CoreKept.loseUnknown (s : State) : CoreKept s s.loseUnknown := CoreKept.each s _ _ fun t a => CoreKept.loseController t a

theorem CoreKept.missPoll (s : State) (a : Nat) : CoreKept s (s.missPoll a) := by
  unfold State.missPoll
  simp only
  split
  · exact CoreKept.ite ((CoreKept.modCtrl s a _).trans (CoreKept.loseController _ a)) (CoreKept.modCtrl s a _)
  · exact CoreKept.modCtrl s a _

theorem CoreKept.missAnswer (s : State) : CoreKept s s.missAnswer := by
  unfold State.missAnswer
  split
  · exact CoreKept.missPoll s _
  · exact CoreKept.refl s

theorem CoreKept.takeAnswer (s : State) (bs : List Byte) : CoreKept s (s.takeAnswer bs) := by
  unfold State.takeAnswer
  split
  · exact CoreKept.ite ((CoreKept.modCtrl s _ _).trans (CoreKept.takeReports _ _ _)) (CoreKept.missPoll s _)
  · exact CoreKept.refl s

theorem CoreKept.sendPoll (s : State) : CoreKept s s.sendPoll := by
  unfold State.sendPoll
  split
  · exact { CoreKept.refl s with }
  · exact CoreKept.refl s

theorem CoreKept.endPoll (s : State) : CoreKept s s.endPoll := { CoreKept.refl s with }

/-! #### Timers -/

theorem CoreKept.throwExpiry (s : State) (i : Nat) : CoreKept s (s.throwExpiry i) :=
  CoreKept.ite (CoreKept.refl s) ((CoreKept.modPt s i _).trans (CoreKept.releaseEvent _))

theorem CoreKept.settingExpiry (s : State) (i : Nat) : CoreKept s (s.settingExpiry i) := by
  unfold State.settingExpiry
  split
  · exact ((Handed.refreshPending s i).trans (Handed.endSlot _ i _)).coreKept
  · exact (Handed.cancelCleared s i).coreKept
  · exact CoreKept.refl s

theorem Handed.releaseOverlap (s : State) (i : Nat) : Handed s (s.releaseOverlap i) := by
  unfold State.releaseOverlap
  exact (((((Handed.each s _ _ fun t k => Handed.freeSec t k _).trans (Handed.each _ _ _ fun t k => Handed.freePt t k _)).trans
    (Handed.releaseClaims _ i _)).trans (Handed.withdrawWhere _ i _)).trans (Handed.modSlot _ i _)).trans (Handed.note _ _)

theorem CoreKept.expireEntry (s : State) (n : Nat) : CoreKept s (s.expireEntry n) :=
  CoreKept.ite ((CoreKept.leaveStore s n _).trans (CoreKept.note _ _)) (CoreKept.refl s)

/-! #### The boundary: acceptances, directions, remote claims -/

theorem CoreKept.freeAcceptance (s : State) (p : Nat) : CoreKept s (s.freeAcceptance p) := (Handed.freeSec s _ _).coreKept

theorem CoreKept.withdrawIncoming (s : State) (p : Nat) : CoreKept s (s.withdrawIncoming p) := by
  unfold State.withdrawIncoming
  split
  · exact (CoreKept.freeAcceptance s p).trans (CoreKept.modPort _ p _)
  · exact CoreKept.modPort s p _
  · exact CoreKept.modPort s p _
  · exact CoreKept.modPort s p _
  · exact CoreKept.refl s

theorem CoreKept.takeIncoming (s : State) (p : Nat) (x : Option Nat) : CoreKept s (s.takeIncoming p x) := by
  have hd : ∀ (t : State) (tag : Nat), CoreKept t (t.decideIncoming p tag) := fun t tag =>
    CoreKept.ite (by exact (CoreKept.modSec t _ _).trans (CoreKept.modPort _ p _)) (CoreKept.modPort t p _)
  cases x with
  | none => exact CoreKept.withdrawIncoming s p
  | some tag =>
    exact CoreKept.ite (CoreKept.refl s)
      (CoreKept.ite ((CoreKept.withdrawIncoming s p).trans (hd _ tag)) (CoreKept.withdrawIncoming s p))

theorem CoreKept.decideDirection (s : State) (p : Nat) : CoreKept s (s.decideDirection p) :=
  CoreKept.ite (CoreKept.refl s)
    (CoreKept.ite ((CoreKept.modPort s p _).trans (CoreKept.modPort _ p _)) ((CoreKept.modPort s p _).trans (CoreKept.modPort _ p _)))

theorem CoreKept.takeNbView (s : State) (p : Nat) (v : NbView) : CoreKept s (s.takeNbView p v) :=
  CoreKept.ite (CoreKept.ite (CoreKept.decideDirection s p) (CoreKept.refl s)) (CoreKept.modPort s p _)

theorem CoreKept.takeAccAns (s : State) (p : Nat) (a : AccAns) (tag : Option Nat) : CoreKept s (s.takeAccAns p a tag) := by
  unfold State.takeAccAns
  simp only
  split
  · exact (CoreKept.modPort s p _).trans (CoreKept.modSlot _ _ _)
  · exact CoreKept.modPort s p _

theorem CoreKept.takePortEntry (s : State) (p : Nat) (e : PortEntry) : CoreKept s (s.takePortEntry p e) :=
  ((((CoreKept.modPort s p _).trans (CoreKept.takeNbView _ p _)).trans (CoreKept.modPort _ p _)).trans
    (CoreKept.takeAccAns _ p _ _)).trans (CoreKept.takeIncoming _ p _)

theorem CoreKept.takeAnswers (s : State) (l : Nat) (as : List AnsItem) : CoreKept s (s.takeAnswers l as) :=
  CoreKept.each s _ _ fun t _ => CoreKept.modSlot t _ _

theorem CoreKept.releaseEntry (s : State) (l e : Nat) : CoreKept s (s.releaseEntry l e) := by
  unfold State.releaseEntry
  split
  · exact CoreKept.refl s
  · rename_i x _
    have h : ∀ y, CoreKept s y → CoreKept s ((y.each x.claims fun t c => t.dropCount c.what).setEntry l e none) := fun y hy =>
      (hy.trans (Handed.dropAll y x.claims).coreKept).trans (CoreKept.modLink _ _ _)
    split
    · exact h _ (Handed.freeSec s _ _).coreKept
    · exact h _ (Handed.freePt s _ _).coreKept
    · exact h _ (CoreKept.refl s)

theorem CoreKept.settle (s : State) (l e tag : Nat) (a : Ask) : CoreKept s (s.settle l e tag a) := by
  have hm : ∀ (t : State) (cs : List Claim), CoreKept t (t.beginClaimMoves cs) := fun t cs => CoreKept.each t _ _ fun u c => by
    split
    · exact CoreKept.moveIfOther u _ _
    · exact CoreKept.refl u
  unfold State.settle
  simp only
  split
  · exact (CoreKept.ite (CoreKept.modLink s l _) (CoreKept.refl s)).trans (CoreKept.modLink _ l _)
  · exact (show CoreKept s _ from CoreKept.modSec s _ _).trans (CoreKept.modLink _ l _)
  · exact ((show CoreKept s _ from CoreKept.modPt s _ _).trans (CoreKept.moveIfOther _ _ _)).trans (CoreKept.modLink _ l _)
  · exact ((Handed.placeCounts s _).coreKept.trans (hm _ _)).trans (CoreKept.modLink _ l _)

theorem CoreKept.takeRequest (s : State) (l : Nat) (q : Nat × Ask) : CoreKept s (s.takeRequest l q) := by
  unfold State.takeRequest
  split
  · exact CoreKept.ite (CoreKept.settle s l _ _ _) (CoreKept.refl s)
  · split
    · exact CoreKept.refl s
    · exact CoreKept.ite (CoreKept.settle s l _ _ _) (CoreKept.modLink s l _)

theorem CoreKept.takeRequests (s : State) (l : Nat) (reqs : List (Nat × Ask)) : CoreKept s (s.takeRequests l reqs) :=
  ((CoreKept.each s _ _ fun t e => CoreKept.releaseEntry t l e).trans (CoreKept.each _ _ _ fun t e => CoreKept.releaseEntry t l e)).trans
    (CoreKept.each _ _ _ fun t q => CoreKept.takeRequest t l q)

/-! #### The boundary: telegrams -/

theorem CoreKept.actStatus (s : State) (l : Nat) (ports : List PortEntry) (reqs : List (Nat × Ask)) (as : List AnsItem) :
    CoreKept s (s.actStatus l ports reqs as) := by
  refine ((CoreKept.each s _ _ fun t x => ?_).trans (CoreKept.takeAnswers _ l as)).trans (CoreKept.takeRequests _ l reqs)
  split
  · exact CoreKept.takePortEntry t _ _
  · exact (CoreKept.takeAccAns t _ _ _).trans (CoreKept.takeIncoming _ _ _)

theorem CoreKept.reconcile (s : State) (p : Nat) (v : NbView) : CoreKept s (s.reconcile p v) := by
  have h := CoreKept.modPort s p fun q => { q with nbView := v }
  unfold State.reconcile
  refine CoreKept.ite h ?_
  split
  · exact h.trans (CoreKept.modPort _ p _)
  · exact h.trans (CoreKept.modPort _ p _)
  · exact h.trans (CoreKept.modPort _ p _)
  · exact h

theorem CoreKept.actHello (s : State) (l : Nat) (seen : Bool) (ps : List HelloPort) : CoreKept s (s.actHello l seen ps) :=
  CoreKept.ite
    (((CoreKept.modLink s l _).trans (CoreKept.each _ _ _ fun t _ => CoreKept.reconcile t _ _)).trans (CoreKept.modLink _ l _))
    (CoreKept.modLink s l _)

theorem CoreKept.leaveUp (s : State) (l : Nat) : CoreKept s (s.leaveUp l) :=
  CoreKept.ite (CoreKept.refl s)
    ((CoreKept.each s _ _ fun t p => (CoreKept.modPort t p _).trans (CoreKept.note _ _)).trans (CoreKept.note _ _))

theorem CoreKept.disturb (s : State) (l : Nat) : CoreKept s (s.disturb l) := (CoreKept.leaveUp s l).trans (CoreKept.modLink _ l _)

theorem CoreKept.enterHello (s : State) (l : Nat) : CoreKept s (s.enterHello l) :=
  (CoreKept.leaveUp s l).trans (CoreKept.modLink _ l _)

theorem CoreKept.actTelegram (s : State) (l : Nat) (b : TelBody) : CoreKept s (s.actTelegram l b) := by
  unfold State.actTelegram
  split
  · exact CoreKept.refl s
  · exact CoreKept.disturb s l
  · exact CoreKept.actHello s l _ _
  · exact (CoreKept.enterHello s l).trans (CoreKept.actHello _ l _ _)
  · exact CoreKept.actStatus s l _ _ _
  · exact CoreKept.ite ((CoreKept.modLink s l _).trans (CoreKept.actStatus _ l _ _ _)) (CoreKept.refl s)
  · exact CoreKept.enterHello s l

theorem CoreKept.receive (s : State) (l : Nat) (bs : List Byte) : CoreKept s (s.receive l bs) := by
  have h := fun q => show CoreKept s (s.noteSequence l q) from CoreKept.modLink s l _
  unfold State.receive
  refine CoreKept.ite (CoreKept.refl s) ?_
  split
  · exact CoreKept.refl s
  · exact CoreKept.refl s
  · exact CoreKept.disturb s l
  · exact CoreKept.ite (h _) ((h _).trans (CoreKept.actTelegram _ l _))

/-! #### Commands of the host -/

theorem CoreKept.cmdSetRoute (s : State) (o : Originator) (r st lt : Nat) : CoreKept s (s.cmdSetRoute o r st lt).1 := by
  unfold State.cmdSetRoute
  split
  · exact CoreKept.refl s
  · split
    · rename_i i cs d hc _
      exact (Handed.acceptRoute s o d i cs (routeChecks_operational hc)).coreKept
    · split
      · exact { CoreKept.refl s with }
      · exact CoreKept.refl s
    · exact CoreKept.refl s
    · exact CoreKept.refl s

theorem CoreKept.cmdReclear (s : State) (o : Originator) (r : Nat) : CoreKept s (s.cmdReclear o r).1 := by
  unfold State.cmdReclear
  split
  · exact CoreKept.refl s
  · exact CoreKept.refl s
  · split
    · exact CoreKept.refl s
    · split
      · exact CoreKept.refl s
      · exact (show CoreKept s (s.setClearing _) from (CoreKept.modSlot s _ _).trans (CoreKept.modSig _ _ _)).trans
          ((CoreKept.modSlot _ _ _).trans (CoreKept.modSlot _ _ _))

theorem CoreKept.cmdCancelRoute (s : State) (o : Originator) (r : Nat) : CoreKept s (s.cmdCancelRoute o r).1 := by
  have hl : ∀ i, CoreKept s (s.cancelLive i).1 := fun i => by
    unfold State.cancelLive
    split
    · exact (Handed.endSlot s i _).coreKept
    · exact (Handed.cancelCleared s i).coreKept
    · exact (Handed.cancelCleared s i).coreKept
    · exact (Handed.cancelCleared s i).coreKept
    all_goals exact CoreKept.refl s
  unfold State.cmdCancelRoute
  split
  · exact CoreKept.refl s
  · exact hl _
  · split
    · exact (CoreKept.leaveStore s _ _).trans (CoreKept.note _ _)
    · exact CoreKept.refl s

theorem CoreKept.cmdMovePoint (s : State) (o : Originator) (i p : Nat) : CoreKept s (s.cmdMovePoint o i p).1 := by
  unfold State.cmdMovePoint
  split
  · exact CoreKept.refl s
  · iterate 3 (split; exact CoreKept.refl s)
    split
    · exact CoreKept.refl s
    · exact CoreKept.modPt s i _

theorem CoreKept.cmdRequestDirection (s : State) (o : Originator) (p : Nat) : CoreKept s (s.cmdRequestDirection o p).1 := by
  unfold State.cmdRequestDirection
  split
  · exact CoreKept.refl s
  · simp only
    iterate 7 (split; exact CoreKept.refl s)
    exact CoreKept.modPort s p _

theorem CoreKept.cmdGiveControl (s : State) (o : Originator) (a h : Nat) : CoreKept s (s.cmdGiveControl o a h).1 := by
  unfold State.cmdGiveControl
  split
  · exact CoreKept.refl s
  · iterate 3 (split; exact CoreKept.refl s)
    exact CoreKept.setHolder s a _

theorem CoreKept.cmdPrepare (s : State) (o : Originator) (x : Inner) : CoreKept s (s.cmdPrepare o x).1 := by
  unfold State.cmdPrepare
  split
  · exact CoreKept.setGate s o none
  · split
    · exact CoreKept.setGate s o none
    · split
      · exact CoreKept.setGate s o none
      · exact CoreKept.setGate s o _

theorem CoreKept.forcedRelease (s : State) (i : Nat) : CoreKept s (s.forcedRelease i) := by
  have h : ∀ t, CoreKept s t → CoreKept s (t.beginRelease i) := fun t ht => ht.trans (CoreKept.modSlot t i _)
  unfold State.forcedRelease
  split
  · exact (Handed.endSlot s i _).coreKept
  · exact h _ (Handed.stopEntry s i).coreKept
  · exact h _ (Handed.stopEntry s i).coreKept
  · exact h _ (Handed.stopEntry s i).coreKept
  · exact h _ (CoreKept.refl s)
  · exact h _ (CoreKept.refl s)
  · exact h _ (CoreKept.refl s)
  · exact CoreKept.refl s
  · exact CoreKept.refl s

theorem CoreKept.clearRemote (s : State) (l : Nat) : CoreKept s (s.clearRemote l) :=
  (CoreKept.each s _ _ fun t e => CoreKept.releaseEntry t l e).trans (CoreKept.each _ _ _ fun t p => CoreKept.withdrawIncoming t p)

/-! ### Statements that last -/

/-- `P`, a statement about the fields of `CoreKept`, is kept by each operation that changes them. -/
structure Lasting (P : State → Prop) : Prop where
  core : ∀ {s t : State}, P s → CoreKept s t → P t
  loadBegin : ∀ {s : State} o n, P s → s.mdc.power = .running → P (s.cmdLoadBegin o n).1
  loadSegment : ∀ {s : State} o n bs, P s → P (s.cmdLoadSegment o n bs).1
  addRestriction : ∀ {s : State} x, P s → P (s.addRestriction x)
  removeRestriction : ∀ {s : State} x, P s → P (s.removeRestriction x)
  work : ∀ {s : State} q, P s → s.mdc.mode = .loading → P { s with slu.inProgress := some q }
  idle : ∀ {s : State}, P s → P { s with slu.inProgress := none }
  loadChecks : ∀ {s : State} len crc, P s → s.slu.inProgress.isSome → P (s.endLoadChecks len crc).1
  warm : ∀ {s u : State} c, P s → u.est = s.est → P (u.warmStart c)
  blank : ∀ {s u : State}, P s → u.est = s.est → P u.blankStart
  cold : ∀ s : State, P s.coldNow
  off : ∀ s : State, P s.unpowered
  held : ∀ {s : State}, P s → P s.holdReset
  starting : ∀ {s : State} r, P s → s.mdc.power = .checking → P (s.enterStarting r)
  unconfigured : ∀ {s : State} r, P s → s.mdc.power = .checking → P (s.enterUnconfigured r)
  operational : ∀ {s : State}, P s → P s.tryOperational
  startingCrc : ∀ {s : State} crc, P s → P (s.startingCrc crc)
  startupExpiry : ∀ {s : State}, P s → P s.startupExpiry
  verifyExpiry : ∀ {s : State}, P s → P s.verifyExpiry
  verifyEnd : ∀ {s : State} crc, P s → P (s.verifyEnd crc)
  tick : ∀ {s : State}, P s → P s.tick

/-- A choice between an operation that keeps a statement and none. -/
theorem kept_ite {P : State → Prop} {s t : State} {c : Prop} [Decidable c] (h : P s) (ht : c → P t) : P (if c then t else s) := by
  split
  · exact ht ‹_›
  · exact h

namespace Lasting
variable {P : State → Prop} (L : Lasting P) {s : State}
include L

theorem finish (old : State) (h : P s) : P (Machine.finish old s) := L.core h (Handed.finish old s).coreKept

theorem innerAct (o : Originator) (x : Inner) (h : P s) : P (s.innerAct o x).1 := by
  cases x with
  | restoreSection i => exact L.core h (CoreKept.modSec s i _)
  | forcedRelease i r => exact L.core h (CoreKept.forcedRelease s i)
  | removeRestriction a b c =>
    show P (s.removeNow a b c)
    unfold State.removeNow
    split
    · exact L.removeRestriction _ h
    · exact h
  | forceDirection p => exact L.core h (CoreKept.modPort s p _)
  | clearRemoteClaims l => exact L.core h (CoreKept.clearRemote s l)
  | takeControl a => exact L.core h (CoreKept.setHolder s a _)
  | restart k => exact h
  | other c p => exact h

theorem cmdExecute (o : Originator) (x : Inner) (h : P s) : P (s.cmdExecute o x).1 := by
  have hg := L.core h (CoreKept.setGate s o none)
  unfold State.cmdExecute
  split
  · exact hg
  · exact L.innerAct o x hg

theorem cmdAddRestriction (o : Originator) (a b c d : Nat) (h : P s) : P (s.cmdAddRestriction o a b c d).1 := by
  unfold State.cmdAddRestriction
  split
  · exact h
  · split
    · exact h
    · exact L.addRestriction _ h

/-- The effect of a command of the host. -/
theorem handOver (o : Originator) (c : Cmd) (h : P s) (hr : s.mdc.power = .running) : P (s.handOver o c).1 := by
  cases c with
  | loadBegin n => exact L.loadBegin o n h hr
  | loadSegment n bs => exact L.loadSegment o n bs h
  | setRoute a b c => exact L.core h (CoreKept.cmdSetRoute s o a b c)
  | reclear a => exact L.core h (CoreKept.cmdReclear s o a)
  | cancelRoute a => exact L.core h (CoreKept.cmdCancelRoute s o a)
  | movePoint a b => exact L.core h (CoreKept.cmdMovePoint s o a b)
  | addRestriction a b c d => exact L.cmdAddRestriction o a b c d h
  | requestDirection a => exact L.core h (CoreKept.cmdRequestDirection s o a)
  | giveControl a b => exact L.core h (CoreKept.cmdGiveControl s o a b)
  | prepare x => exact L.core h (CoreKept.cmdPrepare s o x)
  | execute x => exact L.cmdExecute o x h
  | status => rwa [handOver_query s o _ rfl]
  | getElement a b => rwa [handOver_query s o _ rfl]
  | getPort a => rwa [handOver_query s o _ rfl]
  | getLink a => rwa [handOver_query s o _ rfl]
  | getInstance a => rwa [handOver_query s o _ rfl]
  | readTable a b => rwa [handOver_query s o _ rfl]
  | loadEnd _ _ => exact h
  | activate => exact h
  | forcedRelease _ _ => exact h
  | removeRestriction _ _ _ => exact h
  | restoreSection _ => exact h
  | forceDirection _ => exact h
  | clearRemoteClaims _ => exact h
  | takeControl _ => exact h
  | restart _ => exact h

theorem answerNow (q : QCmd) (h : P s) (hr : s.mdc.power = .running) : P (s.answerNow q) := by
  unfold State.answerNow
  split
  · unfold State.restartNow
    split
    · exact L.warm _ h rfl
    · exact L.blank h rfl
  · exact L.core (L.finish s (L.handOver q.originator q.cmd h hr)) (CoreKept.respond _ _)

/-- A command taken: LOAD_END and ACTIVATE stay in progress in LOADING only. -/
theorem runCmd (q : QCmd) (h : P s) (hr : s.mdc.power = .running) : P (s.runCmd q) := by
  unfold State.runCmd
  split
  · split
    · exact L.core h (CoreKept.respond s _)
    · rename_i hn
      refine L.work q h ?_
      by_contra hm
      simp [State.loadEndRefusal, State.ownsLoad, hm] at hn
  · split
    · rename_i hm
      simp only [State.mayActivate, State.ownsLoad, Bool.and_eq_true, decide_eq_true_eq] at hm
      exact L.work q h hm.1.1
    · exact L.core h (CoreKept.respond s _)
  · split
    · exact L.core h (CoreKept.respond s _)
    · exact L.answerNow q h hr

theorem takeCommands (n : Nat) (h : P s) : P (State.takeCommands n s) := by
  induction n generalizing s with
  | zero => exact h
  | succ n ih =>
    unfold State.takeCommands
    split
    · exact h
    · rename_i q rest _
      split
      · rename_i hm
        simp only [State.mayTake, Bool.and_eq_true, decide_eq_true_eq] at hm
        have hq := L.runCmd (s := { s with slu.inputQ := rest }) q (L.core h (CoreKept.inputQ s rest)) hm.1.1
        exact ih (L.core hq (CoreKept.arbiter _))
      · exact h

theorem settleLine (h : P s) : P s.settleLine := L.takeCommands _ (L.core h (CoreKept.arbiter s))

theorem act {f : State → State} (h : P s) (hf : P s → P (f s)) : P (s.act f) := by
  unfold State.act
  split
  · exact L.settleLine (L.finish s (hf h))
  · exact h

theorem actCore {f : State → State} (h : P s) (hf : CoreKept s (f s)) : P (s.act f) := L.act h fun h => L.core h hf

theorem badFrame (f : Faults) (hd : Option (Nat × Nat × Nat)) (x : Rx) (h : P s) : P (s.badFrame f hd x) :=
  L.settleLine (L.core h ((CoreKept.setRx s x).trans (CoreKept.faultReport _ _ _)))

theorem goodFrame (q : QCmd) (h : P s) : P (s.goodFrame q) :=
  L.settleLine (L.core h ((CoreKept.setRx s .hunting).trans (CoreKept.enqueue _ q)))

theorem completeFrame (bs : List Byte) (h : P s) : P (s.completeFrame bs) := by
  unfold State.completeFrame
  simp only
  split
  · split
    · exact L.goodFrame _ h
    · exact L.badFrame _ _ _ h
  · exact L.badFrame _ _ _ h

theorem arrive (o : Originator) (tag : Nat) (c : Cmd) (h : P s) : P (s.arrive o tag c) := by
  unfold State.arrive State.submit
  split
  · split
    · exact h
    · split
      · exact L.goodFrame _ h
      · exact L.badFrame _ _ _ h
  · exact h

/-- A poll ends, with what follows it, and start-up that it completes is entered. -/
theorem afterPoll {t : State} (h : P s) (ht : CoreKept s t) : P (s.afterPoll t) :=
  L.finish s (L.operational (L.core h (ht.trans (CoreKept.endPoll t))))

theorem frameInWait (bs : List Byte) (h : P s) : P (s.frameInWait bs) :=
  L.settleLine (L.core (L.afterPoll h (CoreKept.takeAnswer s bs)) (CoreKept.sendPoll _))

theorem waitExpired (b : Bool) (h : P s) : P (s.waitExpired b) := by
  have ha := L.afterPoll h (CoreKept.missAnswer s)
  unfold State.waitExpired
  simp only
  split
  · exact L.settleLine (L.core ha { CoreKept.refl _ with })
  · exact L.settleLine (L.core ha (CoreKept.sendPoll _))

theorem endCheck (h : P s) (hc : s.mdc.power = .checking) : P s.endCheck := by
  unfold State.endCheck
  simp only
  split
  · exact L.core (L.starting _ h hc)
      (((CoreKept.note _ _).trans (CoreKept.sendPoll _)).trans (Handed.sendChanges _).coreKept)
  · exact L.core (L.unconfigured _ h hc) (CoreKept.note _ _)

theorem resetLow (us : Nat) (h : P s) : P (s.resetLow us) := by
  have hf : P { s with freeCount := s.freeCount + 1 } := L.core h { CoreKept.refl s with }
  unfold State.resetLow
  simp only
  split
  · exact L.held h
  · split
    · exact h
    · split
      · exact L.held hf
      · exact hf

theorem finishLoadEnd (q : QCmd) (len : Nat) (crc : Crc32) (h : P s) (hp : s.slu.inProgress.isSome) :
    P (s.finishLoadEnd q len crc) :=
  L.settleLine (L.core (L.idle (L.finish s (L.loadChecks len crc h hp))) (CoreKept.respond _ _))

theorem finishActivate (q : QCmd) (crc : Crc32) (h : P s) : P (s.finishActivate q crc) :=
  L.settleLine (L.warm .activate h rfl)

theorem send (l : Nat) (h : P s) : P (s.send l) := L.core h (Handed.send s l).coreKept

/-- Every row of the table. -/
theorem exec (i : Instr) {t : State} (h : P s) (ht : Machine.exec i s = .next t) : P t := by
  suffices ∀ u, Machine.exec i s = .next u → P u from this t ht
  have next : ∀ {u v : State}, P u → (Host.Outcome.next u : Host.Outcome State Fault Refusal) = .next v → P v := fun hu e => by
    cases e; exact hu
  intro u
  cases i with
  | powerOn => exact next (L.cold s)
  | powerLoss => exact next (L.off s)
  | resetLineLow us => exact next (kept_ite h fun _ => L.resetLow us h)
  | resetLineRelease => exact next (kept_ite h fun _ => L.settleLine (L.warm _ h rfl))
  | startCheckComplete => exact next (kept_ite h fun hc => L.settleLine (L.endCheck h hc))
  | startingCrcComplete crc => exact next (L.act h (L.startingCrc crc))
  | startupTimerExpiry => exact next (L.act h L.startupExpiry)
  | verifyTimerExpiry => exact next (L.act h L.verifyExpiry)
  | verifyPassComplete crc => exact next (L.act h (L.verifyEnd crc))
  | loadEndChecksComplete =>
    refine next ?_
    split
    · rename_i hq
      exact kept_ite h fun _ => L.finishLoadEnd _ _ _ h (by rw [hq]; rfl)
    · exact h
  | activateWriteComplete crc =>
    refine next ?_
    split
    · exact kept_ite h fun _ => L.finishActivate _ _ h
    · exact h
  | supFrameComplete bs => exact next (kept_ite h fun _ => L.completeFrame _ h)
  | supFrameLengthFault b => exact next (kept_ite h fun _ => L.badFrame _ _ _ h)
  | supInterbyteGap bs b => exact next (kept_ite h fun _ => L.badFrame _ _ _ h)
  | supDrainIdle => exact next (kept_ite h fun _ => L.core h (CoreKept.setRx s _))
  | transmitLineFree => exact next (kept_ite h fun _ => L.settleLine (L.core h { CoreKept.refl s with }))
  | fieldAnswerReceived bs => exact next (kept_ite h fun _ => L.frameInWait bs h)
  | fieldFrameInvalid bs => exact next (kept_ite h fun _ => L.frameInWait bs h)
  | answerWaitExpiry b => exact next (kept_ite h fun _ => L.waitExpired b h)
  | fieldLineIdle => exact next (kept_ite h fun _ => L.core h (CoreKept.sendPoll s))
  | throwTimerExpiry k => exact next (L.actCore h (CoreKept.throwExpiry s k))
  | settingTimerExpiry k => exact next (L.actCore h (CoreKept.ite (CoreKept.settingExpiry s k) (CoreKept.refl s)))
  | approachTimerExpiry k => exact next (L.actCore h (CoreKept.ite (Handed.endSlot s k _).coreKept (CoreKept.refl s)))
  | releaseTimerExpiry k => exact next (L.actCore h (CoreKept.ite (Handed.endSlot s k _).coreKept (CoreKept.refl s)))
  | overlapTimerExpiry k => exact next (L.actCore h (CoreKept.ite (Handed.releaseOverlap s k).coreKept (CoreKept.refl s)))
  | storeEntryExpiry n => exact next (L.actCore h (CoreKept.expireEntry s n))
  | twoStepWindowExpiry o => exact next (kept_ite h fun _ => L.core h (CoreKept.setGate s o none))
  | helloReceived l bs => exact next (L.actCore h (CoreKept.receive s l bs))
  | statusTelegramReceived l bs => exact next (L.actCore h (CoreKept.receive s l bs))
  | haltReceived l bs => exact next (L.actCore h (CoreKept.receive s l bs))
  | telegramDiscarded l bs => exact next (L.actCore h (CoreKept.receive s l bs))
  | sequenceJump l bs => exact next (L.actCore h (CoreKept.receive s l bs))
  | linkTimeout l => exact next (L.actCore h (CoreKept.ite (CoreKept.disturb s l) (CoreKept.refl s)))
  | telegramSendTimer l => exact next (kept_ite h fun _ => L.send l h)
  | telegramChangeSpacing l => exact next (kept_ite h fun _ => L.send l h)
  | _ => exact next (L.arrive _ _ _ h)

/-- Every step: the command at the front, or the tick. -/
theorem step {t : State} (h : P s) (ht : Machine.step s = .next t) : P t := by
  unfold Machine.step at ht
  split at ht
  · cases ht; exact L.tick h
  · exact L.exec _ (L.core h (CoreKept.pending s _)) ht

end Lasting
end Sys2Proof.Machine

/-! ### The canonical form and the agreement of the modes last -/

namespace Sys2Proof.Machine

/-! #### What the operations of the modes make of the mode record and the data store -/

theorem loseUnknown_mdc (s : State) : s.loseUnknown.mdc = s.mdc := (CoreKept.loseUnknown s).mdc
theorem loseUnknown_sds (s : State) : s.loseUnknown.sds = s.sds := (CoreKept.loseUnknown s).sds

/-- The entry into OPERATIONAL. -/
theorem enterOperational_core (s : State) : CoreKept { s with mdc := s.mdc.leaveStarting .operational none, sds.verifyMs := some 600000 }
    s.enterOperational := by
  have h := CoreKept.loseUnknown s
  refine CoreKept.trans (t := { s.loseUnknown with
    mdc := s.loseUnknown.mdc.leaveStarting .operational none, sds.verifyMs := some 600000 }) ?_
    (CoreKept.each _ _ _ fun t r => CoreKept.note t r)
  exact ⟨by simp only [h.mdc], by simp only [h.sds], h.secRestr, h.ptRestr, h.sigRestr, h.inProgress⟩

/-- The entry into HALTED. -/
theorem enterHalted_core (s : State) (r : HaltReason) :
    CoreKept { s with mdc := s.mdc.leaveStarting .halted (some r), sds.verifyMs := none, sds.verifyPass := false } (s.enterHalted r) := by
  have hs : CoreKept s s.loseUnknown.stopSignals := (CoreKept.loseUnknown s).trans { CoreKept.refl _ with }
  have h := hs.trans (CoreKept.each _ ((List.range s.loseUnknown.stopSignals.bdu.links.length).filter s.loseUnknown.stopSignals.equipped)
    _ fun t l => CoreKept.disturb t l)
  unfold State.enterHalted
  exact ⟨by simp only [h.mdc], by simp only [h.sds], h.secRestr, h.ptRestr, h.sigRestr, h.inProgress⟩

/-! #### The canonical form (R1, R13, R14, R38, R42) -/

theorem canonical_core {s t : State} (k : CoreKept s t) (h : s.canonical) : t.canonical := by
  obtain ⟨hb, hz, hd, h1, h2, h3⟩ := h
  exact ⟨by rwa [k.sds], by rwa [k.sds], by rwa [k.sds], by rwa [k.secRestr], by rwa [k.ptRestr], by rwa [k.sigRestr]⟩

/-- A state with an empty buffer, a closed load and the restriction tables of a canonical one. -/
theorem canonical_of_closed {s t : State} (h : s.canonical) (hb : t.sds.buffer = []) (hl : t.sds.load = LoadRecord.closed)
    (h1 : t.est.secRestr = s.est.secRestr) (h2 : t.est.ptRestr = s.est.ptRestr) (h3 : t.est.sigRestr = s.est.sigRestr) :
    t.canonical :=
  ⟨by rw [hb]; rfl, by simp [hb], by rw [hl]; decide, by rw [h1]; exact h.secRestr, by rw [h2]; exact h.ptRestr,
    by rw [h3]; exact h.sigRestr⟩

/-- The load's declared length and the buffer as they were, and the restriction tables. -/
theorem canonical_of_load {s t : State} (h : s.canonical) (hb : t.sds.buffer = s.sds.buffer)
    (hd : t.sds.load.declared = s.sds.load.declared) (he : t.est = s.est) : t.canonical :=
  ⟨by rw [hb]; exact h.buffer, by rw [hb]; exact h.size, by rw [hd]; exact h.declared, by rw [he]; exact h.secRestr,
    by rw [he]; exact h.ptRestr, by rw [he]; exact h.sigRestr⟩

theorem canonical_coldStart (x : Stored) (n : Nat) (l : List Instr) : (State.coldStart x n l).canonical :=
  ⟨rfl, by simp [State.coldStart], by simp [State.coldStart, LoadRecord.closed], rfl, rfl, rfl⟩

theorem canonical_cmdLoadBegin {s : State} (o : Originator) (n : Nat) (h : s.canonical) : (s.cmdLoadBegin o n).1.canonical := by
  unfold State.cmdLoadBegin
  split
  · exact h
  · rename_i hn
    simp only [Config.imageBytes, Bool.not_eq_true, Bool.not_eq_false', Bool.and_eq_true, decide_eq_true_eq] at hn
    split
    · exact h
    · exact { h with buffer := rfl, size := fun x hx => absurd hx (List.not_mem_nil), declared := of_decide_eq_true hn.2 }

theorem canonical_cmdLoadSegment {s : State} (o : Originator) (a : Nat) (bs : List Byte) (h : s.canonical) :
    (s.cmdLoadSegment o a bs).1.canonical := by
  unfold State.cmdLoadSegment
  split
  · exact h
  · split
    · exact h
    · rename_i hn
      exact { h with
        buffer := Memory.wf_writeAll h.buffer a bs
        size := Memory.mem_writeAll h.size (by have := h.declared; omega) }

theorem canonical_addRestriction {s : State} (x : Restriction) (h : s.canonical) : (s.addRestriction x).canonical := by
  cases x with
  | secNoRoute i => exact { h with secRestr := Sparse.wf_set h.secRestr _ _ }
  | speed i v => exact { h with secRestr := Sparse.wf_set h.secRestr _ _ }
  | ptNoRoute i => exact { h with ptRestr := Sparse.wf_set h.ptRestr _ _ }
  | noMove i => exact { h with ptRestr := Sparse.wf_set h.ptRestr _ _ }
  | noFlankMove i => exact { h with ptRestr := Sparse.wf_set h.ptRestr _ _ }
  | sigNoRoute i => exact { h with sigRestr := Sparse.wf_set h.sigRestr _ _ }
  | noClear i => exact { h with sigRestr := Sparse.wf_set h.sigRestr _ _ }

theorem canonical_removeRestriction {s : State} (x : Restriction) (h : s.canonical) : (s.removeRestriction x).canonical := by
  cases x with
  | secNoRoute i => exact { h with secRestr := Sparse.wf_set h.secRestr _ _ }
  | speed i v => exact { h with secRestr := Sparse.wf_set h.secRestr _ _ }
  | ptNoRoute i => exact { h with ptRestr := Sparse.wf_set h.ptRestr _ _ }
  | noMove i => exact { h with ptRestr := Sparse.wf_set h.ptRestr _ _ }
  | noFlankMove i => exact { h with ptRestr := Sparse.wf_set h.ptRestr _ _ }
  | sigNoRoute i => exact { h with sigRestr := Sparse.wf_set h.sigRestr _ _ }
  | noClear i => exact { h with sigRestr := Sparse.wf_set h.sigRestr _ _ }

theorem startHolders_core (s : State) (l : List Holder) : CoreKept s (s.startHolders l) :=
  CoreKept.ite { CoreKept.refl s with } (CoreKept.refl s)

theorem canonical_enterStarting {s : State} (r : CheckResult) (h : s.canonical) : (s.enterStarting r).canonical := by
  have k := startHolders_core (s.install (readImage s.sds.stored.bytes)) (readImage s.sds.stored.bytes).areas
  have hi : (s.install (readImage s.sds.stored.bytes)).canonical :=
    { h with
      secRestr := wfFrom_dropAbove _ h.secRestr
      ptRestr := wfFrom_dropAbove _ h.ptRestr
      sigRestr := wfFrom_dropAbove _ h.sigRestr }
  exact canonical_of_load (canonical_core k hi) rfl rfl rfl

theorem canonical_enterOperational {s : State} (h : s.canonical) : s.enterOperational.canonical :=
  canonical_core (enterOperational_core s) (canonical_of_load h rfl rfl rfl)

theorem canonical_enterHalted {s : State} (r : HaltReason) (h : s.canonical) : (s.enterHalted r).canonical :=
  canonical_core (enterHalted_core s r) (canonical_of_load h rfl rfl rfl)

theorem canonical_tryOperational {s : State} (h : s.canonical) : s.tryOperational.canonical :=
  kept_ite h fun _ => canonical_enterOperational h

theorem lasting_canonical : Lasting State.canonical where
  core h k := canonical_core k h
  loadBegin o n h _ := canonical_cmdLoadBegin o n h
  loadSegment o a bs h := canonical_cmdLoadSegment o a bs h
  addRestriction x h := canonical_addRestriction x h
  removeRestriction x h := canonical_removeRestriction x h
  work _ h _ := canonical_of_load h rfl rfl rfl
  idle h := canonical_of_load h rfl rfl rfl
  loadChecks len crc h _ := by
    unfold State.endLoadChecks
    simp only
    split
    · exact canonical_of_load h rfl rfl rfl
    · exact canonical_of_load h rfl rfl rfl
  warm c h e := canonical_of_closed h rfl rfl (by simp [State.warmStart, e]) (by simp [State.warmStart, e]) (by simp [State.warmStart, e])
  blank h e := canonical_of_closed h rfl rfl (by simp [State.blankStart, State.warmStart, e]) (by simp [State.blankStart, State.warmStart, e])
    (by simp [State.blankStart, State.warmStart, e])
  cold s := canonical_coldStart _ _ _
  off s := canonical_of_load (canonical_coldStart s.storedNow s.freeCount s.pending) rfl rfl rfl
  held h := canonical_of_load h rfl rfl rfl
  starting r h _ := canonical_enterStarting r h
  unconfigured r h _ := canonical_of_load (canonical_core (startHolders_core _ (List.replicate 8 .none)) h) rfl rfl rfl
  operational h := canonical_tryOperational h
  startingCrc crc h := by
    unfold State.startingCrc
    split
    · exact h
    · split
      · exact canonical_tryOperational (canonical_of_load h rfl rfl rfl)
      · exact canonical_enterHalted _ h
  startupExpiry h := by
    unfold State.startupExpiry
    split
    · exact h
    · exact canonical_tryOperational (canonical_of_load h rfl rfl rfl)
  verifyExpiry h := by
    unfold State.verifyExpiry
    split
    · exact h
    · exact canonical_of_load h rfl rfl rfl
  verifyEnd crc h := by
    unfold State.verifyEnd
    split
    · exact h
    · split
      · exact canonical_core (CoreKept.note _ _) (canonical_of_load h rfl rfl rfl)
      · exact canonical_enterHalted _ h
  tick {s} h := by
    unfold State.tick
    split
    · exact h
    · exact { h with }

/-- Settles O6, by the operations that change the load buffer or a restriction table. -/
theorem canonicalKept : Obligations.CanonicalKept := fun _ _ h ht => lasting_canonical.step h ht

/-! #### The modes (R1, R13, R18, R19, R181, R190, R194 to R196) -/

theorem modesLegal_core {s t : State} (k : CoreKept s t) (h : s.modesLegal) : t.modesLegal := by
  obtain ⟨h1, h2, h3, h4, h5, h6, h7, h8, h9, h10, h11⟩ := h
  constructor <;> simpa only [k.mdc, k.sds, k.inProgress]

/-- Right after a start: UNCONFIGURED, no image, nothing loaded, nothing running. -/
theorem modesLegal_of_start {t : State} (hm : t.mdc.mode = .unconfigured) (hh : t.mdc.halt = none) (hs : t.mdc.startupMs = none)
    (he : t.mdc.startupExpired = false) (hc : t.mdc.startCrc = .idle) (ha : t.sds.active = none) (hv : t.sds.verifyMs = none)
    (hp : t.sds.verifyPass = false) (hl : t.sds.load = LoadRecord.closed) (hi : t.slu.inProgress = none) : t.modesLegal := by
  constructor <;> simp [hm, hh, hs, he, hc, ha, hv, hp, hl, hi, LoadRecord.closed]

/-- In LOADING a change of the load record that leaves it open, with its origin. -/
theorem modesLegal_of_open {s t : State} (h : s.modesLegal) (hm : s.mdc.mode = .loading) (hl : t.sds.load.state ≠ .closed)
    (ho : t.sds.load.origin = s.sds.load.origin) (hd : t.mdc = s.mdc) (ha : t.sds.active = s.sds.active)
    (hv : t.sds.verifyMs = s.sds.verifyMs) (hp : t.sds.verifyPass = s.sds.verifyPass) : t.modesLegal := by
  obtain ⟨h1, h2, h3, h4, h5, h6, h7, h8, h9, h10, h11⟩ := h
  constructor <;> simp_all

theorem modesLegal_cmdLoadBegin {s : State} (o : Originator) (n : Nat) (h : s.modesLegal) (hr : s.mdc.power = .running) :
    (s.cmdLoadBegin o n).1.modesLegal := by
  unfold State.cmdLoadBegin
  split
  · exact h
  · split
    · exact h
    · rename_i hm
      have hmode : s.mdc.mode = .unconfigured ∨ s.mdc.mode = .halted := by
        by_cases e : s.mdc.mode = .unconfigured
        · exact .inl e
        · exact .inr (by_contra fun e' => hm ⟨e, e'⟩)
      obtain ⟨h1, h2, h3, h4, h5, h6, h7, h8, h9, h10, h11⟩ := h
      rcases hmode with e | e <;> constructor <;> simp_all

/-- Out of STARTING into OPERATIONAL. -/
theorem modesLegal_enterOperational {s : State} (h : s.modesLegal) (hm : s.mdc.mode = .starting) : s.enterOperational.modesLegal := by
  refine modesLegal_core (enterOperational_core s) ?_
  obtain ⟨h1, h2, h3, h4, h5, h6, h7, h8, h9, h10, h11⟩ := h
  constructor <;> simp_all [Mdc.leaveStarting, LoadRecord.closed]

/-- Out of STARTING or OPERATIONAL into HALTED. -/
theorem modesLegal_enterHalted {s : State} (r : HaltReason) (h : s.modesLegal)
    (hm : s.mdc.mode = .starting ∨ s.mdc.mode = .operational) : (s.enterHalted r).modesLegal := by
  refine modesLegal_core (enterHalted_core s r) ?_
  obtain ⟨h1, h2, h3, h4, h5, h6, h7, h8, h9, h10, h11⟩ := h
  rcases hm with e | e <;> constructor <;> simp_all [Mdc.leaveStarting]

theorem modesLegal_tryOperational {s : State} (h : s.modesLegal) : s.tryOperational.modesLegal :=
  kept_ite h fun hc => modesLegal_enterOperational h hc.1

/-- In STARTING a change of the start-up's own fields and of the verify count. -/
theorem modesLegal_of_starting {s : State} (h : s.modesLegal) (hm : s.mdc.mode = .starting) (ms : Option Nat) (x : Bool)
    (c : StartCrc) (n : Nat) :
    ({ s with mdc := { s.mdc with startupMs := ms, startupExpired := x, startCrc := c }, sds.verifyCount := n } : State).modesLegal := by
  obtain ⟨h1, h2, h3, h4, h5, h6, h7, h8, h9, h10, h11⟩ := h
  constructor <;> simp_all

/-- In OPERATIONAL a change of the verify timer, pass and count, not both running. -/
theorem modesLegal_of_verify {s : State} (h : s.modesLegal) (hm : s.mdc.mode = .operational) (ms : Option Nat) (x : Bool)
    (n : Nat) (ho : ms = none ∨ x = false) :
    ({ s with sds := { s.sds with verifyMs := ms, verifyPass := x, verifyCount := n } } : State).modesLegal := by
  obtain ⟨h1, h2, h3, h4, h5, h6, h7, h8, h9, h10, h11⟩ := h
  constructor <;> simp_all
  rcases ho with e | e <;> simp [e]

/-- The end of the start check, with an image or without. -/
theorem modesLegal_enterStarting {s : State} (r : CheckResult) (h : s.modesLegal) (hc : s.mdc.power = .checking) :
    (s.enterStarting r).modesLegal := by
  have k := startHolders_core (s.install (readImage s.sds.stored.bytes)) (readImage s.sds.stored.bytes).areas
  have hm := h.checking hc
  obtain ⟨h1, h2, h3, h4, h5, h6, h7, h8, h9, h10, h11⟩ := h
  unfold State.enterStarting
  constructor <;> simp only [k.mdc, k.sds, k.inProgress] <;> simp_all [State.install, LoadRecord.closed]

theorem modesLegal_enterUnconfigured {s : State} (r : CheckResult) (h : s.modesLegal) (hc : s.mdc.power = .checking) :
    (s.enterUnconfigured r).modesLegal := by
  have k := startHolders_core s (List.replicate 8 .none)
  have hm := h.checking hc
  obtain ⟨h1, h2, h3, h4, h5, h6, h7, h8, h9, h10, h11⟩ := h
  unfold State.enterUnconfigured
  constructor <;> simp only [k.mdc, k.sds, k.inProgress] <;> simp_all

theorem modesLegal_holdReset {s : State} (h : s.modesLegal) : s.holdReset.modesLegal :=
  { h with
    checking := fun e => absurd e (by simp [State.holdReset])
    inactive := fun e => h.inactive (.inr (e.resolve_left (by simp [State.holdReset])))
    working := fun e => absurd e (by simp [State.holdReset]) }

theorem modesLegal_tick {s : State} (h : s.modesLegal) : s.tick.modesLegal := by
  unfold State.tick
  split
  · exact h
  · obtain ⟨h1, h2, h3, h4, h5, h6, h7, h8, h9, h10, h11⟩ := h
    constructor <;> simpa [fall, -not_and]

theorem lasting_modesLegal : Lasting State.modesLegal where
  core h k := modesLegal_core k h
  loadBegin o n h hr := modesLegal_cmdLoadBegin o n h hr
  loadSegment {s} o a bs h := by
    unfold State.cmdLoadSegment
    split
    · exact h
    · rename_i hn
      have hm : s.mdc.mode = .loading := by
        by_contra hm
        simp [State.ownsLoad, hm] at hn
      split
      · exact h
      · exact modesLegal_of_open h hm (by simp) rfl rfl rfl rfl rfl
  addRestriction x h := by cases x <;> exact { h with }
  removeRestriction x h := by cases x <;> exact { h with }
  work _ h hm := { h with working := fun _ => hm }
  idle h := { h with working := fun e => absurd e (by simp) }
  loadChecks len crc h hp := by
    unfold State.endLoadChecks
    simp only
    split
    · exact modesLegal_of_open h (h.working hp) (by simp) rfl rfl rfl rfl rfl
    · exact modesLegal_of_open h (h.working hp) (by simp) rfl rfl rfl rfl rfl
  warm c _ _ := modesLegal_of_start rfl rfl rfl rfl rfl rfl rfl rfl rfl rfl
  blank _ _ := modesLegal_of_start rfl rfl rfl rfl rfl rfl rfl rfl rfl rfl
  cold s := modesLegal_of_start rfl rfl rfl rfl rfl rfl rfl rfl rfl rfl
  off s := modesLegal_of_start rfl rfl rfl rfl rfl rfl rfl rfl rfl rfl
  held h := modesLegal_holdReset h
  starting r h hc := modesLegal_enterStarting r h hc
  unconfigured r h hc := modesLegal_enterUnconfigured r h hc
  operational h := modesLegal_tryOperational h
  startingCrc {s} crc h := by
    unfold State.startingCrc
    split
    · exact h
    · rename_i hn
      have hm : s.mdc.mode = .starting := by_contra fun e => hn (.inl e)
      split
      · exact modesLegal_tryOperational (modesLegal_of_starting h hm _ _ _ _)
      · exact modesLegal_enterHalted _ h (.inl hm)
  startupExpiry {s} h := by
    unfold State.startupExpiry
    split
    · exact h
    · rename_i hn
      have hm : s.mdc.mode = .starting := h.startup (.inl (by simpa [Option.isSome_iff_ne_none] using hn))
      exact modesLegal_tryOperational (modesLegal_of_starting h hm _ _ _ _)
  verifyExpiry {s} h := by
    unfold State.verifyExpiry
    split
    · exact h
    · rename_i hn
      have hm : s.mdc.mode = .operational := h.verify (.inl (by simpa [Option.isSome_iff_ne_none] using hn))
      exact modesLegal_of_verify h hm _ _ _ (.inl rfl)
  verifyEnd {s} crc h := by
    unfold State.verifyEnd
    split
    · exact h
    · rename_i hn
      have hm : s.mdc.mode = .operational := h.verify (.inr (by simpa using hn))
      split
      · exact modesLegal_core (CoreKept.note _ _) (modesLegal_of_verify h hm _ _ _ (.inr rfl))
      · exact modesLegal_enterHalted _ h (.inr hm)
  tick h := modesLegal_tick h

/-- Settles O8, by the operations that change the mode record, the image, the load or the command in progress. -/
theorem modesKept : Obligations.ModesKept := fun _ _ h ht => lasting_modesLegal.step h ht

end Sys2Proof.Machine

/-! ### Starts: the supply, the reset line, ACTIVATE, RESTART (R16, R17, R190 to R193) -/

namespace Sys2Proof.Machine

/-! #### The stored image at a start (R17) -/

@[simp] theorem storedNow_bytes (s : State) : s.storedNow.bytes = s.sds.stored.bytes := by
  unfold State.storedNow
  split
  · split <;> rfl
  · rfl

@[simp] theorem storedNow_crc (s : State) : s.storedNow.crc = s.sds.stored.crc := by
  unfold State.storedNow
  split
  · split <;> rfl
  · rfl

/-- A start marks the stored image where ACTIVATE is writing it. -/
theorem storedNow_damaged (s : State) :
    s.storedNow.damaged = true ↔ s.sds.stored.damaged = true ∨ ∃ q, s.slu.inProgress = some q ∧ q.cmd = .activate := by
  unfold State.storedNow
  split
  · rename_i q hq
    split
    · rename_i hc
      exact iff_of_true rfl (.inr ⟨q, hq, hc⟩)
    · rename_i hc
      refine ⟨.inl, fun h => h.resolve_right ?_⟩
      rintro ⟨r, hr, hrc⟩
      cases hq.symm.trans hr
      exact hc hrc
  · rename_i hq
    refine ⟨.inl, fun h => h.resolve_right ?_⟩
    rintro ⟨r, hr, -⟩
    cases hq.symm.trans hr

/-- Settles O16: both rows are a cold start by definition, the loss of supply with the power off. -/
theorem supplyRows : Obligations.SupplyRows := fun s =>
  ⟨s.coldNow, rfl, rfl, rfl, storedNow_bytes s, storedNow_crc s, storedNow_damaged s⟩

/-! #### The line at a start -/

/-- With the mode not set, or a frame on its way out, the arbiter begins no notice. -/
theorem arbiter_quiet {s : State} (h : s.mdc.power = .running → s.slu.line = none → s.slu.respQ ≠ []) :
    s.arbiter = { s with slu.line := s.arbiter.slu.line, slu.respQ := s.arbiter.slu.respQ }
      ∧ s.arbiter.outgoing = s.outgoing := by
  unfold State.arbiter State.outgoing
  cases hl : s.slu.line with
  | some g => exact ⟨rfl, by simp [hl]⟩
  | none =>
    cases hq : s.slu.respQ with
    | cons f rest => exact ⟨rfl, by simp⟩
    | nil =>
      have hp : s.mdc.power ≠ .running := fun hp => h hp hl hq
      simp only [if_neg hp, hl, hq]
      exact ⟨by rw [← hl, ← hq], trivial⟩

/-- With the mode not set no command is taken. -/
theorem settleLine_stopped {s : State} (h : s.mdc.power ≠ .running) : s.settleLine = s.arbiter := by
  have ha : s.arbiter.mayTake = false := by simp [State.mayTake, (CoreKept.arbiter s).mdc, h]
  unfold State.settleLine State.takeCommands Config.inputDepth
  split
  · rfl
  · rw [if_neg (by simp [ha])]

/-! #### A warm start (R192) -/

/-- What a warm start leaves, whatever frames the arbiter then sends. -/
theorem warmStarted {s t : State} {m : Mdc} {c : StartCause}
    (h : t = { s.warmStart c with mdc := m, slu.line := t.slu.line, slu.respQ := t.slu.respQ }) : WarmStarted s m t := by
  rw [h]
  exact {
    mdc := rfl
    bytes := ⟨storedNow_bytes s, storedNow_crc s⟩
    damaged := storedNow_damaged s
    store := rfl
    est := rfl
    flu := rfl
    slots := ⟨rfl, fun i => by
      simp only [State.slot, State.warmStart, Rsu.start, List.getD_eq_getElem?_getD, List.getElem?_replicate]
      split <;> rfl⟩
    requests := ⟨rfl, rfl⟩
    bdu := rfl
    slu := rfl
    rest := ⟨rfl, rfl, rfl⟩ }

/-- A warm start with its start check: no command is taken, and no notice begins. -/
theorem warmStart_settled (s : State) (c : StartCause) :
    WarmStarted s (Mdc.checking c) (s.warmStart c).settleLine ∧ (s.warmStart c).settleLine.outgoing = s.outgoing := by
  have hp : (s.warmStart c).mdc.power ≠ .running := by simp [State.warmStart]
  obtain ⟨he, ho⟩ := arbiter_quiet (s := s.warmStart c) fun h => absurd h hp
  rw [settleLine_stopped hp]
  exact ⟨warmStarted he, ho⟩

/-- A frame placed just before the start changes nothing of it but the frames. -/
theorem WarmStarted.of_respond {s t : State} {m : Mdc} {f : Frame} (h : WarmStarted (s.respond f) m t) : WarmStarted s m t :=
  ⟨h.mdc, h.bytes, h.damaged, h.store, h.est, h.flu, h.slots, h.requests, h.bdu, h.slu, h.rest⟩

theorem outgoing_of_respond (s : State) (f : Frame) : (s.respond f).outgoing = s.outgoing ++ [f] := by
  simp [State.outgoing]

/-! #### The reset line (R192) -/

/-- A pulse that is taken. -/
theorem holdReset_is (s : State) : s.holdReset.mdc.power = .held ∧ s.holdReset.slu.line = none ∧ s.holdReset.slu.inProgress = none
    ∧ s.holdReset.sds.stored.bytes = s.sds.stored.bytes ∧ s.holdReset.sds.stored.crc = s.sds.stored.crc
    ∧ (s.holdReset.sds.stored.damaged = true ↔ s.sds.stored.damaged = true ∨ ∃ q, s.slu.inProgress = some q ∧ q.cmd = .activate) :=
  ⟨rfl, rfl, rfl, storedNow_bytes s, storedNow_crc s, storedNow_damaged s⟩

/-- Settles O17: a pulse by its length, and the warm start of its release. -/
theorem resetLineRows : Obligations.ResetLineRows := by
  refine ⟨fun s us => ⟨_, rfl, fun ha => by simp [ha], fun ha hu => ?_, fun ha hu => ?_, fun ha hl hu => ?_⟩,
    fun s => ⟨fun h => ?_, fun h => ?_⟩⟩
  · obtain ⟨h1, h2, h3, h4, h5, h6⟩ := holdReset_is s
    rw [if_pos ha, State.resetLow, if_pos hu]
    exact ⟨⟨h1, h2, h3, h4, h5, h6, rfl⟩, rfl⟩
  · rw [if_pos ha, State.resetLow, if_neg (by omega), if_pos hu]
  · rw [if_pos ha, State.resetLow, if_neg (by omega), if_neg (by omega)]
    simp only
    split
    · obtain ⟨h1, h2, h3, h4, h5, h6⟩ := holdReset_is { s with freeCount := s.freeCount + 1 }
      exact ⟨rfl, .inl ⟨h1, h2, h3, h4, h5, h6, rfl⟩⟩
    · exact ⟨rfl, .inr rfl⟩
  · exact congrArg Host.Outcome.next (if_neg h)
  · obtain ⟨hw, ho⟩ := warmStart_settled s .warmLine
    exact ⟨_, congrArg Host.Outcome.next (if_pos h), ho, hw⟩

/-! #### ACTIVATE (R16) -/

/-- The bytes of the load buffer from 0 on, read one by one. -/
theorem loaded_eq {s : State} (h : Memory.wf s.sds.buffer = true) (n : Nat) :
    s.loaded n = (List.range n).map fun a => Memory.read s.sds.buffer a := by
  rw [State.loaded, Memory.readFrom_eq h 0 n (Nat.le_refl 0), List.range_eq_range']

theorem ownsLoad_iff {s : State} {o : Originator} : s.ownsLoad o = true ↔ s.mdc.mode = .loading ∧ s.sds.load.owner = some o := by
  simp [State.ownsLoad]

theorem mayActivate_iff {s : State} {o : Originator} :
    s.mayActivate o = true ↔ s.mdc.mode = .loading ∧ s.sds.load.owner = some o ∧ s.sds.load.state = .accepted := by
  simp [State.mayActivate, ownsLoad_iff, and_assoc]

/-- A command that stays in progress: only that changes. -/
theorem exec_inProgress {s : State} (h : s.ready) {o : Originator} {tag : Nat} {c : Cmd} (hc : cmdSized c = true)
    (e : s.runCmd ⟨o, tag, c⟩ = { s with slu.inProgress := some ⟨o, tag, c⟩ }) :
    exec (rowOf o tag c) s = .next { s with slu.inProgress := some ⟨o, tag, c⟩ } := by
  rw [exec_rowOf, arrive_ready h hc, e]
  exact congrArg _ (arbiter_served fun hl => h.served hl)

/-- Settles O24: the refusal and the work in progress as `runCmd` has them, the end as a warm start after the write. -/
theorem activateRows : Obligations.ActivateRows := by
  intro s o tag crc
  refine ⟨fun hr => ⟨fun hn => replied hr (c := .activate) rfl ?_, fun hm ho hs => exec_inProgress hr (c := .activate) rfl ?_⟩,
    fun hp hq hw => ?_⟩
  · exact if_neg fun h => hn (mayActivate_iff.mp h)
  · exact if_pos (mayActivate_iff.mpr ⟨hm, ho, hs⟩)
  · let f : Frame := .reply tag 4 o (s.activateRes crc) .none
    let image := (List.range s.sds.load.declared).map fun a => Memory.read s.sds.buffer a
    let want := s.sds.load.crc.getD 0
    let written : State := { s with sds.stored := ⟨image, want, decide (crc ≠ want)⟩, slu.inProgress := none }
    have hx : exec (.activateWriteComplete crc) s = .next ((written.respond f).warmStart .activate).settleLine := by
      have hrun : s.running = true := by simp [State.running, hp]
      show execActivateWriteComplete crc s = _
      simp only [execActivateWriteComplete, hq, hrun, if_true, State.finishActivate, State.writeStored, loaded_eq hw]
      rfl
    obtain ⟨hws, ho⟩ := warmStart_settled (written.respond f) .activate
    exact ⟨_, hx, ho.trans (outgoing_of_respond written f), hws.of_respond⟩

/-! #### Two-step commands (R173, R174, R176) -/

/-- The command a two-step command is when sent on its own; an unknown code has none. -/
def aloneCmd : Inner → Option Cmd
  | .restoreSection i => some (.restoreSection i)
  | .forcedRelease i r => some (.forcedRelease i r)
  | .removeRestriction c i r => some (.removeRestriction c i r)
  | .forceDirection p => some (.forceDirection p)
  | .clearRemoteClaims l => some (.clearRemoteClaims l)
  | .takeControl a => some (.takeControl a)
  | .restart k => some (.restart k)
  | .other _ _ => none

theorem haltedFor_iff {s : State} {x : Inner} : s.haltedFor x = true ↔ s.mdc.mode = .halted ∧ innerRestart x = false := by
  simp [State.haltedFor]

theorem not_haltedFor {s : State} {x : Inner} (h : s.mdc.mode = .halted → innerRestart x = true) : s.haltedFor x = false := by
  cases hx : s.haltedFor x with
  | false => rfl
  | true => obtain ⟨hm, hi⟩ := haltedFor_iff.mp hx; simp [h hm] at hi

/-- With the gate holding the command, EXECUTE comes to its checks (R174). -/
theorem executeRefusal_prepared {s : State} {o : Originator} {x : Inner} (h : s.preparedFor o x) :
    s.executeRefusal o x = s.innerRefusal o x := by
  obtain ⟨hm, g, hg, rfl⟩ := h
  simp [State.executeRefusal, not_haltedFor hm, hg]

/-- A PREPARE that is answered at once. -/
theorem answered_prepare {s : State} (h : s.ready) {o : Originator} {tag : Nat} {x : Inner} {r : Res} {b : State}
    (hs : innerSized x = true) (e : s.cmdPrepare o x = (b, r, .none)) :
    ∃ t, Answered s (.prepare o tag x) (.reply tag 18 o r .none) b t := by
  have := answered_now h (o := o) (tag := tag) (c := .prepare x) hs rfl rfl rfl
  rw [show s.handOver o (.prepare x) = _ from e] at this
  exact this

/-- An EXECUTE that is refused: the gate is emptied all the same. -/
theorem answered_execute_refused {s : State} (h : s.ready) {o : Originator} {tag : Nat} {x : Inner} {r : Res}
    (hs : innerSized x = true) (e : s.executeRefusal o x = some r) :
    ∃ t, Answered s (.execute o tag x) (.reply tag 19 o r .none) (s.setGate o none) t := by
  have hr : s.restartOf ⟨o, tag, .execute x⟩ = none := by
    unfold State.restartOf
    split
    · rename_i k hk
      cases hk
      simp [e]
    · rfl
  have := answered_now h (o := o) (tag := tag) (c := .execute x) hs rfl rfl hr
  rw [show s.handOver o (.execute x) = (s.setGate o none).refuse r by
    show s.cmdExecute o x = _; simp only [State.cmdExecute, e]] at this
  exact this

/-- How every two-step command is treated but for its effect. -/
theorem twoStep_of_alone {s : State} (h : s.ready) (o : Originator) (tag : Nat) {x : Inner} {c : Cmd} (hx : aloneCmd x = some c) :
    TwoStep s o tag x (rowOf o tag c) (s.innerRefusal o x) := by
  have hs : innerSized x = true := by
    cases x with
    | other => cases hx
    | _ => rfl
  have ht : innerTwoStep x = true := by
    cases x with
    | other => cases hx
    | _ => rfl
  refine ⟨?_, fun hm hi => ?_, fun r hm hw => ?_, fun hm hw => ?_, fun r hg hw => ?_⟩
  · cases x <;> cases hx <;> exact answered_now h rfl rfl rfl rfl
  · have hf := haltedFor_iff.mpr ⟨hm, hi⟩
    exact ⟨answered_prepare h hs (by simp [State.cmdPrepare, ht, hf]),
      answered_execute_refused h hs (by simp [State.executeRefusal, hf])⟩
  · exact answered_prepare h hs (by simp [State.cmdPrepare, ht, not_haltedFor hm, hw])
  · exact answered_prepare h hs (by simp [State.cmdPrepare, ht, not_haltedFor hm, hw])
  · exact answered_execute_refused h hs ((executeRefusal_prepared hg).trans hw)

/-! #### RESTART (R193) -/

theorem innerRefusal_restart (s : State) (o : Originator) (k : Nat) :
    s.innerRefusal o (.restart k) = if k = 0 ∨ k = 1 then none else some .badParameter := by
  simp only [State.innerRefusal, Nat.le_one_iff_eq_zero_or_eq_one]

/-- Settles O45: the two-step treatment, and the start of its kind after the reply. -/
theorem restartRow : Obligations.RestartRow := by
  intro s o tag k hr
  refine ⟨innerRefusal_restart s o k ▸ twoStep_of_alone hr o tag (c := .restart k) rfl, fun hg hw => ?_⟩
  have hrun : s.runCmd ⟨o, tag, .execute (.restart k)⟩ = (s.respond (.reply tag 19 o .done .none)).restartNow k := by
    have hn : s.restartOf ⟨o, tag, .execute (.restart k)⟩ = some k := by
      simp only [State.restartOf, executeRefusal_prepared hg, innerRefusal_restart]
      simp_all
    show s.answerNow _ = _
    unfold State.answerNow
    rw [hn]
    rfl
  have hnext := (exec_rowOf o tag (.execute (.restart k)) s).trans (congrArg _ ((arrive_ready hr rfl).trans (congrArg _ hrun)))
  obtain ⟨he, ho⟩ := arbiter_quiet (s := (s.respond (.reply tag 19 o .done .none)).restartNow k) fun _ _ => by
    unfold State.restartNow State.blankStart
    split <;> simp [State.warmStart, Slu.warm]
  refine ⟨_, hnext, ho.trans ?_, ?_⟩
  · rw [← outgoing_of_respond]
    unfold State.restartNow State.blankStart
    split <;> rfl
  · refine WarmStarted.of_respond (f := .reply tag 19 o .done .none) (warmStarted (c := .warmCommand) (he.trans ?_))
    unfold State.restartNow State.blankStart
    split <;> rfl

end Sys2Proof.Machine

/-! ### Changing many records in turn, notes, sorted numbers -/

namespace Sys2Proof.Machine

/-! #### One place after another (R47, R49, R145) -/

/-- Reading a list after distinct places have each been changed by one function. -/
theorem getD_foldl_modify {α : Type} (f : α → α) (d : α) (hd : f d = d) {is : List Nat} (hn : is.Nodup) (xs : List α) (k : Nat) :
    (is.foldl (fun l i => l.modify i f) xs).getD k d = if k ∈ is then f (xs.getD k d) else xs.getD k d := by
  induction is generalizing xs with
  | nil => simp
  | cons i is ih =>
    obtain ⟨hi, hn⟩ := List.nodup_cons.mp hn
    rw [List.foldl_cons, ih hn, getD_modify_eq]
    by_cases hk : i = k
    · subst hk
      by_cases hl : i < xs.length
      · simp [hi, hl]
      · simp [hi, hl, hd]
    · simp [hk, Ne.symm hk]

@[simp] theorem length_foldl_modify {α : Type} (f : α → α) (is : List Nat) (xs : List α) :
    (is.foldl (fun l i => l.modify i f) xs).length = xs.length := by
  induction is generalizing xs with
  | nil => rfl
  | cons i is ih => rw [List.foldl_cons, ih, List.length_modify]

theorem each_modSec (s : State) (is : List Nat) (f : SectionRec → SectionRec) :
    (s.each is fun t i => t.modSec i f) = { s with est.sections := is.foldl (fun l i => l.modify i f) s.est.sections } := by
  unfold State.each
  induction is generalizing s with
  | nil => rfl
  | cons i is ih => rw [List.foldl_cons, ih]; rfl

theorem each_modSig (s : State) (is : List Nat) (f : SignalRec → SignalRec) :
    (s.each is fun t i => t.modSig i f) = { s with est.signals := is.foldl (fun l i => l.modify i f) s.est.signals } := by
  unfold State.each
  induction is generalizing s with
  | nil => rfl
  | cons i is ih => rw [List.foldl_cons, ih]; rfl

/-! #### Notes (R184) -/

/-- A reference enqueued changes the notice queue alone. -/
theorem note_eq (s : State) (r : Ref) : s.note r = { s with slu.noticeQ := (s.note r).slu.noticeQ } := by
  unfold State.note
  split <;> rfl

@[simp] theorem note_mdc (s : State) (r : Ref) : (s.note r).mdc = s.mdc := (Handed.note s r).mdc
@[simp] theorem note_sds (s : State) (r : Ref) : (s.note r).sds = s.sds := (Handed.note s r).sds
@[simp] theorem note_est (s : State) (r : Ref) : (s.note r).est = s.est := by rw [note_eq]
@[simp] theorem note_flu (s : State) (r : Ref) : (s.note r).flu = s.flu := (Handed.note s r).flu
@[simp] theorem note_rsu (s : State) (r : Ref) : (s.note r).rsu = s.rsu := by rw [note_eq]
@[simp] theorem note_bdu (s : State) (r : Ref) : (s.note r).bdu = s.bdu := by rw [note_eq]
@[simp] theorem note_holders (s : State) (r : Ref) : (s.note r).slu.holders = s.slu.holders := (Handed.note s r).holders

theorem mem_note (s : State) (r : Ref) : r ∈ (s.note r).slu.noticeQ := by
  unfold State.note
  split
  · rename_i h
    simpa using h
  · simp

theorem note_prefix (s : State) (r : Ref) : s.slu.noticeQ <+: (s.note r).slu.noticeQ := (Handed.note s r).noticeQ

theorem noticeQ_note (s : State) (r : Ref) :
    (s.note r).slu.noticeQ = if r ∈ s.slu.noticeQ then s.slu.noticeQ else s.slu.noticeQ ++ [r] := by
  unfold State.note
  by_cases h : r ∈ s.slu.noticeQ <;> simp [h]

/-- Enqueuing a list of references: each is in the queue then, what was there stays in front, nothing else changes. -/
theorem each_note (s : State) (l : List Ref) :
    s.each l State.note = { s with slu.noticeQ := (s.each l State.note).slu.noticeQ }
      ∧ s.slu.noticeQ <+: (s.each l State.note).slu.noticeQ ∧ ∀ r ∈ l, r ∈ (s.each l State.note).slu.noticeQ := by
  unfold State.each
  induction l generalizing s with
  | nil => exact ⟨rfl, List.prefix_rfl, by simp⟩
  | cons r l ih =>
    obtain ⟨he, hp, hm⟩ := ih (s.note r)
    refine ⟨?_, (note_prefix s r).trans hp, fun x hx => ?_⟩
    · rw [List.foldl_cons]
      exact he.trans (by rw [note_eq s r])
    · rcases List.mem_cons.mp hx with rfl | hx
      · exact hp.subset (mem_note s x)
      · exact hm x hx

/-! #### Ascending numbers (R15, R44) -/

theorem insertNat_eq (n : Nat) (l : List Nat) : insertNat n l = l.orderedInsert (· ≤ ·) n := by
  induction l with
  | nil => rfl
  | cons m l ih => rw [insertNat, List.orderedInsert_cons, ih]

theorem ascending_eq (l : List Nat) : ascending l = l.insertionSort (· ≤ ·) := by
  induction l with
  | nil => rfl
  | cons n l ih => rw [List.insertionSort_cons, ← ih, ← insertNat_eq]; rfl

theorem ascending_perm (l : List Nat) : (ascending l).Perm l := ascending_eq l ▸ List.perm_insertionSort _ l

theorem ascending_sorted (l : List Nat) : (ascending l).Pairwise (· ≤ ·) := ascending_eq l ▸ List.pairwise_insertionSort _ l

@[simp] theorem mem_ascending {l : List Nat} {n : Nat} : n ∈ ascending l ↔ n ∈ l := (ascending_perm l).mem_iff

/-- The lowest of a list that is not empty. -/
theorem ascending_head {l : List Nat} (h : l ≠ []) : ∃ a, (ascending l).head? = some a ∧ a ∈ l ∧ ∀ x ∈ l, a ≤ x := by
  have hs := ascending_sorted l
  cases ha : ascending l with
  | nil => exact absurd (List.eq_nil_of_length_eq_zero (by simpa [ha] using (ascending_perm l).length_eq.symm)) h
  | cons a as =>
    rw [ha] at hs
    refine ⟨a, rfl, mem_ascending.mp (by simp [ha]), fun x hx => ?_⟩
    rcases List.mem_cons.mp (ha ▸ mem_ascending.mpr hx) with rfl | hx
    · exact Nat.le_refl x
    · exact List.rel_of_pairwise_cons hs hx

/-! #### Restrictions on defined indices (R16) -/

/-- Of the numbers listed those below a bound stay; the others read as unlisted. -/
theorem get_dropAbove {α : Type} (d : α) (n : Nat) (l : List (Nat × α)) (i : Nat) :
    Sparse.get d (dropAbove n l) i = if i < n then Sparse.get d l i else d := by
  induction l with
  | nil => simp [dropAbove, Sparse.get]
  | cons x l ih =>
    obtain ⟨a, v⟩ := x
    unfold dropAbove at ih ⊢
    by_cases ha : a < n
    · simp only [List.filter_cons, ha, decide_true, if_true, Sparse.get, ih]
      by_cases e : a = i
      · subst e; simp [ha]
      · simp [e]
    · simp only [List.filter_cons, ha, decide_false, Sparse.get]
      by_cases e : a = i
      · subst e; simp [ih, ha]
      · simp [ih, e]

/-! #### Telegrams that go out in an act (R141) -/

/-- `t` is `s` but for telegrams sent: the links' records change in what sending changes. -/
structure SentOnly (s t : State) : Prop where
  eq : t = { s with bdu.links := t.bdu.links }
  links : t.bdu.links.length = s.bdu.links.length
  unsent : ∀ l, (t.link l).unsent = (s.link l).unsent

theorem SentOnly.refl (s : State) : SentOnly s s := ⟨rfl, rfl, fun _ => rfl⟩

theorem SentOnly.trans {s t u : State} (h : SentOnly s t) (k : SentOnly t u) : SentOnly s u :=
  ⟨k.eq.trans (by rw [h.eq]), k.links.trans h.links, fun l => (k.unsent l).trans (h.unsent l)⟩

theorem SentOnly.send (s : State) (l : Nat) : SentOnly s (s.send l) := by
  refine ⟨rfl, by simp [State.send], fun j => ?_⟩
  unfold State.send
  rw [State.modLink_link_at]
  split <;> rfl

theorem SentOnly.sendChanges (s : State) : SentOnly s s.sendChanges := by
  suffices ∀ (l : List Nat) t, SentOnly s t →
      SentOnly s (l.foldl (fun t l => if t.sends l && t.changed l && (t.link l).spaced then t.send l else t) t) from
    this _ s (SentOnly.refl s)
  intro l
  induction l with
  | nil => exact fun t ht => ht
  | cons x l ih =>
    intro t ht
    rw [List.foldl_cons]
    split
    · exact ih _ (ht.trans (SentOnly.send t x))
    · exact ih _ ht

end Sys2Proof.Machine

/-! ### The end of the start check, the start-up, the verify passes (R18 to R20, R49, R52, R194 to R196) -/

namespace Sys2Proof.Machine

/-! #### The start check (R18) -/

/-- Without a controller listed there is no poll position, and no poll goes out. -/
theorem sendPoll_none {s : State} (h : s.flu.pollPos = none) : s.sendPoll = s := by simp [State.sendPoll, h]

theorem sendPoll_some {s : State} {a : Nat} (h : s.flu.pollPos = some a) :
    s.sendPoll = { s with flu.poll := .waiting, flu.lastPoll := some (s.pollOf a) } := by simp [State.sendPoll, h]

/-- A poll sent changes the field link unit alone. -/
theorem sendPoll_eq (s : State) : s.sendPoll = { s with flu := s.sendPoll.flu } := by
  unfold State.sendPoll
  split <;> rfl

@[simp] theorem sendPoll_mdc (s : State) : s.sendPoll.mdc = s.mdc := by rw [sendPoll_eq]
@[simp] theorem sendPoll_sds (s : State) : s.sendPoll.sds = s.sds := by rw [sendPoll_eq]
@[simp] theorem sendPoll_est (s : State) : s.sendPoll.est = s.est := by rw [sendPoll_eq]
@[simp] theorem sendPoll_bdu (s : State) : s.sendPoll.bdu = s.bdu := by rw [sendPoll_eq]
@[simp] theorem sendPoll_slu (s : State) : s.sendPoll.slu = s.slu := by rw [sendPoll_eq]

theorem startHolders_eq (s : State) (l : List Holder) :
    s.startHolders l = { s with slu.holders := if s.mdc.cause = .cold then l else s.slu.holders } := by
  unfold State.startHolders
  split <;> rfl

/-- What stands when a passing check has installed its image, before the poll and the telegrams. -/
theorem enterStarting_eq (s : State) (r : CheckResult) : s.enterStarting r =
    { s.install (readImage s.sds.stored.bytes) with
      mdc := { s.mdc with power := .running, mode := .starting, startupMs := some 10000, startupExpired := false, startCrc := .running }
      sds := { (s.install (readImage s.sds.stored.bytes)).sds with lastCheck := r }
      slu.holders := if s.mdc.cause = .cold then (readImage s.sds.stored.bytes).areas else s.slu.holders } := by
  simp only [State.enterStarting, startHolders_eq]
  rfl

/-- A passing check, to the last telegram. -/
theorem endCheck_pass {s : State} (h : s.sds.stored.check.code = 0) :
    SentOnly (((s.enterStarting s.sds.stored.check).note .system).sendPoll) s.endCheck := by
  unfold State.endCheck
  rw [if_pos h]
  exact SentOnly.sendChanges _

theorem endCheck_fail {s : State} (h : s.sds.stored.check.code ≠ 0) :
    s.endCheck = (s.enterUnconfigured s.sds.stored.check).note .system := by
  unfold State.endCheck
  rw [if_neg h]

/-- The parts of `StartCheckRow` that a check of either outcome has. -/
structure CheckEnded (s c : State) : Prop where
  lastCheck : c.sds.lastCheck = s.sds.stored.check
  noticeQ : c.slu.noticeQ = if Ref.system ∈ s.slu.noticeQ then s.slu.noticeQ else s.slu.noticeQ ++ [.system]
  rest : c = { s with
    mdc := c.mdc, sds := { s.sds with active := c.sds.active, lastCheck := c.sds.lastCheck }, est := c.est, flu := c.flu
    bdu := c.bdu, slu := { s.slu with holders := c.slu.holders, noticeQ := c.slu.noticeQ } }

theorem checkEnded_pass {s : State} (h : s.sds.stored.check.code = 0) : CheckEnded s s.endCheck := by
  have k := endCheck_pass h
  rw [sendPoll_eq, note_eq, enterStarting_eq] at k
  rw [k.eq]
  refine ⟨rfl, ?_, rfl⟩
  simp only [noticeQ_note]
  rfl

theorem checkEnded_fail {s : State} (h : s.sds.stored.check.code ≠ 0) : CheckEnded s s.endCheck := by
  rw [endCheck_fail h, note_eq]
  unfold State.enterUnconfigured
  rw [startHolders_eq]
  refine ⟨rfl, ?_, rfl⟩
  simp only [noticeQ_note]

/-- The field link unit of a passing check before its first poll (R43). -/
theorem enterStarting_flu (s : State) (r : CheckResult) : ((s.enterStarting r).note .system).flu =
    ⟨(ascending (readImage s.sds.stored.bytes).controllers).map fun a => ⟨a, .unknown, 0⟩,
      (ascending (readImage s.sds.stored.bytes).controllers).head?, .none, none⟩ := by
  rw [note_eq, enterStarting_eq]
  rfl

/-- The first poll of a passing check: none without controllers, else to the lowest listed address. -/
theorem endCheck_poll {s : State} (h : s.sds.stored.check.code = 0) :
    let m := readImage s.sds.stored.bytes
    (m.controllers = [] → s.endCheck.flu.poll = .none ∧ s.endCheck.flu.pollPos = none ∧ s.endCheck.flu.lastPoll = none)
    ∧ (m.controllers ≠ [] → ∃ a, a ∈ m.controllers ∧ (∀ x ∈ m.controllers, a ≤ x)
        ∧ s.endCheck.flu.poll = .waiting ∧ s.endCheck.flu.pollPos = some a ∧ s.endCheck.flu.lastPoll = some (s.endCheck.pollOf a)) := by
  intro m
  have k := (endCheck_pass h).eq
  have hf := enterStarting_flu s s.sds.stored.check
  refine ⟨fun he => ?_, fun hne => ?_⟩
  · rw [show (readImage s.sds.stored.bytes).controllers = [] from he] at hf
    rw [sendPoll_none (by rw [hf]; rfl)] at k
    rw [k]
    simp only [hf]
    exact ⟨trivial, rfl, trivial⟩
  · obtain ⟨a, ha, hm, hl⟩ := ascending_head hne
    have hp : ((s.enterStarting s.sds.stored.check).note .system).flu.pollPos = some a := by rw [hf]; exact ha
    rw [sendPoll_some hp] at k
    rw [k]
    exact ⟨a, hm, hl, rfl, hp, rfl⟩

/-- What a passing check installs (R18, R21 to R23, R43, R139, R140, R167, R194). -/
theorem endCheck_installs {s : State} (h : s.sds.stored.check.code = 0) :
    let m := readImage s.sds.stored.bytes
    let c := s.endCheck
    c.mdc = ⟨.running, .starting, s.mdc.cause, s.mdc.halt, some 10000, false, .running⟩
    ∧ c.sds.active = some ⟨m, s.sds.stored.crc⟩ ∧ c.est = (s.install m).est
    ∧ c.flu.ctrls = (ascending m.controllers).map (fun a => ⟨a, .unknown, 0⟩)
    ∧ c.bdu.ports = List.replicate m.ports.length Port.start
    ∧ c.slu.holders = (if s.mdc.cause = .cold then m.areas else s.slu.holders) := by
  have k := (endCheck_pass h).eq
  have hc : (((s.enterStarting s.sds.stored.check).note .system).sendPoll).flu.ctrls =
      (ascending (readImage s.sds.stored.bytes).controllers).map (fun a => ⟨a, .unknown, 0⟩) := by
    unfold State.sendPoll
    split <;> simp only [enterStarting_flu]
  have he := enterStarting_eq s s.sds.stored.check
  refine ⟨?_, ?_, ?_, (congrArg (fun x : State => x.flu.ctrls) k).trans hc, ?_, ?_⟩
  · exact (congrArg State.mdc k).trans (by simp [he])
  · exact (congrArg (fun x : State => x.sds.active) k).trans (by simp [he, State.install])
  · exact (congrArg State.est k).trans (by simp [he])
  · exact (congrArg (fun x : State => x.bdu.ports) k).trans (by simp [he, State.install])
  · exact (congrArg (fun x : State => x.slu.holders) k).trans (by simp [he])

/-- The links of a passing check are the start's but for the telegrams sent. -/
theorem endCheck_links {s : State} (h : s.sds.stored.check.code = 0) :
    s.endCheck.bdu.links.length = 4 ∧ ∀ l, (s.endCheck.link l).unsent = Link.start := by
  have k := endCheck_pass h
  rw [sendPoll_eq, note_eq, enterStarting_eq] at k
  refine ⟨k.links, fun l => (k.unsent l).trans ?_⟩
  simp only [State.link, State.install, List.getD_eq_getElem?_getD, List.getElem?_replicate]
  split <;> rfl

/-- The check of a stored image: a damaged one fails check 1 (log 5). -/
theorem stored_check (st : Stored) : (st.damaged = true → st.check.code = 1)
    ∧ (st.damaged = false → st.check = structuralChecks st.bytes st.crc) := by
  refine ⟨fun h => ?_, fun h => ?_⟩
  · simp [Stored.check, checkList, h, firstFailing]
  · simp [Stored.check, structuralChecks, h]

/-- Settles O18: `endCheck` by its outcome. -/
theorem startCheckRow : Obligations.StartCheckRow := by
  refine ⟨fun s => ⟨fun h => congrArg Host.Outcome.next (if_neg h), fun h =>
    ⟨s.endCheck, congrArg Host.Outcome.next (if_pos h), ?_⟩⟩, stored_check⟩
  by_cases hc : s.sds.stored.check.code = 0
  · obtain ⟨h1, h2, h3⟩ := checkEnded_pass hc
    obtain ⟨hm, ha, he, hf, hp, ho⟩ := endCheck_installs hc
    obtain ⟨hp0, hp1⟩ := endCheck_poll hc
    obtain ⟨hl, hu⟩ := endCheck_links hc
    refine ⟨h1, h2, h3, fun _ => ⟨hm, ha, by rw [he]; rfl, by rw [he]; rfl, by rw [he]; rfl, fun i => ?_, fun i => ?_, fun i => ?_,
      hf, hp0, hp1, hp, hl, hu, ho⟩, fun h => absurd hc h⟩
    · exact (congrArg (fun e => Sparse.get SecRestr.empty (Est.secRestr e) i) he).trans (get_dropAbove _ _ _ i)
    · exact (congrArg (fun e => Sparse.get PtRestr.empty (Est.ptRestr e) i) he).trans (get_dropAbove _ _ _ i)
    · exact (congrArg (fun e => Sparse.get SigRestr.empty (Est.sigRestr e) i) he).trans (get_dropAbove _ _ _ i)
  · obtain ⟨h1, h2, h3⟩ := checkEnded_fail hc
    refine ⟨h1, h2, h3, fun h => absurd h hc, fun _ => ?_⟩
    rw [endCheck_fail hc, note_eq]
    unfold State.enterUnconfigured
    rw [startHolders_eq]
    exact ⟨rfl, rfl, fun hl => hl.inactive (.inl h), rfl, rfl, rfl, rfl⟩

end Sys2Proof.Machine

/-! ### Leaving STARTING, and HALTED: lost controllers, disturbed links (R49, R52, R145, R194 to R196) -/

namespace Sys2Proof.Machine

/-! #### Controllers declared LOST -/

/-- `t` is `s` with the controllers of the addresses `p` declared LOST with all they serve (R49). -/
structure ControllersLost (s : State) (p : Nat → Bool) (t : State) : Prop where
  ctrls : t.flu.ctrls = s.flu.ctrls.map fun c => if p c.addr = true then { c with state := .lost } else c
  sec : ∀ k, t.sec k = if k < s.image.sections.length ∧ p (s.secDef k).ctrl = true then (s.sec k).lose else s.sec k
  pt : ∀ k, t.pt k = if k < s.image.points.length ∧ p (s.ptDef k).ctrl = true then (s.pt k).lose else s.pt k
  sig : ∀ k, t.sig k = if k < s.image.signals.length ∧ p (s.sigDef k).ctrl = true then { s.sig k with reported := .unknown } else s.sig k
  due : t.releaseDue = true ↔ s.releaseDue = true
    ∨ ∃ k, k < s.image.points.length ∧ p (s.ptDef k).ctrl = true ∧ (s.pt k).pos = .moving
  sections : t.est.sections.length = s.est.sections.length
  points : t.est.points.length = s.est.points.length
  signals : t.est.signals.length = s.est.signals.length
  rest : t = { s with flu.ctrls := t.flu.ctrls, est.sections := t.est.sections, est.points := t.est.points,
                      est.signals := t.est.signals, releaseDue := t.releaseDue }

theorem mem_served {α : Type} {l : List α} {ctrl : α → Nat} {a k : Nat} (d : α) :
    k ∈ served l ctrl a ↔ k < l.length ∧ ctrl (l.getD k d) = a := by
  simp only [served, List.mem_filter, List.mem_range, decide_eq_true_eq, List.getD_eq_getElem?_getD]
  refine and_congr_right fun h => ?_
  simp [h]

theorem nodup_served {α : Type} (l : List α) (ctrl : α → Nat) (a : Nat) : (served l ctrl a).Nodup :=
  List.nodup_range.filter _

theorem losePoint_eq (s : State) (i : Nat) : ∃ b, s.losePoint i =
    { s with est.points := s.est.points.modify i PointRec.lose, releaseDue := b }
      ∧ (b = true ↔ s.releaseDue = true ∨ (s.pt i).pos = .moving) := by
  by_cases h : (s.pt i).pos = .moving
  · exact ⟨true, by simp only [State.losePoint, if_pos h]; rfl, by simp [h]⟩
  · exact ⟨s.releaseDue, by simp only [State.losePoint, if_neg h]; rfl, by simp [h]⟩

/-- Points that go LOST one after another; a movement that ends so is a release event (R31). -/
theorem each_losePoint (s : State) {is : List Nat} (hn : is.Nodup) : ∃ b, (s.each is fun t i => t.losePoint i) =
    { s with est.points := is.foldl (fun l i => l.modify i PointRec.lose) s.est.points, releaseDue := b }
      ∧ (b = true ↔ s.releaseDue = true ∨ ∃ k ∈ is, (s.pt k).pos = .moving) := by
  unfold State.each
  induction is generalizing s with
  | nil => exact ⟨s.releaseDue, rfl, by simp⟩
  | cons i is ih =>
    obtain ⟨hi, hn⟩ := List.nodup_cons.mp hn
    obtain ⟨b, hs, hb⟩ := losePoint_eq s i
    obtain ⟨c, he, hc⟩ := ih (s.losePoint i) hn
    have hp : ∀ k ∈ is, (s.losePoint i).pt k = s.pt k := fun k hk => by
      have hne : ¬(i = k ∧ k < s.est.points.length) := fun h => hi (h.1 ▸ hk)
      rw [hs]
      exact (State.modPt_pt_at s i k PointRec.lose).trans (if_neg hne)
    refine ⟨c, by rw [List.foldl_cons, he, hs]; rfl, hc.trans ?_⟩
    rw [show (s.losePoint i).releaseDue = b by rw [hs], hb, or_assoc]
    refine or_congr_right ⟨?_, ?_⟩
    · rintro (h | ⟨k, hk, h⟩)
      · exact ⟨i, List.mem_cons_self, h⟩
      · exact ⟨k, List.mem_cons_of_mem _ hk, hp k hk ▸ h⟩
    · rintro ⟨k, hk, h⟩
      rcases List.mem_cons.mp hk with rfl | hk
      · exact .inl h
      · exact .inr ⟨k, hk, (hp k hk).symm ▸ h⟩

/-- What a controller declared LOST changes, table by table. -/
theorem loseController_eq (s : State) (a : Nat) : ∃ b, s.loseController a =
    { s with
      flu.ctrls := s.flu.ctrls.map fun c => if c.addr = a then { c with state := .lost } else c
      est.sections := (served s.image.sections SecDef.ctrl a).foldl (fun l i => l.modify i SectionRec.lose) s.est.sections
      est.points := (served s.image.points PtDef.ctrl a).foldl (fun l i => l.modify i PointRec.lose) s.est.points
      est.signals := (served s.image.signals SigDef.ctrl a).foldl (fun l i => l.modify i fun r => { r with reported := .unknown })
        s.est.signals
      releaseDue := b }
      ∧ (b = true ↔ s.releaseDue = true ∨ ∃ k ∈ served s.image.points PtDef.ctrl a, (s.pt k).pos = .moving) := by
  let s2 := (s.modCtrl a fun c => { c with state := .lost }).each (served s.image.sections SecDef.ctrl a) fun t i => t.modSec i SectionRec.lose
  have h2 := each_modSec (s.modCtrl a fun c => { c with state := .lost }) (served s.image.sections SecDef.ctrl a) SectionRec.lose
  obtain ⟨b, h3, hb⟩ := each_losePoint s2 (nodup_served s.image.points PtDef.ctrl a)
  refine ⟨b, ?_, hb.trans (by rw [show s2 = _ from h2]; rfl)⟩
  unfold State.loseController
  simp only
  rw [each_modSig, h3, show s2 = _ from h2]
  rfl

/-- One controller. -/
theorem controllersLost_one (s : State) (a : Nat) : ControllersLost s (fun x => decide (x = a)) (s.loseController a) := by
  obtain ⟨b, he, hd⟩ := loseController_eq s a
  have hs : ∀ k, (k < s.image.sections.length ∧ decide ((s.secDef k).ctrl = a) = true) ↔ k ∈ served s.image.sections SecDef.ctrl a :=
    fun k => by rw [mem_served default, decide_eq_true_iff]; rfl
  have hp : ∀ k, (k < s.image.points.length ∧ decide ((s.ptDef k).ctrl = a) = true) ↔ k ∈ served s.image.points PtDef.ctrl a :=
    fun k => by rw [mem_served default, decide_eq_true_iff]; rfl
  have hg : ∀ k, (k < s.image.signals.length ∧ decide ((s.sigDef k).ctrl = a) = true) ↔ k ∈ served s.image.signals SigDef.ctrl a :=
    fun k => by rw [mem_served default, decide_eq_true_iff]; rfl
  refine ⟨?_, fun k => ?_, fun k => ?_, fun k => ?_, ?_, ?_, ?_, ?_, by rw [he]⟩
  · rw [he]; simp
  · simp only [hs]
    rw [he]
    exact getD_foldl_modify SectionRec.lose _ rfl (nodup_served _ _ _) _ k
  · simp only [hp]
    rw [he]
    exact getD_foldl_modify PointRec.lose _ rfl (nodup_served _ _ _) _ k
  · simp only [hg]
    rw [he]
    exact getD_foldl_modify (fun r : SignalRec => { r with reported := .unknown }) _ rfl (nodup_served _ _ _) _ k
  · simp only [← and_assoc, hp]
    rw [he]
    exact hd
  · rw [he]; simp
  · rw [he]; simp
  · rw [he]; simp

theorem ControllersLost.image {s t : State} {p : Nat → Bool} (h : ControllersLost s p t) : t.image = s.image := by
  rw [h.rest]; rfl

/-- None. -/
theorem ControllersLost.refl (s : State) : ControllersLost s (fun _ => false) s := by
  constructor <;> simp

/-- Some addresses, then others. -/
theorem ControllersLost.trans {s t u : State} {p q : Nat → Bool} (h : ControllersLost s p t) (k : ControllersLost t q u) :
    ControllersLost s (fun a => p a || q a) u := by
  have hi := h.image
  have hsec : t.secDef = s.secDef := by funext i; simp [State.secDef, hi]
  have hpt : t.ptDef = s.ptDef := by funext i; simp [State.ptDef, hi]
  have hsig : t.sigDef = s.sigDef := by funext i; simp [State.sigDef, hi]
  refine ⟨?_, fun i => ?_, fun i => ?_, fun i => ?_, ?_, k.sections.trans h.sections, k.points.trans h.points,
    k.signals.trans h.signals, k.rest.trans (by rw [h.rest])⟩
  · rw [k.ctrls, h.ctrls, List.map_map]
    refine List.map_congr_left fun c _ => ?_
    cases hp : p c.addr <;> cases hq : q c.addr <;> simp [hp, hq]
  · rw [k.sec, h.sec, hi, hsec]
    cases hp : p (s.secDef i).ctrl <;> cases hq : q (s.secDef i).ctrl <;> by_cases hl : i < s.image.sections.length <;>
      simp [hl, SectionRec.lose]
  · rw [k.pt, h.pt, hi, hpt]
    cases hp : p (s.ptDef i).ctrl <;> cases hq : q (s.ptDef i).ctrl <;> by_cases hl : i < s.image.points.length <;>
      simp [hl, PointRec.lose]
  · rw [k.sig, h.sig, hi, hsig]
    cases hp : p (s.sigDef i).ctrl <;> cases hq : q (s.sigDef i).ctrl <;> by_cases hl : i < s.image.signals.length <;>
      simp [hl]
  · rw [k.due, h.due, hi, hpt]
    simp only [h.pt, Bool.or_eq_true, or_assoc]
    refine or_congr_right ⟨?_, ?_⟩
    · rintro (⟨i, hl, hp, hm⟩ | ⟨i, hl, hq, hm⟩)
      · exact ⟨i, hl, .inl hp, hm⟩
      · refine ⟨i, hl, .inr hq, ?_⟩
        split at hm
        · simp [PointRec.lose] at hm
        · exact hm
    · rintro ⟨i, hl, hp, hm⟩
      by_cases hpi : p (s.ptDef i).ctrl = true
      · exact .inl ⟨i, hl, hpi, hm⟩
      · exact .inr ⟨i, hl, hp.resolve_left hpi, by rwa [if_neg fun h => hpi h.2]⟩

/-- A list of addresses in turn. -/
theorem controllersLost_each (s : State) (as : List Nat) :
    ControllersLost s (fun a => as.contains a) (s.each as fun t a => t.loseController a) := by
  suffices ∀ (t : State) (p : Nat → Bool), ControllersLost s p t →
      ControllersLost s (fun a => p a || as.contains a) (as.foldl (fun t a => t.loseController a) t) by
    simpa [State.each] using this s _ (ControllersLost.refl s)
  induction as with
  | nil => intro t p h; simpa using h
  | cons a as ih =>
    intro t p h
    have := ih _ _ (h.trans (controllersLost_one t a))
    refine cast (congrArg (fun f => ControllersLost s f _) (funext fun x => ?_)) this
    simp [Bool.or_assoc]

/-- The controllers still UNKNOWN, with all they serve (R52). -/
theorem unknownLost_loseUnknown (s : State) : UnknownLost s s.loseUnknown := by
  have h := controllersLost_each s ((s.flu.ctrls.filter fun c => c.state = .unknown).map Ctrl.addr)
  have hu : (fun a => ((s.flu.ctrls.filter fun c => c.state = .unknown).map Ctrl.addr).contains a) = s.unknownAt := by
    funext a
    rw [Bool.eq_iff_iff]
    simp only [State.unknownAt, List.contains_iff_mem, List.mem_map, List.mem_filter, List.any_eq_true, decide_eq_true_eq, and_assoc,
      and_comm]
  rw [hu] at h
  exact ⟨h.ctrls, h.sec, h.pt, h.sig, h.due, h.sections, h.points, h.signals, h.rest⟩

end Sys2Proof.Machine

/-! ### Links that go DISTURBED; the rows of the start-up and of the verify passes (R18 to R20, R145, R194 to R196) -/

namespace Sys2Proof.Machine

/-! #### Links that go DISTURBED (R145) -/

/-- A link record at the entry into DISTURBED. -/
def Link.disturbed (k : Link) : Link :=
  { k with state := .disturbed, lastSeq := none, seen := false, answered := false, nbPorts := none, timeoutMs := none }

theorem Port.leaveUp_eq_fallen (q : Port) : q.leaveUp = q.fallen := by
  unfold Port.leaveUp Port.fallen Port.unrequest
  by_cases h : q.view = .requesting <;> simp [h]

/-- Port `k` falls as its link, one of those `p` names, leaves UP. -/
def State.falls (s : State) (p : Nat → Bool) (k : Nat) : Prop :=
  k < s.image.ports.length ∧ p (s.portDef k).link = true ∧ (s.link (s.portDef k).link).state = .up

/-- `t` is `s` with the links that `p` names gone DISTURBED, and their ports with them where they were UP. -/
structure LinksDown (s : State) (p : Nat → Bool) (t : State) : Prop where
  link : ∀ l, t.link l = if p l = true ∧ l < s.bdu.links.length then (s.link l).disturbed else s.link l
  falls : ∀ k, s.falls p k → t.port k = (s.port k).fallen ∧ Ref.port k ∈ t.slu.noticeQ
  stays : ∀ k, ¬s.falls p k → t.port k = s.port k
  noted : ∀ l, p l = true → (s.link l).state = .up → Ref.link l ∈ t.slu.noticeQ
  noticeQ : s.slu.noticeQ <+: t.slu.noticeQ
  links : t.bdu.links.length = s.bdu.links.length
  ports : t.bdu.ports.length = s.bdu.ports.length
  rest : t = { s with bdu := t.bdu, slu.noticeQ := t.slu.noticeQ }

theorem mem_portsOf {s : State} {l p : Nat} : p ∈ s.portsOf l ↔ p < s.image.ports.length ∧ (s.portDef p).link = l := by
  simp [State.portsOf]

theorem nodup_portsOf (s : State) (l : Nat) : (s.portsOf l).Nodup := List.nodup_range.filter _

theorem portsOf_sorted (s : State) (l : Nat) : (s.portsOf l).Pairwise (· < ·) := List.pairwise_lt_range.filter _

/-- Ports that leave UP one after another, each enqueued. -/
theorem each_portLeaveUp (s : State) (ps : List Nat) :
    ∃ q, (s.each ps fun t p => (t.modPort p Port.leaveUp).note (.port p)) =
      { s with bdu.ports := ps.foldl (fun l i => l.modify i Port.leaveUp) s.bdu.ports, slu.noticeQ := q }
      ∧ s.slu.noticeQ <+: q ∧ ∀ p ∈ ps, Ref.port p ∈ q := by
  unfold State.each
  induction ps generalizing s with
  | nil => exact ⟨s.slu.noticeQ, rfl, List.prefix_rfl, by simp⟩
  | cons p ps ih =>
    obtain ⟨q, he, hp, hm⟩ := ih ((s.modPort p Port.leaveUp).note (.port p))
    refine ⟨q, ?_, (note_prefix (s.modPort p Port.leaveUp) (.port p)).trans hp, fun x hx => ?_⟩
    · rw [List.foldl_cons, he, note_eq]; rfl
    · rcases List.mem_cons.mp hx with rfl | hx
      · exact hp.subset (mem_note _ _)
      · exact hm x hx

/-- A link that leaves UP: its ports fall, the link and its ports are enqueued. -/
theorem leaveUp_up {s : State} {l : Nat} (h : (s.link l).state = .up) :
    ∃ q, s.leaveUp l =
      { s with bdu.ports := (s.portsOf l).foldl (fun l i => l.modify i Port.leaveUp) s.bdu.ports, slu.noticeQ := q }
      ∧ s.slu.noticeQ <+: q ∧ (∀ p ∈ s.portsOf l, Ref.port p ∈ q) ∧ Ref.link l ∈ q := by
  obtain ⟨q, he, hp, hm⟩ := each_portLeaveUp s (s.portsOf l)
  unfold State.leaveUp
  rw [if_neg (by simp [h]), he]
  generalize ht : ({ s with bdu.ports := _, slu.noticeQ := q } : State) = t
  have hq : t.slu.noticeQ = q := by rw [← ht]
  have hn := note_prefix t (.link l)
  rw [hq] at hn
  exact ⟨_, by rw [note_eq, ← ht], hp.trans hn, fun p hx => hn.subset (hm p hx), mem_note t (.link l)⟩

/-- One link. -/
theorem linksDown_one (s : State) (l : Nat) : LinksDown s (fun x => decide (x = l)) (s.disturb l) := by
  have hf : ∀ k, s.falls (fun x => decide (x = l)) k ↔ k ∈ s.portsOf l ∧ (s.link l).state = .up := fun k => by
    simp only [State.falls, mem_portsOf, decide_eq_true_eq, and_assoc]
    exact and_congr_right fun _ => and_congr_right fun h => by rw [h]
  have hl : ∀ t : State, t.bdu.links = s.bdu.links → ∀ j, (t.modLink l Link.disturbed).link j =
      if decide (j = l) = true ∧ j < s.bdu.links.length then (s.link j).disturbed else s.link j := fun t ht j => by
    rw [State.modLink_link_at, ht, show t.link j = s.link j by simp [State.link, ht]]
    simp only [decide_eq_true_eq, eq_comm (a := l)]
  by_cases h : (s.link l).state = .up
  · obtain ⟨q, he, hp, hm, hn⟩ := leaveUp_up h
    have hd : s.disturb l = (s.leaveUp l).modLink l Link.disturbed := rfl
    rw [he] at hd
    have hport : ∀ k, (s.disturb l).port k = if k ∈ s.portsOf l then (s.port k).leaveUp else s.port k := fun k => by
      rw [hd]; exact getD_foldl_modify Port.leaveUp Port.start rfl (nodup_portsOf s l) s.bdu.ports k
    have hq : (s.disturb l).slu.noticeQ = q := by rw [hd]; rfl
    refine ⟨fun j => by rw [hd]; exact hl _ rfl j, fun k hk => ?_, fun k hk => ?_, fun j hj _ => ?_, ?_, ?_, ?_, by rw [hd]; rfl⟩
    · obtain ⟨hk, -⟩ := (hf k).mp hk
      exact ⟨by rw [hport, if_pos hk, Port.leaveUp_eq_fallen], hq ▸ hm k hk⟩
    · rw [hport, if_neg fun hx => hk ((hf k).mpr ⟨hx, h⟩)]
    · rw [of_decide_eq_true hj, hq]; exact hn
    · rw [hq]; exact hp
    · rw [hd]; simp
    · rw [hd]; simp
  · have hd : s.disturb l = s.modLink l Link.disturbed := by
      show (s.leaveUp l).modLink l Link.disturbed = _
      rw [State.leaveUp, if_pos h]
    rw [hd]
    exact ⟨hl s rfl, fun k hk => absurd ((hf k).mp hk).2 h, fun k _ => rfl, fun j hj hu => absurd (of_decide_eq_true hj ▸ hu) h,
      List.prefix_rfl, by simp, rfl, rfl⟩

theorem LinksDown.refl (s : State) : LinksDown s (fun _ => false) s := by
  constructor <;> simp [State.falls]

/-- Some links, then others. -/
theorem LinksDown.trans {s t u : State} {p q : Nat → Bool} (h : LinksDown s p t) (k : LinksDown t q u) :
    LinksDown s (fun l => p l || q l) u := by
  have hi : t.image = s.image := by rw [h.rest]; rfl
  have hd : t.portDef = s.portDef := by funext i; simp [State.portDef, hi]
  have hup : ∀ l, (t.link l).state = .up ↔ p l = false ∧ (s.link l).state = .up := fun l => by
    rw [h.link]
    by_cases hl : l < s.bdu.links.length
    · cases hp : p l <;> simp [hl, Link.disturbed]
    · have : s.link l = Link.start := by simp [State.link, List.getD_eq_getElem?_getD, List.getElem?_eq_none (Nat.le_of_not_lt hl)]
      simp [hl, this, Link.start]
  have hf : ∀ j, t.falls q j ↔ s.falls q j ∧ ¬s.falls p j := fun j => by
    simp only [State.falls, hi, hd, hup]
    cases p (s.portDef j).link <;> simp +contextual
  have hor : ∀ j, s.falls (fun l => p l || q l) j ↔ s.falls p j ∨ s.falls q j := fun j => by
    simp only [State.falls, Bool.or_eq_true]
    tauto
  refine ⟨fun l => ?_, fun j hj => ?_, fun j hj => ?_, fun l hl hu => ?_, h.noticeQ.trans k.noticeQ, k.links.trans h.links,
    k.ports.trans h.ports, k.rest.trans (by rw [h.rest])⟩
  · rw [k.link, h.link, h.links]
    by_cases hl : l < s.bdu.links.length <;> cases hp : p l <;> cases hq : q l <;> simp [hl, Link.disturbed]
  · by_cases hp : s.falls p j
    · rw [k.stays j fun hx => ((hf j).mp hx).2 hp]
      exact ⟨(h.falls j hp).1, k.noticeQ.subset (h.falls j hp).2⟩
    · have hq : s.falls q j := ((hor j).mp hj).resolve_left hp
      rw [← h.stays j hp]
      exact k.falls j ((hf j).mpr ⟨hq, hp⟩)
  · rw [k.stays j fun hx => hj ((hor j).mpr (.inr ((hf j).mp hx).1)), h.stays j fun hx => hj ((hor j).mpr (.inl hx))]
  · cases hp : p l with
    | true => exact k.noticeQ.subset (h.noted l hp hu)
    | false => exact k.noted l (by simpa [hp] using hl) ((hup l).mpr ⟨hp, hu⟩)

/-- A list of links in turn. -/
theorem linksDown_each (s : State) (ls : List Nat) : LinksDown s (fun l => ls.contains l) (s.each ls fun t l => t.disturb l) := by
  suffices ∀ (t : State) (p : Nat → Bool), LinksDown s p t →
      LinksDown s (fun a => p a || ls.contains a) (ls.foldl (fun t a => t.disturb a) t) by
    simpa [State.each] using this s _ (LinksDown.refl s)
  induction ls with
  | nil => intro t p h; simpa using h
  | cons a ls ih =>
    intro t p h
    have := ih _ _ (h.trans (linksDown_one t a))
    refine cast (congrArg (fun f => LinksDown s f _) (funext fun x => ?_)) this
    simp [Bool.or_assoc]

/-! #### The entries into OPERATIONAL and HALTED -/

/-- The mode record plays no part in what an UNKNOWN controller takes with it. -/
theorem UnknownLost.withMdc {s t : State} {m : Mdc} (h : UnknownLost { s with mdc := m } t) : UnknownLost s { t with mdc := s.mdc } :=
  ⟨h.ctrls, h.sec, h.pt, h.sig, h.due, h.sections, h.points, h.signals, by rw [h.rest]⟩

/-- Nor in the entry into OPERATIONAL, but for power and cause. -/
theorem EntersOperational.withMdc {s b : State} {m : Mdc} (h : EntersOperational { s with mdc := m } b)
    (hp : m.power = s.mdc.power) (hc : m.cause = s.mdc.cause) : EntersOperational s b := by
  obtain ⟨u, hu, hb, hq, hr⟩ := h
  exact ⟨_, hu.withMdc, hb.trans (by simp only [hp, hc]), hq, hr⟩

theorem entersOperational (s : State) : EntersOperational s s.enterOperational := by
  have hu := unknownLost_loseUnknown s
  have hm := loseUnknown_mdc s
  generalize hv : ({ s.loseUnknown with
    mdc := s.loseUnknown.mdc.leaveStarting .operational none, sds.verifyMs := some 600000 } : State) = v
  have hb : s.enterOperational = v.each v.allRefs State.note := by rw [← hv]; rfl
  obtain ⟨he, hp, hr⟩ := each_note v v.allRefs
  rw [← hb] at he hp hr
  refine ⟨s.loseUnknown, hu, he.trans ?_, ?_, fun r hx => hr r ?_⟩
  · generalize s.enterOperational.slu.noticeQ = q
    rw [← hv, hm]; rfl
  · have : s.loseUnknown.slu = s.slu := by rw [hu.rest]
    rw [← this, show s.loseUnknown.slu = v.slu by rw [← hv]]; exact hp
  · have h1 : s.loseUnknown.bdu = s.bdu := by rw [hu.rest]
    have h2 : s.loseUnknown.rsu = s.rsu := by rw [hu.rest]
    rw [← hv]
    simpa only [State.allRefs, hu.sections, hu.points, hu.signals, h1, h2] using hx

theorem lt_of_equipped {s : State} {l : Nat} (h : s.equipped l = true) : l < s.bdu.links.length := by
  simp only [State.equipped, Bool.and_eq_true, decide_eq_true_eq] at h
  exact h.2

theorem entersHalted (s : State) (r : HaltReason) : EntersHalted s r (s.enterHalted r) := by
  have hu := unknownLost_loseUnknown s
  generalize hw : s.loseUnknown.stopSignals = w
  have hb : w.bdu = s.bdu := by rw [← hw, State.stopSignals, hu.rest]
  have hi : w.image = s.image := by rw [← hw, State.stopSignals, hu.rest]; rfl
  have hq : w.slu = s.slu := by rw [← hw, State.stopSignals, hu.rest]
  have hd : w.portDef = s.portDef := by funext k; simp [State.portDef, hi]
  have hlink : w.link = s.link := by funext k; simp [State.link, hb]
  have hport : w.port = s.port := by funext k; simp [State.port, hb]
  have he : w.equipped = s.equipped := by funext k; simp [State.equipped, State.linkDef, hb, hi]
  have down := linksDown_each w ((List.range w.bdu.links.length).filter w.equipped)
  have hp : ∀ l, ((List.range w.bdu.links.length).filter w.equipped).contains l = true ↔ s.equipped l = true := fun l => by
    rw [List.contains_iff_mem, List.mem_filter, List.mem_range, he, hb]
    exact ⟨And.right, fun h => ⟨lt_of_equipped h, h⟩⟩
  generalize hx : (w.each ((List.range w.bdu.links.length).filter w.equipped) fun t l => t.disturb l) = x at down
  have hh : s.enterHalted r = { x with mdc := x.mdc.leaveStarting .halted (some r), sds.verifyMs := none, sds.verifyPass := false } := by
    rw [← hx, ← hw]; rfl
  have hf : ∀ k, w.falls (fun l => ((List.range w.bdu.links.length).filter w.equipped).contains l) k ↔
      k < s.image.ports.length ∧ s.equipped (s.portDef k).link = true ∧ (s.link (s.portDef k).link).state = .up := fun k => by
    rw [State.falls, hp, hi, hd, hlink]
  refine ⟨s.loseUnknown, hu, ?_, ?_, ?_, fun l => ?_, ⟨fun k hk => ?_, fun k hk => ?_⟩, fun l hl hl' => ?_, ?_⟩
  · rw [hh, down.rest, ← hw]
    simp only [State.stopSignals, loseUnknown_mdc, loseUnknown_sds]
    rfl
  · rw [hh]; exact down.links.trans (by rw [hb])
  · rw [hh]; exact down.ports.trans (by rw [hb])
  · rw [hh]
    refine (down.link l).trans ?_
    rw [hlink]
    exact if_congr ⟨fun h => (hp l).mp h.1, fun h => ⟨(hp l).mpr h, hb.symm ▸ lt_of_equipped h⟩⟩ rfl rfl
  · rw [hh]; exact hport ▸ down.falls k ((hf k).mpr hk)
  · rw [hh]; exact hport ▸ down.stays k (mt (hf k).mp hk)
  · rw [hh]; exact down.noted l ((hp l).mpr hl) (hlink ▸ hl')
  · rw [hh]; exact hq ▸ down.noticeQ

/-! #### The rows of the start-up and of the verify passes -/

theorem crcMatches_iff {s : State} {a : Active} {crc : Crc32} (h : s.sds.active = some a) :
    s.crcMatches crc = true ↔ crc = a.crc := by
  simp [State.crcMatches, h, eq_comm]

theorem pollingComplete_iff (s : State) : s.pollingComplete = true ↔ ∀ x ∈ s.flu.ctrls, x.state ≠ .unknown := by
  simp [State.pollingComplete]

/-- An event of the part itself, while it runs. -/
theorem acted_of_act {s : State} {i : Instr} (f : State → State) (hp : s.mdc.power = .running)
    (hi : exec i s = .next (s.act f)) : Acted s i (f s) := by
  rw [Acted, hi, State.act, if_pos (by simp [State.running, hp])]

/-- Where the CRC has matched and nothing is left to wait for, the part enters OPERATIONAL. -/
theorem tryOperational_ready {s : State} (hm : s.mdc.mode = .starting) (hc : s.mdc.startCrc = .matched)
    (h : (∀ x ∈ s.flu.ctrls, x.state ≠ .unknown) ∨ s.mdc.startupExpired = true) : EntersOperational s s.tryOperational := by
  rw [State.tryOperational, if_pos ⟨hm, hc, by rw [Bool.or_eq_true, pollingComplete_iff]; exact h⟩]
  exact entersOperational s

theorem tryOperational_waits {s : State}
    (h : ¬(s.mdc.startCrc = .matched ∧ ((∀ x ∈ s.flu.ctrls, x.state ≠ .unknown) ∨ s.mdc.startupExpired = true))) :
    s.tryOperational = s := by
  rw [State.tryOperational, if_neg fun ⟨_, hc, hx⟩ => h ⟨hc, by rwa [Bool.or_eq_true, pollingComplete_iff] at hx⟩]

/-- Settles O19: the CRC of the active copy and the start-up timer, by what `tryOperational` asks; the entries into OPERATIONAL and
HALTED are `entersOperational` and `entersHalted`. -/
theorem startUpRows : Obligations.StartUpRows := by
  intro s a crc hp hm ha
  have crcEvent := acted_of_act (i := .startingCrcComplete crc) (fun t => t.startingCrc crc) hp rfl
  have timerEvent := acted_of_act (i := .startupTimerExpiry) State.startupExpiry hp rfl
  have match_eq : s.mdc.startCrc = .running → crc = a.crc → s.startingCrc crc =
      State.tryOperational { s with mdc.startCrc := .matched, sds.verifyCount := (s.sds.verifyCount + 1) % 65536 } := fun hc he => by
    rw [State.startingCrc, if_neg (by simp [hm, hc]), if_pos ((crcMatches_iff ha).mpr he)]; rfl
  have expiry_eq : s.mdc.startupMs.isSome → s.startupExpiry =
      State.tryOperational { s with mdc.startupMs := none, mdc.startupExpired := true } := fun h => by
    rw [State.startupExpiry, if_neg (by simpa [Option.isNone_iff_eq_none, Option.isSome_iff_ne_none] using h)]
  refine ⟨fun hc he => ⟨fun hx => ⟨_, crcEvent, ?_⟩, fun hx => ?_⟩, fun hc he => ⟨_, crcEvent, ?_⟩, fun hc => ?_,
    fun ht hc => ⟨_, timerEvent, ?_⟩, fun ht hc => ?_, fun ht => ?_⟩
  · rw [match_eq hc he]
    refine EntersOperational.withMdc (m := { s.mdc with startCrc := .matched }) (tryOperational_ready ?_ ?_ ?_) rfl rfl
    exacts [hm, rfl, hx]
  · have := crcEvent
    rwa [(match_eq hc he).trans (tryOperational_waits fun h => hx h.2)] at this
  · rw [State.startingCrc, if_neg (by simp [hm, hc]), if_neg (mt (crcMatches_iff ha).mp he)]
    exact entersHalted s _
  · have := crcEvent
    rwa [State.startingCrc, if_pos (.inr hc)] at this
  · rw [expiry_eq ht]
    refine EntersOperational.withMdc (m := { s.mdc with startupMs := none, startupExpired := true }) (tryOperational_ready ?_ ?_ ?_) rfl rfl
    exacts [hm, hc, .inr rfl]
  · have := timerEvent
    rwa [(expiry_eq ht).trans (tryOperational_waits fun h => hc h.1)] at this
  · have := timerEvent
    rwa [State.startupExpiry, if_pos (by simp [ht])] at this

/-- Settles O20: the verify timer and the pass it begins. -/
theorem verifyRows : Obligations.VerifyRows := by
  intro s a crc hp ha
  have timerEvent := acted_of_act (i := .verifyTimerExpiry) State.verifyExpiry hp rfl
  have passEvent := acted_of_act (i := .verifyPassComplete crc) (fun t => t.verifyEnd crc) hp rfl
  refine ⟨fun ht => ?_, fun hv he => ?_, fun hv he => ⟨_, passEvent, ?_⟩, fun ht => ?_, fun hv => ?_⟩
  · have := timerEvent
    rwa [State.verifyExpiry, if_neg (by simpa [Option.isNone_iff_eq_none, Option.isSome_iff_ne_none] using ht)] at this
  · have := passEvent
    rwa [State.verifyEnd, if_neg (by simp [hv]), if_pos ((crcMatches_iff ha).mpr he)] at this
  · rw [State.verifyEnd, if_neg (by simp [hv]), if_neg (mt (crcMatches_iff ha).mp he)]
    exact entersHalted s _
  · have := timerEvent
    rwa [State.verifyExpiry, if_pos (by simp [ht])] at this
  · have := passEvent
    rwa [State.verifyEnd, if_pos (by simp [hv])] at this

end Sys2Proof.Machine

/-! ### Commands answered in their own act: the load (R13, R14), RECLEAR and CANCEL_ROUTE (R75, R77), MOVE_POINT (R32),
ADD_RESTRICTION (R177), REQUEST_DIRECTION (R149) -/

namespace Sys2Proof.Machine

/-- A command that is neither EXECUTE nor a query nor a lasting one, by the answer its block gives. -/
theorem answered_of {s : State} (h : s.ready) {o : Originator} {tag : Nat} {c : Cmd} {b : State} {r : Res} {x : Content}
    (hc : cmdSized c = true) (hl : lastingCmd c = false) (hq : isQuery c = false) (hr : s.restartOf ⟨o, tag, c⟩ = none)
    (e : s.handOver o c = (b, r, x)) : ∃ t, Answered s (rowOf o tag c) (.reply tag (cmdCode c) o r x) b t := by
  have := answered_now h hc hl hq hr
  rwa [e] at this

/-! #### The load -/

/-- Settles O21: the length, then the mode; the emptied buffer lists no byte. -/
theorem loadBeginRow : Obligations.LoadBeginRow := by
  intro s o tag len h
  have ans {b : State} {r : Res} (e : s.cmdLoadBegin o len = (b, r, .none)) :=
    answered_of h (tag := tag) (c := .loadBegin len) rfl rfl rfl rfl e
  have inRange : (!(decide (1 ≤ len) && decide (len ≤ Config.imageBytes))) = true ↔ ¬(1 ≤ len ∧ len ≤ 65536) := by
    rw [Bool.not_eq_true', Bool.eq_false_iff, ne_eq, Bool.and_eq_true, decide_eq_true_eq, decide_eq_true_eq]; rfl
  refine ⟨fun hn => ans ?_, fun h1 h2 hu hh => ans ?_, fun h1 h2 hm => ?_⟩
  · rw [State.cmdLoadBegin, if_pos (inRange.mpr hn)]; rfl
  · rw [State.cmdLoadBegin, if_neg fun hx => inRange.mp hx ⟨h1, h2⟩, if_pos ⟨hu, hh⟩]; rfl
  · obtain ⟨t, ht⟩ := ans (b := { s with sds.load := ⟨.opened, len, some o, some s.mdc.mode, none⟩, sds.buffer := [], mdc.mode := .loading })
      (r := .done) (by
        rw [State.cmdLoadBegin, if_neg fun hx => inRange.mp hx ⟨h1, h2⟩, if_neg fun hx => hm.elim hx.1 hx.2])
    exact ⟨t, ht, fun a => by rw [ht.follows.sds]; rfl⟩

theorem mayLoad_iff {s : State} {o : Originator} : (!s.ownsLoad o || decide (s.sds.load.state = .closed)) = false ↔
    s.mdc.mode = .loading ∧ s.sds.load.owner = some o ∧ s.sds.load.state ≠ .closed := by
  rw [Bool.or_eq_false_iff, Bool.not_eq_false', ownsLoad_iff, decide_eq_false_iff_not, and_assoc]

/-- Settles O22: a wrong length as a frame with a fault, the refusals in their order, and the buffer read back. -/
theorem loadSegmentRow : Obligations.LoadSegmentRow := by
  intro s o tag offset bs h
  have ans (h1 : 1 ≤ bs.length) (h2 : bs.length ≤ 200) {b : State} {r : Res} (e : s.cmdLoadSegment o offset bs = (b, r, .none)) :=
    answered_of h (tag := tag) (c := .loadSegment offset bs) (decide_eq_true ⟨h1, h2⟩) rfl rfl rfl e
  refine ⟨fun hn => missized h (c := .loadSegment offset bs) (decide_eq_false (by omega)), fun h1 h2 hn => ans h1 h2 ?_,
    fun h1 h2 hm ho hc => ?_⟩
  · rw [State.cmdLoadSegment, if_pos (Bool.not_eq_false _ ▸ mt mayLoad_iff.mp hn)]; rfl
  · have may : ¬(!s.ownsLoad o || decide (s.sds.load.state = .closed)) = true := by
      rw [mayLoad_iff.mpr ⟨hm, ho, hc⟩]; exact Bool.false_ne_true
    refine ⟨fun hp => ans h1 h2 ?_, fun hp hw => ?_⟩
    · rw [State.cmdLoadSegment, if_neg may, if_pos hp]; rfl
    · obtain ⟨t, ht⟩ := ans h1 h2 (by rw [State.cmdLoadSegment, if_neg may, if_neg (Nat.not_lt.mpr hp)])
      refine ⟨_, t, ht, fun k hk => ?_, fun a ha => ?_⟩
      · rw [Memory.read_writeAll hw, if_pos ⟨by omega, by omega⟩, Nat.add_sub_cancel_left]
      · rw [Memory.read_writeAll hw, if_neg (by omega)]

/-! #### RECLEAR and CANCEL_ROUTE -/

theorem routeInRange_iff {n : Nat} : routeInRange n = true ↔ 1 ≤ n ∧ n ≤ 512 := decide_eq_true_iff

theorem liveSlot_some {s : State} {n i : Nat} (h : s.liveSlot n = some i) :
    i < s.rsu.slots.length ∧ s.live i = true ∧ (s.slot i).route = some n := by
  have hm := List.mem_of_find?_eq_some h
  have hp := List.find?_some h
  simp only [Bool.and_eq_true, decide_eq_true_eq] at hp
  exact ⟨List.mem_range.mp hm, hp⟩

theorem slotRoute_of_liveSlot {s : State} {n i : Nat} {d : RouteDef} (h : s.liveSlot n = some i) (hd : s.routeDef? n = some d) :
    s.slotRoute i = d := by
  rw [State.slotRoute, (liveSlot_some h).2.2]
  simp [hd]

/-- The checks RECLEAR and CANCEL_ROUTE share, each under its condition and none before. -/
theorem routeRefusal_cases (s : State) (o : Originator) (route : Nat) :
    (¬(1 ≤ route ∧ route ≤ 512) → s.routeRefusal o route = some .badParameter)
    ∧ (1 ≤ route → route ≤ 512 →
      (s.operational = false → s.routeRefusal o route = some .notOperational)
      ∧ (s.operational = true → s.routeDef? route = none → s.routeRefusal o route = some .unknown)
      ∧ ∀ d, s.operational = true → s.routeDef? route = some d →
        (s.holds o (s.sigDef d.entry).area = false → s.routeRefusal o route = some .notInControl)
        ∧ (s.holds o (s.sigDef d.entry).area = true → s.routeRefusal o route = none)) := by
  unfold State.routeRefusal
  refine ⟨fun hn => if_pos (by rw [Bool.not_eq_true', Bool.eq_false_iff]; exact mt routeInRange_iff.mp hn), fun h1 h2 => ?_⟩
  rw [if_neg (by simp [routeInRange_iff, h1, h2])]
  refine ⟨fun ho => if_pos (by simp [ho]), fun ho hd => ?_, fun d ho hd => ⟨fun hh => ?_, fun hh => ?_⟩⟩
  · rw [if_neg (by simp [ho]), hd]
  · rw [if_neg (by simp [ho]), hd]; exact if_neg (by simp [State.routeArea, hh])
  · rw [if_neg (by simp [ho]), hd]; exact if_pos hh

theorem clearAspect_eq (k : Option RouteKind) : clearAspect k = if k = some .shunt then .restricted else .proceed := by
  cases k with
  | none => rfl
  | some k => cases k <;> rfl

/-- A slot changed in other fields keeps its route. -/
theorem slotRoute_modSlot (s : State) (i j : Nat) {f : Slot → Slot} (hf : ∀ k, (f k).route = k.route) :
    (s.modSlot i f).slotRoute j = s.slotRoute j := by
  have hr : ((s.modSlot i f).slot j).route = (s.slot j).route := by
    rw [State.modSlot_slot_at]; split
    · exact hf _
    · rfl
  unfold State.slotRoute
  rw [hr]; rfl

theorem pendingOf_modSlot (s : State) (i j : Nat) {f : Slot → Slot} (hf : ∀ k, (f k).route = k.route)
    (hc : ∀ k, (f k).claims = k.claims) : (s.modSlot i f).pendingOf j = s.pendingOf j := by
  have hr : ((s.modSlot i f).slot j).claims = (s.slot j).claims := by
    rw [State.modSlot_slot_at]; split
    · exact hc _
    · rfl
  unfold State.pendingOf
  rw [slotRoute_modSlot s i j hf, hr]; rfl

/-- What RECLEAR makes of a HELD slot without causes. -/
theorem cmdReclear_clears {s : State} {o : Originator} {route i : Nat} {d : RouteDef} (hr : s.routeRefusal o route = none)
    (hd : s.routeDef? route = some d) (hi : s.liveSlot route = some i) (hs : (s.slot i).state = .held)
    (hh : (s.slot i).holds = Holds.empty) : s.cmdReclear o route = ({ s with
      rsu.slots := s.rsu.slots.modify i fun k =>
        { k with state := .clearing, figures := some (s.figuresOf d), timerMs := some (s.settingTimeout * 1000), pendingPts := s.pendingOf i }
      est.signals := s.est.signals.modify d.entry fun r =>
        { r with commanded := if (s.slot i).kind = some .shunt then .restricted else .proceed } }, .done, .none) := by
  obtain ⟨hlt, -, -⟩ := liveSlot_some hi
  have hsr := slotRoute_of_liveSlot hi hd
  simp only [State.cmdReclear, hr, hi]
  rw [if_neg (not_not.mpr hs), if_neg (not_not.mpr hh)]
  have hp : ((s.setClearing i).modSlot i fun k => { k with timerMs := some (s.settingTimeout * 1000) }).pendingOf i = s.pendingOf i := by
    refine Eq.trans (pendingOf_modSlot _ i i ?_ ?_) (pendingOf_modSlot s i i ?_ ?_) <;> exact fun _ => rfl
  simp only [State.refreshPending, hp]
  simp only [State.setClearing, hsr, clearAspect_eq, State.modSlot, State.setAspect, State.modSig, List.modify_modify_eq]
  rfl

/-- Settles O27: the checks shared with CANCEL_ROUTE, then the slot's state and its hold causes. -/
theorem reclearRow : Obligations.ReclearRow := by
  intro s o tag route h
  have ans {b : State} {r : Res} (e : s.cmdReclear o route = (b, r, .none)) :=
    answered_of h (tag := tag) (c := .reclear route) rfl rfl rfl rfl e
  have refused {r : Res} (e : s.routeRefusal o route = some r) : s.cmdReclear o route = (s, r, .none) := by
    simp only [State.cmdReclear, e, State.refuse]
  obtain ⟨hbad, hin⟩ := routeRefusal_cases s o route
  refine ⟨fun hn => ans (refused (hbad hn)), fun h1 h2 => ?_⟩
  obtain ⟨hop, hdef, harea⟩ := hin h1 h2
  refine ⟨fun ho => ans (refused (hop ho)), fun ho hd => ans (refused (hdef ho hd)), fun d ho hd => ?_⟩
  obtain ⟨hno, hyes⟩ := harea d ho hd
  refine ⟨fun hh => ans (refused (hno hh)), fun hh => ⟨fun hl => ans ?_, fun i hi => ⟨fun hs => ans ?_, fun hs hc => ans ?_, fun hs hc => ?_⟩⟩⟩
  · simp only [State.cmdReclear, hyes hh, hl, State.refuse]
  · simp only [State.cmdReclear, hyes hh, hi]
    rw [if_pos hs]; rfl
  · simp only [State.cmdReclear, hyes hh, hi]
    rw [if_neg (not_not.mpr hs), if_pos hc]; rfl
  · exact ans (cmdReclear_clears (hyes hh) hd hi hs hc)

/-- The end leaves the slot FREE, with the end reason. -/
theorem endSlot_slot {s : State} {i : Nat} (h : i < s.rsu.slots.length) (r : EndReason) :
    ((s.endSlot i r).slot i).state = .free ∧ ((s.endSlot i r).slot i).reason = r := by
  unfold State.endSlot
  dsimp only
  have hh := ((((Handed.stopEntry s i).trans (Handed.freeLocks _ i)).trans (Handed.dropAll _ (s.slot i).claims)).trans
    (Handed.each _ (s.slot i).remote (fun t q => t.withdraw i q) fun t q => Handed.withdraw t i q))
  generalize (((s.stopEntry i).freeLocks i).each (s.slot i).claims fun t c => t.dropCount c.what).each (s.slot i).remote
    (fun t q => t.withdraw i q) = w at hh
  have hw : (w.modSlot i fun x => x.ended r).slot i = (w.slot i).ended r := by
    rw [State.modSlot_slot_at, if_pos ⟨rfl, hh.slots ▸ h⟩]
  have hc : ∀ (t : State) (p : Nat), (t.settleConflict p).slot i = t.slot i := fun t p => by
    unfold State.settleConflict; split <;> rfl
  have key : ∀ t : State, t.slot i = (w.slot i).ended r → (t.slot i).state = .free ∧ (t.slot i).reason = r := fun t ht => by
    rw [ht]; exact ⟨rfl, rfl⟩
  split
  · exact key _ ((hc _ _).trans hw)
  · exact key _ hw

theorem stopEntry_approachOccupied (s : State) (i : Nat) : (s.stopEntry i).approachOccupied i = s.approachOccupied i := by
  unfold State.stopEntry
  dsimp only
  split <;> rfl

theorem stopEntry_slots (s : State) (i : Nat) : (s.stopEntry i).rsu = s.rsu := by
  unfold State.stopEntry
  dsimp only
  split <;> rfl

/-- What the reply to CANCEL_ROUTE says of a cleared route that was cancelled. -/
theorem slotContent_cancelCleared {s : State} {i : Nat} (h : i < s.rsu.slots.length) : (s.cancelCleared i).slotContent i =
    if s.approachOccupied i then .slotState i .approachLocked else .slotEnded i .cancelled := by
  have hl : i < (s.stopEntry i).rsu.slots.length := by rw [stopEntry_slots]; exact h
  unfold State.cancelCleared
  dsimp only
  rw [stopEntry_approachOccupied]
  by_cases ha : s.approachOccupied i = true
  · simp [ha, State.slotContent, State.live, State.modSlot_slot_at, hl]
  · obtain ⟨hf, hr⟩ := endSlot_slot hl .cancelled
    simp [ha, State.slotContent, State.live, hf, hr]

theorem slotContent_endSlot {s : State} {i : Nat} (h : i < s.rsu.slots.length) (r : EndReason) :
    (s.endSlot i r).slotContent i = .slotEnded i r := by
  obtain ⟨hf, hr⟩ := endSlot_slot h r
  simp [State.slotContent, State.live, hf, hr]

/-- Settles O28: the checks shared with RECLEAR, then what the slot's state or the store allows. -/
theorem cancelRouteRow : Obligations.CancelRouteRow := by
  intro s o tag route h
  have ans {b : State} {r : Res} {x : Content} (e : s.cmdCancelRoute o route = (b, r, x)) :=
    answered_of h (tag := tag) (c := .cancelRoute route) rfl rfl rfl rfl e
  have refused {r : Res} (e : s.routeRefusal o route = some r) : s.cmdCancelRoute o route = (s, r, .none) := by
    simp only [State.cmdCancelRoute, e, State.refuse]
  obtain ⟨hbad, hin⟩ := routeRefusal_cases s o route
  refine ⟨fun hn => ans (refused (hbad hn)), fun h1 h2 => ?_⟩
  obtain ⟨hop, hdef, harea⟩ := hin h1 h2
  refine ⟨fun ho => ans (refused (hop ho)), fun ho hd => ans (refused (hdef ho hd)), fun d ho hd => ?_⟩
  obtain ⟨hno, hyes⟩ := harea d ho hd
  refine ⟨fun hh => ans (refused (hno hh)), fun hh => ⟨fun k hk => ?_, fun hl he => ans ?_, fun hl he => ans ?_⟩⟩
  · obtain ⟨hlt, -, -⟩ := liveSlot_some hk
    have live : s.cmdCancelRoute o route = s.cancelLive k := by simp only [State.cmdCancelRoute, hyes hh, hk]
    refine ⟨fun hs => ans ?_, fun hs => ans ?_, fun hs => ans ?_, fun hs => ans ?_⟩ <;> rw [live, State.cancelLive]
    · rw [hs, ← slotContent_endSlot hlt]
    · rw [← slotContent_cancelCleared hlt]
      rcases hs with hs | hs | hs <;> rw [hs]
    · rcases hs with hs | hs <;> rw [hs] <;> rfl
    · rcases hs with hs | hs <;> rw [hs] <;> rfl
  · simp only [State.cmdCancelRoute, hyes hh, hl]
    rw [if_pos (by simpa using he)]; rfl
  · simp only [State.cmdCancelRoute, hyes hh, hl]
    rw [if_neg (by simpa using he)]; rfl

/-! #### MOVE_POINT -/

theorem readPos_code (p : Pos) : readPos p.code = some p := by cases p <;> rfl

theorem readPos_eq_none {n : Nat} (h : 1 < n) : readPos n = none := List.getElem?_eq_none h

theorem heldElsewhere_iff {r : PointRec} {p : Pos} : r.heldElsewhere p = true ↔
    (r.owner ≠ none ∧ r.lockedPos ≠ some p) ∨ (r.claims ≠ 0 ∧ r.claimPos ≠ some p) := by
  simp [PointRec.heldElsewhere, Option.isSome_iff_ne_none]

theorem Pos.rest_ne_lost (p : Pos) : p.rest ≠ .lost := by cases p <;> decide
theorem Pos.other_rest_ne (p : Pos) : p.other.rest ≠ p.rest := by cases p <;> decide

/-- Settles O34: the checks before the element, then those of `moveRefusal` in their order. -/
theorem movePointRow : Obligations.MovePointRow := by
  intro s o tag i code h
  have ans {b : State} {r : Res} (e : s.cmdMovePoint o i code = (b, r, .none)) :=
    answered_of h (tag := tag) (c := .movePoint i code) rfl rfl rfl rfl e
  refine ⟨fun hn => ans ?_, ?_⟩
  · unfold State.cmdMovePoint
    split
    · rfl
    · rename_i p hp
      refine if_pos (hn.resolve_left fun hc => ?_)
      rw [readPos_eq_none hc] at hp; cases hp
  rintro p rfl hi
  have hi' : ¬Config.maxPoints ≤ i := Nat.not_le.mpr hi
  refine ⟨fun hu => ans ?_, fun hd => ?_⟩
  · simp only [State.cmdMovePoint, readPos_code]
    rw [if_neg hi', if_pos (by simpa [State.defined] using hu)]; rfl
  have def' : ¬(!s.defined ⟨.point, i⟩) = true := by simpa [State.defined] using hd
  refine ⟨fun hh => ans ?_, fun hh => ?_⟩
  · simp only [State.cmdMovePoint, readPos_code]
    rw [if_neg hi', if_neg def', if_pos (by simp [hh])]; rfl
  have refused {r : Res} (e : s.moveRefusal i p = some r) := ans (b := s) (r := r) (by
    simp only [State.cmdMovePoint, readPos_code, e]
    rw [if_neg hi', if_neg def', if_neg (by simp [hh])]; rfl)
  refine ⟨fun ho => refused (if_pos (by simp [ho])), fun ho => ?_⟩
  have op : ¬(!s.operational) = true := by simp [ho]
  refine ⟨fun hm => refused ?_, fun hr => refused ?_, fun hl => ?_⟩
  · rw [State.moveRefusal, if_neg op, if_pos hm]
  · rw [State.moveRefusal, if_neg op, if_neg (hr ▸ p.rest_ne_moving), if_pos (show s.atRest i p = true from decide_eq_true hr)]
  have hm : ¬(s.pt i).pos = .moving := by
    rcases hl with hl | hl <;> rw [hl]
    · decide
    · exact p.other.rest_ne_moving
  have hr : ¬s.atRest i p = true := by
    rw [State.atRest, decide_eq_true_eq]
    rcases hl with hl | hl <;> rw [hl]
    · exact p.rest_ne_lost.symm
    · exact p.other_rest_ne
  refine ⟨fun hb => refused ?_, fun hb ha => refused ?_, fun hb ha hc => refused ?_, fun hb ha hc => ans ?_⟩
  · rw [State.moveRefusal, if_neg op, if_neg hm, if_neg hr, if_pos hb]
  · rw [State.moveRefusal, if_neg op, if_neg hm, if_neg hr, if_neg (by simp [hb]), if_pos (heldElsewhere_iff.mpr ha)]
  · rw [State.moveRefusal, if_neg op, if_neg hm, if_neg hr, if_neg (by simp [hb]), if_neg (mt heldElsewhere_iff.mp ha),
      if_pos (by simpa [State.secClear] using hc)]
  · have free : s.moveRefusal i p = none := by
      rw [State.moveRefusal, if_neg op, if_neg hm, if_neg hr, if_neg (by simp [hb]), if_neg (mt heldElsewhere_iff.mp ha),
        if_neg (by simpa [State.secClear] using hc)]
    simp only [State.cmdMovePoint, readPos_code, free]
    rw [if_neg hi', if_neg def', if_neg (by simp [hh])]; rfl

/-! #### ADD_RESTRICTION -/

/-- Where a write leaves no unlisted value, what it leaves is read with no need of the canonical form. -/
theorem Sparse.get_set_listed {α : Type} [DecidableEq α] {d v : α} (hv : v ≠ d) (l : List (Nat × α)) (i j : Nat) :
    Sparse.get d (Sparse.set d l i v) j = if i = j then v else Sparse.get d l j := by
  induction l with
  | nil => simp [Sparse.set, hv, Sparse.get]
  | cons x l ih =>
    obtain ⟨a, w⟩ := x
    unfold Sparse.set
    by_cases h1 : i < a
    · simp [h1, hv, Sparse.get]
    · by_cases h2 : i = a
      · simp [h2, hv, Sparse.get]
        split <;> simp_all
      · simp only [h1, h2, if_false, Sparse.get, ih]
        split <;> split <;> simp_all

/-- The restriction a code names on a section, a point or a signal (R38). -/
def secRestriction (idx code value : Nat) : Restriction := if code = 0 then .secNoRoute idx else .speed idx value
def ptRestriction (idx code : Nat) : Restriction :=
  if code = 0 then .ptNoRoute idx else if code = 2 then .noMove idx else .noFlankMove idx
def sigRestriction (idx code : Nat) : Restriction := if code = 0 then .sigNoRoute idx else .noClear idx

theorem readElem_of_lt {c i : Nat} {k : Cls} (h : readCls c = some k) (hi : i < classBound k) : readElem c i = some ⟨k, i⟩ := by
  simp [readElem, h, below, hi]

theorem readElem_of_le {c i : Nat} {k : Cls} (h : readCls c = some k) (hi : classBound k ≤ i) : readElem c i = none := by
  simp [readElem, h, below, Nat.not_lt.mpr hi]

theorem readRestriction_sec {idx code value : Nat} (hi : idx < 240) (hc : code = 0 ∨ (code = 1 ∧ value ≤ 250)) :
    readRestriction 0 idx code value = some (secRestriction idx code value) := by
  rw [readRestriction, readElem_of_lt (k := .sect) rfl hi]
  rcases hc with rfl | ⟨rfl, hv⟩
  · rfl
  · exact if_pos hv

theorem readRestriction_pt {idx code : Nat} (value : Nat) (hi : idx < 96) (hc : code = 0 ∨ code = 2 ∨ code = 3) :
    readRestriction 1 idx code value = some (ptRestriction idx code) := by
  rw [readRestriction, readElem_of_lt (k := .point) rfl hi]
  rcases hc with rfl | rfl | rfl <;> rfl

theorem readRestriction_sig {idx code : Nat} (value : Nat) (hi : idx < 160) (hc : code = 0 ∨ code = 4) :
    readRestriction 2 idx code value = some (sigRestriction idx code) := by
  rw [readRestriction, readElem_of_lt (k := .signal) rfl hi]
  rcases hc with rfl | rfl <;> rfl

theorem readRestriction_none {cls idx code value : Nat} (h : ¬((cls = 0 ∧ idx < 240 ∧ (code = 0 ∨ (code = 1 ∧ value ≤ 250)))
    ∨ (cls = 1 ∧ idx < 96 ∧ (code = 0 ∨ code = 2 ∨ code = 3)) ∨ (cls = 2 ∧ idx < 160 ∧ (code = 0 ∨ code = 4)))) :
    readRestriction cls idx code value = none := by
  unfold readRestriction
  match cls with
  | 0 =>
    by_cases hi : idx < 240
    · rw [readElem_of_lt (k := .sect) rfl hi]
      match code with
      | 0 => exact absurd (.inl ⟨rfl, hi, .inl rfl⟩) h
      | 1 => exact if_neg fun hv => h (.inl ⟨rfl, hi, .inr ⟨rfl, hv⟩⟩)
      | n + 2 => rfl
    · rw [readElem_of_le (k := .sect) rfl (Nat.not_lt.mp hi)]
  | 1 =>
    by_cases hi : idx < 96
    · rw [readElem_of_lt (k := .point) rfl hi]
      match code with
      | 0 => exact absurd (.inr (.inl ⟨rfl, hi, .inl rfl⟩)) h
      | 1 => rfl
      | 2 => exact absurd (.inr (.inl ⟨rfl, hi, .inr (.inl rfl)⟩)) h
      | 3 => exact absurd (.inr (.inl ⟨rfl, hi, .inr (.inr rfl)⟩)) h
      | n + 4 => rfl
    · rw [readElem_of_le (k := .point) rfl (Nat.not_lt.mp hi)]
  | 2 =>
    by_cases hi : idx < 160
    · rw [readElem_of_lt (k := .signal) rfl hi]
      match code with
      | 0 => exact absurd (.inr (.inr ⟨rfl, hi, .inl rfl⟩)) h
      | 1 | 2 | 3 => rfl
      | 4 => exact absurd (.inr (.inr ⟨rfl, hi, .inr rfl⟩)) h
      | n + 5 => rfl
    · rw [readElem_of_le (k := .signal) rfl (Nat.not_lt.mp hi)]
  | n + 3 => rfl

theorem addRestriction_pt {idx code : Nat} (s : State) (hc : code = 0 ∨ code = 2 ∨ code = 3) :
    ∃ v, s.addRestriction (ptRestriction idx code) = s.setPtRestr idx v ∧ v ≠ PtRestr.empty
      ∧ v = { s.ptRestr idx with
          noRoute := (s.ptRestr idx).noRoute || decide (code = 0)
          noMove := (s.ptRestr idx).noMove || decide (code = 2)
          noFlankMove := (s.ptRestr idx).noFlankMove || decide (code = 3) } := by
  rcases hc with rfl | rfl | rfl <;> exact ⟨_, rfl, by simp [PtRestr.empty], by simp⟩

theorem addRestriction_sig {idx code : Nat} (s : State) (hc : code = 0 ∨ code = 4) :
    ∃ v, s.addRestriction (sigRestriction idx code) = s.setSigRestr idx v ∧ v ≠ SigRestr.empty
      ∧ v = { s.sigRestr idx with
          noRoute := (s.sigRestr idx).noRoute || decide (code = 0)
          noClear := (s.sigRestr idx).noClear || decide (code = 4) } := by
  rcases hc with rfl | rfl <;> exact ⟨_, rfl, by simp [SigRestr.empty], by simp⟩

theorem startingOrOperational_iff {s : State} :
    s.startingOrOperational = true ↔ s.mdc.mode = .starting ∨ s.mdc.mode = .operational := by
  simp [State.startingOrOperational, State.operational]

/-- The checks of a restriction that reads, each under its condition and none before. -/
theorem cmdAddRestriction_cases {s : State} {o : Originator} {cls idx code value : Nat} {x : Restriction}
    (hx : readRestriction cls idx code value = some x) :
    (s.startingOrOperational = false → s.cmdAddRestriction o cls idx code value = (s, .notOperational, .none))
    ∧ (s.startingOrOperational = true →
      (s.defined x.elem = false → s.cmdAddRestriction o cls idx code value = (s, .unknown, .none))
      ∧ (s.defined x.elem = true →
        (s.holds o (s.areaOf x.elem) = false → s.cmdAddRestriction o cls idx code value = (s, .notInControl, .none))
        ∧ (s.holds o (s.areaOf x.elem) = true → s.cmdAddRestriction o cls idx code value = (s.addRestriction x, .done, .none)))) := by
  simp only [State.cmdAddRestriction, hx, State.restrictionRefusal]
  refine ⟨fun h => ?_, fun h => ⟨fun hd => ?_, fun hd => ⟨fun hh => ?_, fun hh => ?_⟩⟩⟩
  · simp [h, State.refuse]
  · simp [h, hd, State.refuse]
  · simp [h, hd, hh, State.refuse]
  · simp [h, hd, hh]

/-- Settles O35: the restriction's reading, its checks, and what the element's set reads as after the write. -/
theorem addRestrictionRow : Obligations.AddRestrictionRow := by
  intro s o tag cls idx code value h
  have ans {b : State} {r : Res} (e : s.cmdAddRestriction o cls idx code value = (b, r, .none)) :=
    answered_of h (tag := tag) (c := .addRestriction cls idx code value) rfl rfl rfl rfl e
  refine ⟨fun hn => ans ?_, fun hok hm => ans ?_, fun hok hm => ?_, fun hok hm => ?_, fun hok hm => ?_⟩
  · simp only [State.cmdAddRestriction, readRestriction_none hn, State.refuse]
  · have hm' : s.startingOrOperational = false := Bool.eq_false_iff.mpr (mt startingOrOperational_iff.mp hm)
    rcases hok with ⟨rfl, hi, hc⟩ | ⟨rfl, hi, hc⟩ | ⟨rfl, hi, hc⟩
    · exact (cmdAddRestriction_cases (readRestriction_sec hi hc)).1 hm'
    · exact (cmdAddRestriction_cases (readRestriction_pt value hi hc)).1 hm'
    · exact (cmdAddRestriction_cases (readRestriction_sig value hi hc)).1 hm'
  all_goals
    obtain ⟨rfl, hi, hc⟩ := hok
    have hm' := startingOrOperational_iff.mpr hm
  · have hx : (secRestriction idx code value).elem = ⟨.sect, idx⟩ := by unfold secRestriction; split <;> rfl
    obtain ⟨hu, hk⟩ := (cmdAddRestriction_cases (s := s) (o := o) (readRestriction_sec hi hc)).2 hm'
    rw [hx] at hu hk
    refine ⟨fun hd => ans (hu (decide_eq_false (Nat.not_lt.mpr hd))), fun hd hh => ans ((hk (decide_eq_true hd)).1 hh), fun hd hh => ?_⟩
    have done := (hk (decide_eq_true hd)).2 hh
    rcases hc with rfl | ⟨rfl, -⟩ <;> obtain ⟨t, ht⟩ := ans done
    · have hv : { s.secRestr idx with noRoute := true } ≠ SecRestr.empty := by simp [SecRestr.empty]
      refine ⟨_, t, ht, fun j hj => ?_, fun _ => ?_, fun hf => absurd hf (by decide)⟩
      · rw [Sparse.get_set_listed hv, if_neg (Ne.symm hj)]; rfl
      · rw [Sparse.get_set_listed hv, if_pos rfl]
    · have hv : { s.secRestr idx with speed := some (lowerSpeed (s.secRestr idx).speed value) } ≠ SecRestr.empty := by simp [SecRestr.empty]
      refine ⟨_, t, ht, fun j hj => ?_, fun hf => absurd hf (by decide), fun _ => ?_⟩
      · rw [Sparse.get_set_listed hv, if_neg (Ne.symm hj)]; rfl
      · rw [Sparse.get_set_listed hv, if_pos rfl]; rfl
  · have hx : (ptRestriction idx code).elem = ⟨.point, idx⟩ := by rcases hc with rfl | rfl | rfl <;> rfl
    obtain ⟨hu, hk⟩ := (cmdAddRestriction_cases (s := s) (o := o) (readRestriction_pt value hi hc)).2 hm'
    rw [hx] at hu hk
    refine ⟨fun hd => ans (hu (decide_eq_false (Nat.not_lt.mpr hd))), fun hd hh => ans ((hk (decide_eq_true hd)).1 hh), fun hd hh => ?_⟩
    obtain ⟨v, e, hv, hw⟩ := addRestriction_pt (idx := idx) s hc
    obtain ⟨t, ht⟩ := ans ((hk (decide_eq_true hd)).2 hh)
    rw [e] at ht
    refine ⟨_, t, ht, fun j hj => ?_, ?_⟩
    · rw [Sparse.get_set_listed hv, if_neg (Ne.symm hj)]; rfl
    · rw [Sparse.get_set_listed hv, if_pos rfl, hw]
  · have hx : (sigRestriction idx code).elem = ⟨.signal, idx⟩ := by unfold sigRestriction; split <;> rfl
    obtain ⟨hu, hk⟩ := (cmdAddRestriction_cases (s := s) (o := o) (readRestriction_sig value hi hc)).2 hm'
    rw [hx] at hu hk
    refine ⟨fun hd => ans (hu (decide_eq_false (Nat.not_lt.mpr hd))), fun hd hh => ans ((hk (decide_eq_true hd)).1 hh), fun hd hh => ?_⟩
    obtain ⟨v, e, hv, hw⟩ := addRestriction_sig (idx := idx) s hc
    obtain ⟨t, ht⟩ := ans ((hk (decide_eq_true hd)).2 hh)
    rw [e] at ht
    refine ⟨_, t, ht, fun j hj => ?_, ?_⟩
    · rw [Sparse.get_set_listed hv, if_neg (Ne.symm hj)]; rfl
    · rw [Sparse.get_set_listed hv, if_pos rfl, hw]

end Sys2Proof.Machine

/-! ### REQUEST_DIRECTION and the direction protocol (R148 to R151) -/

namespace Sys2Proof.Machine

theorem incGranted_iff {q : Port} : q.incGranted = true ↔ q.inc = .waiting ∨ q.inc = .receiving ∨ q.inc = .completed := by
  unfold Port.incGranted
  cases q.inc <;> simp

/-- The checks of a port that every command on it shares, each under its condition and none before. -/
theorem portRefusal_cases (s : State) (o : Originator) (p : Nat) :
    (8 ≤ p → s.portRefusal o p = some .badParameter)
    ∧ (p < 8 → s.bdu.ports.length ≤ p → s.portRefusal o p = some .unknown)
    ∧ (p < 8 → p < s.bdu.ports.length →
      (s.holds o (s.secDef (s.portDef p).sec).area = false → s.portRefusal o p = some .notInControl)
      ∧ (s.holds o (s.secDef (s.portDef p).sec).area = true → s.portRefusal o p = none)) := by
  unfold State.portRefusal
  refine ⟨fun h => if_pos h, fun h hp => ?_, fun h hp => ?_⟩
  · rw [if_neg (show ¬Config.maxPorts ≤ p from Nat.not_le.mpr h), if_pos hp]
  · rw [if_neg (show ¬Config.maxPorts ≤ p from Nat.not_le.mpr h), if_neg (Nat.not_le.mpr hp)]
    exact ⟨fun hh => if_neg (by simp [hh]), fun hh => if_pos hh⟩

theorem linkUp_iff {s : State} {l : Nat} : s.linkUp l = true ↔ (s.link l).state = .up := decide_eq_true_iff

theorem secClear_iff {s : State} {k : Nat} : s.secClear k = true ↔ (s.sec k).occ = .clear := decide_eq_true_iff

theorem exitTargets_iff {s : State} {p : Nat} : s.exitTargets p = true ↔
    ∃ i, s.live i = true ∧ (s.slot i).kind = some .exit ∧ (s.slotRoute i).exit = p := by
  simp only [State.exitTargets, List.any_eq_true, List.mem_range, Bool.and_eq_true, decide_eq_true_eq, and_assoc]
  refine ⟨fun ⟨i, _, h⟩ => ⟨i, h⟩, fun ⟨i, hl, h⟩ => ⟨i, ?_, hl, h⟩⟩
  by_contra hn
  have : s.slot i = Slot.start := by simp [State.slot, List.getD_eq_getElem?_getD, List.getElem?_eq_none (Nat.le_of_not_lt hn)]
  simp [State.live, this, Slot.start] at hl

theorem directionConditions_iff {s : State} {p : Nat} : s.directionConditions p = true ↔
    (s.link (s.portDef p).link).state = .up
      ∧ (∀ i, s.live i = true → (s.slot i).kind = some .exit → (s.slotRoute i).exit ≠ p)
      ∧ (s.port p).inc ≠ .waiting ∧ (s.port p).inc ≠ .receiving ∧ (s.port p).inc ≠ .completed
      ∧ (s.sec (s.portDef p).sec).occ = .clear := by
  have he : (!s.exitTargets p) = true ↔ ∀ i, s.live i = true → (s.slot i).kind = some .exit → (s.slotRoute i).exit ≠ p := by
    rw [Bool.not_eq_true', ← Bool.not_eq_true, exitTargets_iff]
    simp only [not_exists, not_and, ne_eq]
  have hi : (!(s.port p).incGranted) = true ↔
      (s.port p).inc ≠ .waiting ∧ (s.port p).inc ≠ .receiving ∧ (s.port p).inc ≠ .completed := by
    rw [Bool.not_eq_true', ← Bool.not_eq_true, incGranted_iff, not_or, not_or]
  rw [State.directionConditions, Bool.and_eq_true, Bool.and_eq_true, Bool.and_eq_true, he, hi, linkUp_iff, secClear_iff]
  tauto

/-! #### A port's record written -/

theorem modify_eq_set_getD {α : Type} (l : List α) (d : α) {i : Nat} (h : i < l.length) (f : α → α) :
    l.modify i f = l.set i (f (l.getD i d)) := by
  rw [List.modify_eq_set_get f h, List.getD_eq_getElem l d h]; rfl

theorem modPort_eq_set (s : State) {p : Nat} (h : p < s.bdu.ports.length) (f : Port → Port) :
    s.modPort p f = { s with bdu.ports := s.bdu.ports.set p (f (s.port p)) } := by
  rw [State.modPort, modify_eq_set_getD _ Port.start h]; rfl

theorem modPort_modPort (s : State) (p : Nat) (f g : Port → Port) : (s.modPort p f).modPort p g = s.modPort p (g ∘ f) := by
  simp [State.modPort, List.modify_modify_eq]

/-- The view alone plays no part in the direction conditions. -/
theorem directionConditions_unrequest (s : State) (p : Nat) :
    (s.modPort p Port.unrequest).directionConditions p = s.directionConditions p := by
  have hi : ((s.modPort p Port.unrequest).port p).incGranted = (s.port p).incGranted := by
    rw [State.modPort_port_at]
    split
    · unfold Port.unrequest; split <;> rfl
    · rfl
  unfold State.directionConditions
  rw [hi]; rfl

/-- Settles O48: the checks of the command in their order, then what the neighbour's view and its answer do to a port. -/
theorem requestDirectionRow : Obligations.RequestDirectionRow := by
  refine ⟨fun s o tag p h => ?_, fun s p v a hp => ?_⟩
  · have ans {b : State} {r : Res} (e : s.cmdRequestDirection o p = (b, r, .none)) :=
      answered_of h (tag := tag) (c := .requestDirection p) rfl rfl rfl rfl e
    have refused {r : Res} (e : s.portRefusal o p = some r) : s.cmdRequestDirection o p = (s, r, .none) := by
      simp only [State.cmdRequestDirection, e, State.refuse]
    obtain ⟨hbad, hun, harea⟩ := portRefusal_cases s o p
    refine ⟨fun hn => ans (refused (hbad hn)), fun h8 hn => ans (refused (hun h8 hn)), fun h8 hp => ?_⟩
    obtain ⟨hno, hyes⟩ := harea h8 hp
    refine ⟨fun hh => ans (refused (hno hh)), fun hh => ?_⟩
    simp only [State.cmdRequestDirection, hyes hh, State.refuse] at ans
    refine ⟨fun ho => ans (if_pos (by simp [ho])), fun ho => ?_⟩
    rw [if_neg (by simp [ho])] at ans
    refine ⟨fun hv => ans (if_pos hv), fun hv => ans ?_, fun hv => ?_⟩
    · rw [if_neg (by rw [hv]; decide), if_pos hv]
    rw [if_neg (by rcases hv with hv | hv <;> rw [hv] <;> decide), if_neg (by rcases hv with hv | hv <;> rw [hv] <;> decide)] at ans
    refine ⟨fun hu => ans (if_pos (Bool.not_eq_true' _ ▸ decide_eq_false hu)), fun hu ht => ans ?_, fun hu ht hc => ans ?_,
      fun hu ht hc ha => ans ?_, fun hu ht hc ha => ans ?_⟩
    all_goals rw [if_neg (by simp [linkUp_iff.mpr hu])]
    · rw [if_pos (incGranted_iff.mpr ht)]
    all_goals rw [if_neg (mt incGranted_iff.mp ht)]
    · rw [if_pos (Bool.not_eq_true' _ ▸ decide_eq_false hc)]
    all_goals rw [if_neg (by simp [secClear_iff.mpr hc])]
    · rw [if_pos ha]
    · rw [if_neg (not_not.mpr ha)]; rfl
  · refine ⟨fun hv => ?_, fun hv hd => ?_, fun hv hd => ?_, ?_, ?_⟩
    · rw [State.takeNbView, if_neg hv, modPort_eq_set s hp]
    · rw [State.takeNbView, if_pos hv, if_neg hd]
    · rw [State.takeNbView, if_pos hv, if_pos hd, State.decideDirection]
      refine ⟨fun hq hy => if_pos ⟨hq, hy⟩, fun hq => ?_⟩
      rw [if_neg (by rintro ⟨h1, h2⟩; rcases hq with hq | hq; exact hq h1; rw [h2] at hq; cases hq)]
      dsimp only
      rw [directionConditions_unrequest, modPort_modPort, modPort_modPort, modPort_eq_set s hp, modPort_eq_set s hp]
      exact ⟨fun hc => if_pos (directionConditions_iff.mpr hc), fun hc => if_neg (mt directionConditions_iff.mp hc)⟩
    · exact fun hq => if_pos hq
    · intro hq
      have e : ∀ b, (s.port p).takeDirAns b = match b with
          | .grant => { s.port p with view := .out, prev := none, conflict := false, nbDirAns := .grant }
          | .refuse => Port.unrequest { s.port p with nbDirAns := .refuse }
          | .none => { s.port p with nbDirAns := .none } := fun b => by
        exact (if_neg (not_not.mpr hq)).trans (by cases b <;> rfl)
      refine ⟨e .grant, (e .refuse).trans ?_, e .none⟩
      simp [Port.unrequest, hq]

end Sys2Proof.Machine

/-! ### The tick of an empty queue (log 1), and the state after reset (R191) -/

namespace Sys2Proof.Machine

/-! #### The tick -/

theorem getD_map_of_default {α : Type} (f : α → α) (d : α) (hd : f d = d) (l : List α) (i : Nat) :
    (l.map f).getD i d = f (l.getD i d) := by
  rw [List.getD_eq_getElem?_getD, List.getD_eq_getElem?_getD, List.getElem?_map]
  cases l[i]? with
  | none => exact hd.symm
  | some x => rfl

/-- Settles O2: a record with no timer running is its own tick, so that reading by index commutes with it. -/
theorem emptyQueueTick : Obligations.EmptyQueueTick := by
  intro s hq
  have step_tick : step s = .next s.tick := by unfold step; rw [hq]
  refine ⟨fun hp => ?_, fun hp => ⟨s.tick, step_tick, ?_⟩⟩
  · rw [step_tick, State.tick, if_pos hp]
  rw [State.tick, if_neg (not_not.mpr hp)]
  exact ⟨rfl, rfl, getD_map_of_default PointRec.tick PointRec.start rfl s.est.points,
    getD_map_of_default Slot.tick Slot.start rfl s.rsu.slots, rfl, getD_map_of_default Link.tick Link.start rfl s.bdu.links,
    rfl, rfl, rfl, rfl, hq, rfl, rfl, rfl, List.length_map .., List.length_map .., List.length_map ..⟩

/-! #### The state after reset -/

theorem reset_slot (i : Nat) : State.reset.slot i = Slot.start := by
  show (List.replicate 48 Slot.start).getD i Slot.start = Slot.start
  rw [List.getD_eq_getElem?_getD, List.getElem?_replicate]
  split <;> rfl

theorem reset_live (i : Nat) : State.reset.live i = false := by rw [State.live, reset_slot]; rfl

theorem reset_entry (l e : Nat) : State.reset.entry l e = none := by
  show (List.replicate 16 none).getD e none = none
  rw [List.getD_eq_getElem?_getD, List.getElem?_replicate]
  split <;> rfl

theorem reset_allClaims : State.reset.allClaims = [] := rfl

theorem reset_queuesHold : State.reset.queuesHold where
  slots := rfl
  store := Nat.zero_le _
  holders := rfl
  inputQ := Nat.zero_le _
  respQ := Nat.zero_le _
  kept := nofun
  lasting := nofun
  noticeQ := by decide
  noticeCount := by decide
  served := nofun
  waiting := nofun
  settled := rfl

theorem reset_clearedOwned : State.reset.clearedOwned where
  away _ h := absurd rfl h
  owned := nofun
  entry i h := by rw [reset_slot] at h; simp [Slot.start] at h
  checking _ := reset_live

theorem reset_countsExact : State.reset.countsExact where
  sec := fun k h => absurd h (Nat.not_lt_zero k)
  pt := fun k h => absurd h (Nat.not_lt_zero k)
  sig := fun k h => absurd h (Nat.not_lt_zero k)
  free i _ := by rw [reset_slot]; rfl
  undecided l e x h := by rw [reset_entry] at h; cases h
  checking _ := reset_allClaims

theorem reset_positionsAgree : State.reset.positionsAgree where
  claim _ h := absurd h List.not_mem_nil
  lock _ h := absurd h List.not_mem_nil
  agree _ h := absurd h List.not_mem_nil
  slot _ _ h := absurd (show (none : Option Owner) = _ from h) nofun
  entry l e x k h := by rw [reset_entry] at h; cases h
  undecided l e x h := by rw [reset_entry] at h; cases h

theorem reset_storeAgrees : State.reset.storeAgrees where
  once := List.nodup_nil
  apart _ h := absurd h List.not_mem_nil
  live i j n h := by rw [reset_live] at h; cases h

theorem reset_viewsAgree : State.reset.viewsAgree where
  exit i h := by rw [reset_live] at h; cases h
  acceptance p h := absurd (show Port.start.incGranted = true from h) (by decide)
  checking _ := reset_live

/-- No element has a record, so that none owns a lock or carries a claim. -/
theorem reset_ownersLive : State.reset.ownersLive where
  sec _ h := absurd h List.not_mem_nil
  pt _ h := absurd h List.not_mem_nil
  sig _ h := absurd h List.not_mem_nil

theorem reset_countsHold : State.reset.countsHold where
  sec _ h := absurd h List.not_mem_nil
  pt _ h := absurd h List.not_mem_nil
  sig _ h := absurd h List.not_mem_nil

theorem reset_claimsAsk : State.reset.claimsAsk := fun k p h => by rw [reset_allClaims] at h; cases h

/-- Settles O4: with no element records, 48 FREE slots and no links, each invariant is about nothing that stands. -/
theorem resetState : Obligations.ResetState :=
  ⟨rfl, rfl, rfl, rfl, fun _ => rfl, reset_slot, rfl, rfl, rfl, rfl, rfl, rfl, rfl, rfl,
    reset_queuesHold, fun _ h => absurd h List.not_mem_nil, canonical_coldStart _ _ _, fun _ _ h => absurd h List.not_mem_nil,
    modesLegal_of_start rfl rfl rfl rfl rfl rfl rfl rfl rfl rfl, fun _ h => absurd h List.not_mem_nil, reset_ownersLive,
    reset_countsHold, reset_countsExact, reset_positionsAgree, reset_claimsAsk, reset_storeAgrees, reset_viewsAgree,
    reset_clearedOwned⟩

end Sys2Proof.Machine

/-! ### LOAD_END and the ten structural checks (R15) -/

namespace Sys2Proof.Machine

/-! #### LOAD_END -/

/-- The refusals of LOAD_END, each under its condition and none before. -/
theorem loadEndRefusal_cases (s : State) (o : Originator) (len : Nat) :
    (¬(s.mdc.mode = .loading ∧ s.sds.load.owner = some o ∧ s.sds.load.state ≠ .closed) → s.loadEndRefusal o len = some .notPermitted)
    ∧ (s.mdc.mode = .loading ∧ s.sds.load.owner = some o ∧ s.sds.load.state ≠ .closed →
      (len ≠ s.sds.load.declared → s.loadEndRefusal o len = some .badParameter)
      ∧ (len = s.sds.load.declared → s.loadEndRefusal o len = none)) := by
  unfold State.loadEndRefusal
  refine ⟨fun hn => if_pos (Bool.not_eq_false _ ▸ mt mayLoad_iff.mp hn), fun hm => ?_⟩
  rw [if_neg (by rw [mayLoad_iff.mpr hm]; exact Bool.false_ne_true)]
  exact ⟨fun hl => if_pos hl, fun hl => if_neg (not_not.mpr hl)⟩

/-- The end of the checks of a LOAD_END in progress. -/
theorem exec_loadEndChecks {s : State} {o : Originator} {tag len : Nat} {crc : Crc32} {b : State} {r : Res} {x : Content}
    (hp : s.mdc.power = .running) (hq : s.slu.inProgress = some ⟨o, tag, .loadEnd len crc⟩) (e : s.endLoadChecks len crc = (b, r, x)) :
    exec .loadEndChecksComplete s =
      .next (State.respond { finish s b with slu.inProgress := none } (.reply tag 3 o r x)).settleLine := by
  have hrun : s.running = true := by simp [State.running, hp]
  show execLoadEndChecksComplete s = _
  simp only [execLoadEndChecksComplete, hq, hrun, if_true, State.finishLoadEnd, e]
  rfl

/-! #### The order of the checks -/

theorem firstFailing_none {l : List (Nat × Option (RecClass × Nat))} (h : ∀ x ∈ l, x.2 = none) : firstFailing l = ⟨0, none⟩ := by
  induction l with
  | nil => rfl
  | cons x l ih =>
    obtain ⟨c, e⟩ := x
    obtain rfl : e = none := h (c, e) List.mem_cons_self
    exact ih fun y hy => h y (List.mem_cons_of_mem _ hy)

theorem firstFailing_append {before after : List (Nat × Option (RecClass × Nat))} {c : Nat} {e : RecClass × Nat}
    (h : ∀ x ∈ before, x.2 = none) : firstFailing (before ++ (c, some e) :: after) = ⟨c, some e⟩ := by
  induction before with
  | nil => rfl
  | cons x l ih =>
    obtain ⟨c, e⟩ := x
    obtain rfl : e = none := h (c, e) List.mem_cons_self
    exact ih fun y hy => h y (List.mem_cons_of_mem _ hy)

theorem identityOk_iff {bs : List Byte} :
    identityOk bs = true ↔ 1 ≤ u16 bs 0 ∧ u16 bs 0 ≤ 65534 ∧ u16 bs 2 = 65535 - u16 bs 0 := by
  simp only [identityOk, Bool.and_eq_true, decide_eq_true_eq]
  omega

/-- The first route that fails, in ascending number. -/
theorem firstFail_routeVerdicts (m : Image) (ok : RouteDef → Bool) :
    firstFail (routeVerdicts m ok) = ((m.routesInOrder.filter fun d => !ok d).map fun d => (RecClass.route, d.number)).head? := by
  unfold routeVerdicts firstFail
  induction m.routesInOrder with
  | nil => rfl
  | cons d l ih => cases h : ok d <;> simp_all

/-! #### The routes in ascending number -/

theorem mem_routesInOrder {m : Image} {d : RouteDef} (h : d ∈ m.routesInOrder) : d ∈ m.routes := by
  obtain ⟨n, -, hd⟩ := List.mem_filterMap.mp h
  exact List.mem_of_find?_eq_some hd

/-- Each number of the list of routes finds a route of that number. -/
theorem map_number_filterMap (m : Image) {l : List Nat} (h : ∀ n ∈ l, n ∈ m.routes.map RouteDef.number) :
    (l.filterMap fun n => m.routes.find? fun d => d.number = n).map RouteDef.number = l := by
  induction l with
  | nil => rfl
  | cons n l ih =>
    obtain ⟨d, hd, hn⟩ := List.mem_map.mp (h n List.mem_cons_self)
    cases hf : m.routes.find? fun d => d.number = n with
    | none => exact absurd (List.find?_eq_none.mp hf d hd) (by simpa using hn)
    | some r =>
      have := List.find?_some hf
      simp only [List.filterMap_cons, hf, List.map_cons, ih fun x hx => h x (List.mem_cons_of_mem _ hx)]
      rw [of_decide_eq_true this]

theorem routesInOrder_numbers (m : Image) : m.routesInOrder.map RouteDef.number = ascending (m.routes.map RouteDef.number) :=
  map_number_filterMap m fun _ hn => mem_ascending.mp hn

theorem routesInOrder_perm {m : Image} (h : (m.routes.map RouteDef.number).Nodup) : m.routesInOrder.Perm m.routes := by
  have hn : (m.routesInOrder.map RouteDef.number).Nodup := by
    rw [routesInOrder_numbers]; exact (ascending_perm _).nodup_iff.mpr h
  have hs : m.routesInOrder.length = m.routes.length := by
    simpa using congrArg List.length (routesInOrder_numbers m) |>.trans (ascending_perm _).length_eq
  exact (List.subperm_of_subset hn.of_map fun _ => mem_routesInOrder).perm_of_length_le hs.ge

/-! #### Check 3 and the route numbers -/

/-- With no member repeated the list has no duplicates. -/
theorem nodup_of_repeats {α : Type} [DecidableEq α] {seen l : List α} {n : Nat} (h : repeats seen n l = []) :
    l.Nodup ∧ ∀ x ∈ l, x ∉ seen := by
  induction l generalizing seen n with
  | nil => simp
  | cons x l ih =>
    unfold repeats at h
    by_cases hx : seen.contains x = true
    · rw [if_pos hx] at h; cases h
    · rw [if_neg hx] at h
      obtain ⟨hn, hs⟩ := ih h
      have hx' : x ∉ seen := by simpa using hx
      refine ⟨List.nodup_cons.mpr ⟨fun hl => hs x hl List.mem_cons_self, hn⟩, fun y hy => ?_⟩
      rcases List.mem_cons.mp hy with rfl | hy
      · exact hx'
      · exact fun hy' => hs y hy (List.mem_cons_of_mem _ hy')

/-- The places repeated are places of the list. -/
theorem repeats_lt {α : Type} [DecidableEq α] {seen l : List α} {n k : Nat} (h : k ∈ repeats seen n l) : k < n + l.length := by
  induction l generalizing seen n with
  | nil => simp [repeats] at h
  | cons x l ih =>
    unfold repeats at h
    split at h
    · rcases List.mem_cons.mp h with rfl | h
      · simp
      · have := ih h; simp; omega
    · have := ih h; simp; omega

theorem inRange_some {lo hi n m : Nat} (h : inRange lo hi n = some m) : m = n := by
  unfold inRange at h
  split at h
  · exact (Option.some.inj h).symm
  · cases h

/-- What a read that began with `x` gives: the rest of it, on what `x` gave. -/
theorem bind_some {α β : Type} {x : Option α} {f : α → Option β} {b : β} (h : x >>= f = some b) : ∃ a, x = some a ∧ f a = some b :=
  Option.bind_eq_some_iff.mp h

theorem readRoute_number {bs : List Byte} {d : RouteDef} (h : readRoute bs = some d) : d.number = u16 bs 0 := by
  unfold readRoute at h
  obtain ⟨n, hn, h⟩ := bind_some h
  obtain ⟨kind, -, h⟩ := bind_some h
  obtain ⟨entry, -, h⟩ := bind_some h
  obtain ⟨exit, -, h⟩ := bind_some h
  obtain ⟨time, -, h⟩ := bind_some h
  obtain ⟨speed, -, h⟩ := bind_some h
  obtain ⟨decel, -, h⟩ := bind_some h
  obtain ⟨sight, -, h⟩ := bind_some h
  obtain ⟨reaction, -, h⟩ := bind_some h
  obtain ⟨⟨path, r1⟩, -, h⟩ := bind_some h
  obtain ⟨⟨points, r2⟩, -, h⟩ := bind_some h
  obtain ⟨⟨secs, r3⟩, -, h⟩ := bind_some h
  obtain ⟨⟨overlap, r4⟩, -, h⟩ := bind_some h
  obtain ⟨⟨items, r5⟩, -, h⟩ := bind_some h
  obtain ⟨⟨chain, r6⟩, -, h⟩ := bind_some h
  dsimp only at h
  split at h
  · cases h
  · obtain ⟨_, -, h⟩ := bind_some h
    obtain ⟨_, -, h⟩ := bind_some h
    obtain ⟨_, -, h⟩ := bind_some h
    obtain ⟨_, -, h⟩ := bind_some h
    obtain ⟨_, -, h⟩ := bind_some h
    obtain ⟨_, -, h⟩ := bind_some h
    cases h
    exact inRange_some hn

theorem ascending_eq_nil {l : List Nat} (h : ascending l = []) : l = [] := by
  have := ascending_perm l
  rw [h] at this
  exact this.nil_eq.symm

theorem nodup_of_badRoutes {rs : List (List Byte)} {short : Bool} (h : badRoutes rs short = []) :
    (rs.map fun r => u16 r 0).Nodup := by
  have hl := ascending_eq_nil h
  rw [List.append_eq_nil_iff, List.append_eq_nil_iff] at hl
  obtain ⟨⟨-, hr⟩, -⟩ := hl
  have hn : repeats [] 0 (ascending (rs.map fun r => u16 r 0)) = [] := by
    refine List.eq_nil_iff_forall_not_mem.mpr fun k hk => ?_
    have hlt := repeats_lt hk
    rw [Nat.zero_add] at hlt
    have := List.filterMap_eq_nil_iff.mp hr k hk
    simp [hlt] at this
  exact (ascending_perm _).nodup_iff.mp (nodup_of_repeats hn).1

theorem filterMap_map_sublist {α β γ : Type} {f : α → Option β} {g : β → γ} {k : α → γ} (h : ∀ a b, f a = some b → g b = k a)
    (l : List α) : ((l.filterMap f).map g).Sublist (l.map k) := by
  induction l with
  | nil => exact List.Sublist.refl _
  | cons a l ih =>
    cases hf : f a with
    | none => simpa [hf] using ih.cons _
    | some b => simpa [hf, h a b hf] using ih

/-- Check 3 leaves no route number twice. -/
theorem nodup_of_failRanges {bs : List Byte} (h : failRanges bs = none) : ((readImage bs).routes.map RouteDef.number).Nodup := by
  unfold failRanges at h
  by_cases hr : (!headerRanges bs) = true
  · rw [if_pos hr] at h; cases h
  rw [if_neg hr] at h
  unfold readImage
  cases hc : cutImage bs with
  | none => exact List.nodup_nil
  | some r =>
    rw [hc] at h
    have hl := List.head?_eq_none_iff.mp h
    simp only [List.append_eq, List.append_eq_nil_iff, List.map_eq_nil_iff] at hl
    exact (filterMap_map_sublist (fun _ _ => readRoute_number) r.routes).nodup (nodup_of_badRoutes hl.2)

/-! #### What checks 4, 5 and 10 find -/

theorem firstFail_none {l : List Verdict} : firstFail l = none ↔ ∀ v ∈ l, v.2.2 = true := by
  simp [firstFail, List.find?_eq_none]

theorem forall_verdicts {α : Type} {c : RecClass} {l : List α} {ok : Nat → α → Bool} :
    (∀ v ∈ verdicts c l ok, v.2.2 = true) ↔ ∀ i, ∀ h : i < l.length, ok i l[i] = true := by
  have mem : ∀ r : Nat × α, r ∈ numbered l ↔ ∃ h : r.1 < l.length, l[r.1] = r.2 := fun r => by
    simp only [numbered, List.mem_iff_getElem, List.getElem_zip, List.getElem_range, List.length_zip, List.length_range, Nat.min_self]
    exact ⟨fun ⟨i, hi, h⟩ => h ▸ ⟨hi, rfl⟩, fun ⟨h, e⟩ => ⟨r.1, h, Prod.ext rfl e⟩⟩
  simp only [verdicts, List.forall_mem_map, mem]
  exact ⟨fun h i hi => h (i, l[i]) ⟨hi, rfl⟩, fun h r ⟨hi, hr⟩ => hr ▸ h r.1 hi⟩

theorem forall_routeVerdicts {m : Image} {ok : RouteDef → Bool} :
    (∀ v ∈ routeVerdicts m ok, v.2.2 = true) ↔ ∀ d ∈ m.routesInOrder, ok d = true := by
  simp [routeVerdicts]

/-- No member stands before itself. -/
theorem nodup_iff_take {α : Type} {l : List α} (d : α) : l.Nodup ↔ ∀ n, n < l.length → l.getD n d ∉ l.take n := by
  rw [List.Nodup, List.pairwise_iff_getElem]
  simp only [List.mem_take_iff_getElem, not_exists]
  refine ⟨fun h n hn i hi e => ?_, fun h i j hi hj hij e => h j hj i (by omega) ?_⟩
  · rw [List.getD_eq_getElem _ _ hn] at e
    exact h i n (by omega) hn (by omega) e
  · rw [List.getD_eq_getElem _ _ hj]; exact e

/-- A list without repeats holds one member alone where that member stands for all. -/
theorem length_eq_one_iff_of_nodup {α : Type} {l : List α} (h : l.Nodup) : l.length = 1 ↔ ∃ x ∈ l, ∀ y ∈ l, y = x := by
  constructor
  · intro h1
    obtain ⟨x, rfl⟩ := List.length_eq_one_iff.mp h1
    exact ⟨x, by simp, by simp⟩
  · rintro ⟨x, hx, hy⟩
    rw [List.eq_replicate_of_mem hy] at h
    have := List.nodup_replicate.mp h
    have := List.length_pos_of_mem hx
    omega

end Sys2Proof.Machine

/-! ### What checks 4, 5 and 10 of LOAD_END ask (R15) -/

namespace Sys2Proof.Machine

/-! #### Check 10 -/

theorem lengthsOk_iff {d : RouteDef} : d.lengthsOk = true ↔
    1 ≤ d.path.length ∧ d.path.length ≤ 16 ∧ d.pathPoints.length ≤ 12 ∧ d.overlapSecs.length ≤ 4
      ∧ d.overlapPoints.length ≤ 4 ∧ d.remoteItems.length ≤ 4 ∧ d.chain.length ≤ 6
      ∧ (d.kind ≠ .main → d.overlapSecs = [] ∧ d.overlapPoints = []) ∧ (d.kind ≠ .exit → d.remoteItems = []) := by
  simp only [RouteDef.lengthsOk, Bool.and_eq_true, Bool.or_eq_true, decide_eq_true_eq, List.isEmpty_iff]
  tauto

theorem failLengths_none (m : Image) : failLengths m = none ↔
    (∀ l, l < m.links.length → m.portCount l ≤ 2 ∧ ((m.links.getD l default).neighbour ≠ 0 → 1 ≤ m.portCount l))
      ∧ ∀ d ∈ m.routesInOrder, d.lengthsOk = true := by
  rw [failLengths, firstFail_none, List.forall_mem_append, forall_verdicts, forall_routeVerdicts]
  refine and_congr_left fun _ => forall_congr' fun i => forall_congr' fun hi => ?_
  rw [List.getD_eq_getElem _ _ hi]
  simp only [Bool.and_eq_true, Bool.or_eq_true, decide_eq_true_eq]
  tauto

/-! #### Check 5 -/

/-- A section end's connection agrees with what it names. -/
theorem connOk_iff {m : Image} {k : Nat} {e : SecEnd} : m.connOk k e = true ↔ match m.conn k e with
    | .joint t f => t ≠ k ∧ m.conn t f = .joint k e
    | .leg p l => (m.points.getD p default).at l = k
    | .port p => (m.ports.getD p default).sec = k ∧ (m.ports.getD p default).e = e
    | .buffer => True := by
  unfold Image.connOk
  cases m.conn k e <;> simp

/-- The section ends that name a leg of a point. -/
def Image.legEnds (m : Image) (p : Nat) (l : Leg) : List (Nat × SecEnd) :=
  (((List.range m.sections.length).filter fun s => decide (m.conn s .a = .leg p l)).map fun s => (s, SecEnd.a))
    ++ ((List.range m.sections.length).filter fun s => decide (m.conn s .b = .leg p l)).map fun s => (s, SecEnd.b)

theorem length_legEnds (m : Image) (p : Nat) (l : Leg) : (m.legEnds p l).length = m.legUses p l := by
  simp [Image.legEnds, Image.legUses]

theorem mem_legEnds {m : Image} {p : Nat} {l : Leg} {x : Nat × SecEnd} :
    x ∈ m.legEnds p l ↔ x.1 < m.sections.length ∧ m.conn x.1 x.2 = .leg p l := by
  obtain ⟨k, e⟩ := x
  cases e <;> simp [Image.legEnds]

theorem nodup_legEnds (m : Image) (p : Nat) (l : Leg) : (m.legEnds p l).Nodup := by
  have inj : ∀ e : SecEnd, Function.Injective fun s : Nat => (s, e) := fun e _ _ h => (Prod.mk.inj h).1
  refine List.nodup_append.mpr ⟨(List.nodup_range.filter _).map (inj _), (List.nodup_range.filter _).map (inj _), ?_⟩
  intro x hx y hy h
  obtain ⟨_, -, rfl⟩ := List.mem_map.mp hx
  obtain ⟨_, -, rfl⟩ := List.mem_map.mp hy
  cases h

/-- A leg is named once where one section end names it and no other. -/
theorem legUses_eq_one (m : Image) (p : Nat) (l : Leg) : m.legUses p l = 1 ↔ ∃ k < m.sections.length, ∃ e, m.conn k e = .leg p l
    ∧ ∀ t < m.sections.length, ∀ f, m.conn t f = .leg p l → t = k ∧ f = e := by
  rw [← length_legEnds, length_eq_one_iff_of_nodup (nodup_legEnds m p l)]
  simp only [mem_legEnds, Prod.exists, Prod.forall, Prod.mk.injEq]
  constructor
  · rintro ⟨k, e, ⟨hk, he⟩, h⟩
    exact ⟨k, hk, e, he, fun t ht f hf => h t f ⟨ht, hf⟩⟩
  · rintro ⟨k, hk, e, he, h⟩
    exact ⟨k, e, ⟨hk, he⟩, fun t f ⟨ht, hf⟩ => h t ht f hf⟩

theorem failConnections_none (m : Image) : failConnections m = none ↔
    (∀ k, k < m.sections.length → m.connOk k .a = true ∧ m.connOk k .b = true)
      ∧ (∀ p, p < m.points.length → m.legUses p .tip = 1 ∧ m.legUses p .normal = 1 ∧ m.legUses p .reverse = 1)
      ∧ (∀ d ∈ m.points, d.tip ≠ d.normal ∧ d.tip ≠ d.reverse ∧ d.normal ≠ d.reverse)
      ∧ ∀ p, p < m.ports.length → m.conn (m.ports.getD p default).sec (m.ports.getD p default).e = .port p := by
  rw [failConnections, firstFail_none, List.forall_mem_append, List.forall_mem_append, forall_verdicts, forall_verdicts,
    forall_verdicts]
  simp only [Bool.and_eq_true, decide_eq_true_eq]
  rw [and_assoc]
  refine and_congr Iff.rfl ?_
  rw [← and_assoc]
  refine and_congr ?_ (forall_congr' fun i => forall_congr' fun hi => by rw [List.getD_eq_getElem _ _ hi])
  rw [List.forall_mem_iff_forall_getElem]
  exact ⟨fun h => ⟨fun i hi => ⟨(h i hi).1.1.1, (h i hi).1.1.2, (h i hi).1.2⟩, fun i hi => (h i hi).2⟩,
    fun h i hi => ⟨⟨⟨(h.1 i hi).1, (h.1 i hi).2.1⟩, (h.1 i hi).2.2⟩, h.2 i hi⟩⟩

/-! #### Check 4 -/

theorem connDefined_iff {m : Image} {c : Conn} : m.connDefined c = true ↔ match c with
    | .joint k _ => k < m.sections.length
    | .leg p _ => p < m.points.length
    | .port p => p < m.ports.length
    | .buffer => True := by
  cases c <;> simp [Image.connDefined, Image.hasSec, Image.hasPt, Image.hasPort]

theorem hasElem_iff {m : Image} {x : ElemRef} : m.hasElem x = true ↔ match x.cls with
    | .sect => x.idx < m.sections.length
    | .point => x.idx < m.points.length
    | .signal => x.idx < m.signals.length := by
  unfold Image.hasElem
  cases x.cls <;> simp [Image.hasSec, Image.hasPt, Image.hasSig]

theorem hasExit_iff {m : Image} {d : RouteDef} :
    m.hasExit d = true ↔ d.exit < (if d.kind = .exit then m.ports.length else m.signals.length) := by
  unfold Image.hasExit
  cases d.kind <;> simp [Image.hasPort, Image.hasSig]

theorem linkEquipped_iff {m : Image} {l : Nat} : m.linkEquipped l = true ↔ (m.links.getD l default).neighbour ≠ 0 := decide_eq_true_iff

theorem itemLinks_iff {m : Image} {d : RouteDef} : m.itemLinks d = true ↔ ∀ x ∈ d.remoteItems,
    (m.links.getD x.link default).neighbour ≠ 0 ∧ (d.kind = .exit → x.link = (m.ports.getD d.exit default).link) := by
  simp only [Image.itemLinks, Bool.and_eq_true, Bool.or_eq_true, List.all_eq_true, decide_eq_true_eq, linkEquipped_iff]
  by_cases h : d.kind = .exit
  · simp [h, forall_and]
  · simp [h]

theorem routeRefs_iff {m : Image} {d : RouteDef} : m.routeRefs d = true ↔ d.entry < m.signals.length
    ∧ d.exit < (if d.kind = .exit then m.ports.length else m.signals.length)
    ∧ (∀ k ∈ d.path ++ d.overlapSecs ++ d.chain, k < m.sections.length)
    ∧ (∀ p ∈ d.pathPoints, p.pt < m.points.length ∧ p.fouling < d.path.length) ∧ (∀ q ∈ d.overlapPoints, q.1 < m.points.length)
    ∧ ∀ x ∈ d.remoteItems, (m.links.getD x.link default).neighbour ≠ 0 ∧ (d.kind = .exit → x.link = (m.ports.getD d.exit default).link) := by
  simp only [Image.routeRefs, Bool.and_eq_true, hasExit_iff, itemLinks_iff, List.forall_mem_append, List.all_eq_true,
    Image.hasSec, Image.hasPt, Image.hasSig, decide_eq_true_eq]
  tauto

theorem forall_lt_add3 {a b c : Nat} {p : Nat → Prop} : (∀ n, n < a + b + c → p n) ↔
    (∀ i, i < a → p i) ∧ (∀ i, i < b → p (a + i)) ∧ ∀ i, i < c → p (a + b + i) := by
  refine ⟨fun h => ⟨fun i hi => h i (by omega), fun i hi => h (a + i) (by omega), fun i hi => h (a + b + i) (by omega)⟩,
    fun ⟨h1, h2, h3⟩ n hn => ?_⟩
  rcases Nat.lt_or_ge n a with ha | ha
  · exact h1 n ha
  rcases Nat.lt_or_ge n (a + b) with hb | hb
  · obtain ⟨i, rfl⟩ := Nat.exists_eq_add_of_le ha
    exact h2 i (by omega)
  · obtain ⟨i, rfl⟩ := Nat.exists_eq_add_of_le hb
    exact h3 i (by omega)

/-- Every channel passes where none is on two records and each is on a listed controller (R3). -/
theorem forall_channelOk (m : Image) : (∀ n, n < m.channels.length → m.channelOk n = true) ↔
    m.channels.Nodup ∧ ∀ c ∈ m.channels, c.1 ∈ m.controllers := by
  simp only [Image.channelOk, Bool.and_eq_true, Bool.not_eq_true', List.contains_iff_mem, ← Bool.not_eq_true]
  rw [nodup_iff_take default, List.forall_mem_iff_forall_getElem, ← forall_and]
  refine forall_congr' fun n => ?_
  rw [← forall_and]
  refine forall_congr' fun hn => ?_
  rw [List.getD_eq_getElem _ _ hn, and_comm]

theorem length_channels (m : Image) : m.channels.length = m.sections.length + m.points.length + m.signals.length := by
  simp [Image.channels, Nat.add_assoc]

/-- No section end bears two signals. -/
theorem nodup_ends_iff (l : List SigDef) : (l.map fun d => (d.sec, d.e)).Nodup ↔
    ∀ i, ∀ h : i < l.length, ((l.take i).any fun g => decide (g.sec = l[i].sec ∧ g.e = l[i].e)) = false := by
  rw [nodup_iff_take default, List.length_map]
  refine forall_congr' fun i => forall_congr' fun hi => ?_
  rw [List.getD_eq_getElem _ _ (by rwa [List.length_map]), List.getElem_map, ← List.map_take, ← Bool.not_eq_true, List.any_eq_true]
  simp only [List.mem_map, Prod.mk.injEq, decide_eq_true_eq]

theorem failReferences_none (m : Image) : failReferences m = none ↔
    (∀ d ∈ m.sections, m.connDefined d.endA = true ∧ m.connDefined d.endB = true)
      ∧ (∀ d ∈ m.points, d.tip < m.sections.length ∧ d.normal < m.sections.length ∧ d.reverse < m.sections.length
        ∧ d.fouling < m.sections.length)
      ∧ (∀ d ∈ m.signals, d.sec < m.sections.length) ∧ (m.signals.map fun d => (d.sec, d.e)).Nodup
      ∧ (∀ d ∈ m.ports, (m.links.getD d.link default).neighbour ≠ 0 ∧ d.sec < m.sections.length)
      ∧ (∀ d ∈ m.links, ∀ x ∈ d.window, m.hasElem x = true)
      ∧ m.channels.Nodup ∧ (∀ c ∈ m.channels, c.1 ∈ m.controllers) ∧ ∀ d ∈ m.routesInOrder, m.routeRefs d = true := by
  have ch := forall_channelOk m
  rw [length_channels, forall_lt_add3] at ch
  have channels := fun q : Prop => and_assoc (a := m.channels.Nodup) (b := ∀ c ∈ m.channels, c.1 ∈ m.controllers) (c := q)
  rw [failReferences, firstFail_none]
  simp only [List.forall_mem_append, forall_verdicts, forall_routeVerdicts, Bool.and_eq_true, Bool.not_eq_true', ← channels, ← ch,
    nodup_ends_iff, List.forall_mem_iff_forall_getElem (l := m.sections), List.forall_mem_iff_forall_getElem (l := m.points),
    List.forall_mem_iff_forall_getElem (l := m.signals), List.forall_mem_iff_forall_getElem (l := m.ports),
    List.forall_mem_iff_forall_getElem (l := m.links), Image.hasSec, decide_eq_true_eq, linkEquipped_iff, List.all_eq_true,
    forall_and]
  tauto

/-! #### The ten checks together -/

theorem onPath_eq (ok alone : RouteDef → Bool) : onPath ok alone = fun d => if d.path = [] then alone d else ok d := by
  funext d
  simp [onPath, List.isEmpty_iff]

/-- The checks past the CRC and the identity. -/
def laterChecks (bs : List Byte) : List (Nat × Option (RecClass × Nat)) := (checkList bs true).drop 2

theorem structuralChecks_crc {bs : List Byte} {crc : Crc32} (h : crc32 bs ≠ crc) : structuralChecks bs crc = ⟨1, some (.header, 0)⟩ := by
  simp [structuralChecks, checkList, h, firstFailing]

theorem structuralChecks_identity {bs : List Byte} {crc : Crc32} (h : crc32 bs = crc) (hi : identityOk bs = false) :
    structuralChecks bs crc = ⟨2, some (.header, 0)⟩ := by
  simp [structuralChecks, checkList, h, hi, firstFailing]

theorem structuralChecks_later {bs : List Byte} {crc : Crc32} (h : crc32 bs = crc) (hi : identityOk bs = true) :
    structuralChecks bs crc = firstFailing (laterChecks bs) := by
  simp [structuralChecks, checkList, h, hi, firstFailing, laterChecks]

/-- Settles O23: the refusals and the end of the checks, their order, and what three of them ask. -/
theorem loadEndRows : Obligations.LoadEndRows := by
  refine ⟨fun s o tag len crc => ⟨fun hr => ?_, fun hp hq hw => ?_⟩, fun bs crc => ?_, fun m => ⟨?_, ?_, ?_⟩⟩
  · have run : s.runCmd ⟨o, tag, .loadEnd len crc⟩ = match s.loadEndRefusal o len with
        | some r => s.reply ⟨o, tag, .loadEnd len crc⟩ r .none
        | none => { s with slu.inProgress := some ⟨o, tag, .loadEnd len crc⟩ } := rfl
    obtain ⟨hno, hyes⟩ := loadEndRefusal_cases s o len
    refine ⟨fun hn => replied hr (c := .loadEnd len crc) rfl ?_, fun hm ho hc hl => replied hr (c := .loadEnd len crc) rfl ?_,
      fun hm ho hc hl => exec_inProgress hr (c := .loadEnd len crc) rfl ?_⟩
    · rw [run, hno hn]
    · rw [run, (hyes ⟨hm, ho, hc⟩).1 hl]
    · rw [run, (hyes ⟨hm, ho, hc⟩).2 hl]
  · rw [← loaded_eq hw]
    exact ⟨fun h => exec_loadEndChecks hp hq (if_pos h), fun h => exec_loadEndChecks hp hq (if_neg h)⟩
  · intro r m sound byRoute found
    have found_eq : found = laterChecks bs := by
      have by_eq : ∀ ok alone, byRoute ok alone = firstFail (routeVerdicts m (onPath ok alone)) := fun ok alone => by
        rw [firstFail_routeVerdicts, onPath_eq]
      have chain_eq : onPath m.chainOk m.chainOk = m.chainOk := by rw [onPath_eq]; funext d; exact ite_self _
      simp only [found, by_eq, chain_eq]
      rfl
    refine ⟨structuralChecks_crc, fun hc hs => structuralChecks_identity hc (Bool.eq_false_iff.mpr (mt identityOk_iff.mp hs)),
      fun hc hs => ?_, fun d => mem_routesInOrder, ?_, routesInOrder_perm, nodup_of_failRanges⟩
    · have hr : r = firstFailing (laterChecks bs) := structuralChecks_later hc (identityOk_iff.mpr hs)
      rw [hr, ← found_eq]
      exact ⟨firstFailing_none, fun before after c e hf hb => by rw [hf]; exact firstFailing_append hb⟩
    · rw [routesInOrder_numbers]; exact ascending_sorted _
  · rw [failReferences_none]
    simp only [connDefined_iff, hasElem_iff, routeRefs_iff] <;> exact Iff.rfl
  · rw [failConnections_none]
    simp only [connOk_iff, legUses_eq_one] <;> exact Iff.rfl
  · rw [failLengths_none]
    simp only [lengthsOk_iff] <;> exact Iff.rfl

end Sys2Proof.Machine

/-! ### SET_ROUTE: the checks (R59 to R63), the answers, the state the acceptance leaves its slot in (R64, R65) -/

namespace Sys2Proof.Machine

/-! #### The element a check finds -/

theorem firstFailing_firstElement {d : RouteDef} {sec : Nat → Bool} {pt : Nat × Pos → Bool} {entry : Bool} {p : Nat → Prop}
    {q : Nat × Pos → Prop} {g : Prop} (hp : ∀ k, sec k = true ↔ p k) (hq : ∀ x, pt x = true ↔ q x) (hg : entry = true ↔ g) :
    FirstFailing d p q g (firstElement d sec pt entry) := by
  have noSec : (∀ k ∈ d.sections, ¬p k) → d.sections.find? sec = none := fun h =>
    List.find?_eq_none.mpr fun k hk => mt (hp k).mp (h k hk)
  have noPt : (∀ k ∈ d.points, ¬q k) → d.points.find? pt = none := fun h =>
    List.find?_eq_none.mpr fun k hk => mt (hq k).mp (h k hk)
  unfold firstElement
  refine ⟨⟨fun h => ?_, fun ⟨h1, h2, h3⟩ => ?_⟩, fun before k after hd hk hb => ?_, fun h1 before k after hd hk hb => ?_,
    fun h1 h2 h3 => ?_⟩
  · split at h
    · cases h
    · cases h
    · rename_i hs hpt
      refine ⟨fun k hk hk' => List.find?_eq_none.mp hs k hk ((hp k).mpr hk'),
        fun k hk hk' => List.find?_eq_none.mp hpt k hk ((hq k).mpr hk'), fun hg' => ?_⟩
      rw [if_pos (hg.mpr hg')] at h
      cases h
  · rw [noSec h1, noPt h2]
    exact if_neg (mt hg.mp h3)
  · have : d.sections.find? sec = some k :=
      List.find?_eq_some_iff_append.mpr ⟨(hp k).mpr hk, before, after, hd, fun j hj => by
        rw [Bool.not_eq_true', ← Bool.not_eq_true]; exact mt (hp j).mp (hb j hj)⟩
    rw [this]
  · have : d.points.find? pt = some k :=
      List.find?_eq_some_iff_append.mpr ⟨(hq k).mpr hk, before, after, hd, fun j hj => by
        rw [Bool.not_eq_true', ← Bool.not_eq_true]; exact mt (hq j).mp (hb j hj)⟩
    rw [noSec h1, this]
  · rw [noSec h1, noPt h2]
    exact if_pos (hg.mpr h3)

/-! #### The donor and the free slot -/

/-- A slot without a record is FREE. -/
theorem slot_of_le {s : State} {m : Nat} (h : s.rsu.slots.length ≤ m) : s.slot m = Slot.start := by
  simp [State.slot, List.getD_eq_getElem?_getD, List.getElem?_eq_none h]

theorem lt_of_live {s : State} {m : Nat} (h : s.live m = true) : m < s.rsu.slots.length := by
  by_contra hn
  rw [State.live, slot_of_le (Nat.le_of_not_lt hn)] at h
  simp [Slot.start] at h

/-- What makes a slot a donor of a route (R63). -/
def State.gives (s : State) (d : RouteDef) (m : Nat) : Prop :=
  ((s.slot m).state = .occupied ∨ (s.slot m).state = .berthed) ∧ (s.slot m).kind ≠ some .exit ∧ (s.slotRoute m).exit = d.entry

theorem lt_of_gives {s : State} {d : RouteDef} {m : Nat} (h : s.gives d m) : m < s.rsu.slots.length := by
  refine lt_of_live (decide_eq_true ?_)
  rcases h.1 with h | h <;> rw [h] <;> decide

theorem gives_iff {s : State} {d : RouteDef} {m : Nat} : ((decide ((s.slot m).state = .occupied) || decide ((s.slot m).state = .berthed))
    && decide ((s.slot m).kind ≠ some .exit) && decide ((s.slotRoute m).exit = d.entry)) = true ↔ s.gives d m := by
  simp only [Bool.and_eq_true, Bool.or_eq_true, decide_eq_true_eq, and_assoc, State.gives]

theorem donor_some {s : State} {d : RouteDef} {j : Nat} : s.donor d = some j ↔ s.gives d j ∧ ∀ m, m < j → ¬s.gives d m := by
  rw [State.donor, List.find?_range_eq_some]
  simp only [gives_iff, Bool.not_eq_true', ← Bool.not_eq_true, List.mem_range]
  exact ⟨fun ⟨h, _, hl⟩ => ⟨h, hl⟩, fun ⟨h, hl⟩ => ⟨h, lt_of_gives h, hl⟩⟩

theorem donor_none {s : State} {d : RouteDef} : s.donor d = none ↔ ∀ m, ¬s.gives d m := by
  rw [State.donor, List.find?_range_eq_none]
  simp only [Bool.not_eq_true', ← Bool.not_eq_true, gives_iff]
  exact ⟨fun h m hm => h m (lt_of_gives hm) hm, fun h m _ => h m⟩

theorem freeSlot_some {s : State} {m : Nat} (h : s.freeSlot = some m) :
    m < s.rsu.slots.length ∧ s.live m = false ∧ ∀ j, j < m → s.live j = true := by
  obtain ⟨hm, hl, hj⟩ := List.find?_range_eq_some.mp h
  exact ⟨List.mem_range.mp hl, by simpa using hm, fun j hlt => by simpa using hj j hlt⟩

theorem freeSlot_none {s : State} : s.freeSlot = none ↔ ¬∃ m, m < s.rsu.slots.length ∧ s.live m = false := by
  rw [State.freeSlot, List.find?_range_eq_none]
  simp

/-! #### What counts as absent (R63) -/

/-- A lock of the donor's overlap. -/
def State.absentLock (s : State) (d : RouteDef) (o : Option Owner) (k : Option LockKind) : Prop :=
  k = some .overlap ∧ o ≠ none ∧ o = (s.donor d).map Owner.slot

theorem lockAbsent_iff {s : State} {d : RouteDef} {o : Option Owner} {k : Option LockKind} :
    (s.needOf d).lockAbsent o k = true ↔ s.absentLock d o k := by
  unfold Need.lockAbsent State.absentLock
  show (match s.donor d with
    | some d => decide (o = some (.slot d)) && decide (k = some .overlap)
    | none => false) = true ↔ _
  cases s.donor d with
  | none => simp +contextual
  | some j =>
    simp only [Bool.and_eq_true, decide_eq_true_eq, Option.map_some]
    exact ⟨fun ⟨ho, hk⟩ => ⟨hk, by simp [ho], ho⟩, fun ⟨hk, _, ho⟩ => ⟨ho, hk⟩⟩

theorem secHeld_iff {s : State} {d : RouteDef} {k : Nat} :
    s.secHeld (s.needOf d) k = true ↔ (s.sec k).owner ≠ none ∧ ¬s.absentLock d (s.sec k).owner (s.sec k).kind := by
  rw [State.secHeld, Bool.and_eq_true, Bool.not_eq_true', ← Bool.not_eq_true, lockAbsent_iff, Option.isSome_iff_ne_none]

theorem ptHeld_iff {s : State} {d : RouteDef} {k : Nat} :
    s.ptHeld (s.needOf d) k = true ↔ (s.pt k).owner ≠ none ∧ ¬s.absentLock d (s.pt k).owner (s.pt k).kind := by
  rw [State.ptHeld, Bool.and_eq_true, Bool.not_eq_true', ← Bool.not_eq_true, lockAbsent_iff, Option.isSome_iff_ne_none]

theorem Pos.ne_iff_eq_other {x y : Pos} : x ≠ y ↔ x = y.other := by cases x <;> cases y <;> simp [Pos.other]

theorem claimAgrees_false {s : State} {n : Need} {i : Nat} {y : Pos} : s.claimAgrees n i y = false ↔
    s.countLeft n ⟨.point, i⟩ ≠ 0 ∧ (s.pt i).claimPos = some y.other := by
  unfold State.claimAgrees State.claimLeft
  by_cases h : s.countLeft n ⟨.point, i⟩ = 0
  · simp [h]
  · rw [if_neg h]
    cases hc : (s.pt i).claimPos with
    | none => simp
    | some x => simp [h, ← Pos.ne_iff_eq_other]

theorem sectionTaken_iff {s : State} {d : RouteDef} {k : Nat} : s.sectionTaken (s.needOf d) k = true ↔
    (s.sec k).occ ≠ .clear ∨ ((s.sec k).owner ≠ none ∧ ¬s.absentLock d (s.sec k).owner (s.sec k).kind)
      ∨ (s.sec k).claims - countOn (s.needOf d).absent ⟨.sect, k⟩ ≠ 0 := by
  rw [State.sectionTaken, Bool.or_eq_true, Bool.or_eq_true, Bool.not_eq_true', ← Bool.not_eq_true, secClear_iff, secHeld_iff,
    decide_eq_true_eq, or_assoc]
  rfl

theorem pointTaken_iff {s : State} {d : RouteDef} {q : Nat × Pos} : s.pointTaken (s.needOf d) q = true ↔
    (s.pt q.1).pos = .moving ∨ ((s.pt q.1).owner ≠ none ∧ ¬s.absentLock d (s.pt q.1).owner (s.pt q.1).kind)
      ∨ ((s.pt q.1).claims - countOn (s.needOf d).absent ⟨.point, q.1⟩ ≠ 0 ∧ (s.pt q.1).claimPos = some q.2.other)
      ∨ ((s.pt q.1).pos = q.2.other.rest ∧ (s.sec (s.ptDef q.1).fouling).occ ≠ .clear) := by
  rw [State.pointTaken, Bool.or_eq_true, Bool.or_eq_true, Bool.or_eq_true, Bool.and_eq_true, Bool.not_eq_true', Bool.not_eq_true',
    claimAgrees_false, ← Bool.not_eq_true, secClear_iff, ptHeld_iff, decide_eq_true_eq, State.atRest, decide_eq_true_eq, or_assoc,
    or_assoc]
  rfl

theorem sigCtrlLost_iff {s : State} {g : Nat} : s.sigCtrlLost g = true ↔ s.ctrlLost g := by
  unfold State.sigCtrlLost State.ctrlLost
  cases s.ctrl? (s.sigDef g).ctrl <;> simp

theorem portUsable_iff {s : State} {d : RouteDef} : s.portUsable d = true ↔
    (d.kind = .exit → (s.port d.exit).view = .out ∧ (s.link (s.portDef d.exit).link).state = .up) := by
  simp only [State.portUsable, Bool.or_eq_true, Bool.and_eq_true, decide_eq_true_eq, linkUp_iff]
  tauto

theorem hasRoom_iff {s : State} {d : RouteDef} {cs : List Claim} : s.hasRoom d cs = true ↔ ∀ l, l < s.bdu.links.length →
    s.postsOn d cs l = 0 ∨ (s.link l).outgoing.length + s.postsOn d cs l ≤ 16 := by
  simp only [State.hasRoom, List.all_eq_true, List.mem_range, decide_eq_true_eq]
  rfl

/-! #### The checks in their order -/

theorem liveSlot_isSome {s : State} {n : Nat} : (s.liveSlot n).isSome = true ↔ ∃ k, s.live k = true ∧ (s.slot k).route = some n := by
  rw [State.liveSlot, List.find?_isSome]
  simp only [List.mem_range, Bool.and_eq_true, decide_eq_true_eq]
  exact ⟨fun ⟨k, _, h⟩ => ⟨k, h⟩, fun ⟨k, h⟩ => ⟨k, lt_of_live h.1, h⟩⟩

theorem duplicate_iff {s : State} {route : Nat} {retry : Bool} : s.duplicate route retry = false ↔
    (¬∃ k, s.live k = true ∧ (s.slot k).route = some route) ∧ ((∃ e ∈ s.rsu.store, e.route = route) → retry = true) := by
  rw [State.duplicate, Bool.or_eq_false_iff, ← Bool.not_eq_true, liveSlot_isSome]
  refine and_congr_right fun _ => ?_
  cases retry <;> simp

/-- Checks 1 to 8, each under its condition and none before (R59). -/
theorem routeChecks_cases (s : State) (o : Originator) (route : Nat) (retry : Bool) :
    let verdict := s.routeChecks o route retry
    (s.operational = false → verdict = .refused .notOperational none)
    ∧ (s.operational = true → s.routeDef? route = none → verdict = .refused .unknown none)
    ∧ ∀ d, s.operational = true → s.routeDef? route = some d →
      (¬s.holds o (s.sigDef d.entry).area = true → verdict = .refused .notInControl none)
      ∧ (s.holds o (s.sigDef d.entry).area = true →
        (s.duplicate route retry = true → verdict = .refused .duplicate none)
        ∧ (s.duplicate route retry = false →
          (∀ e, s.blockedBy d = some e → verdict = .refused .blocked (some e))
          ∧ (s.blockedBy d = none →
            (∀ e, s.faultyOf d = some e → verdict = .refused .fault (some e))
            ∧ (s.faultyOf d = none →
              (s.portUsable d = false → verdict = .refused .direction none)
              ∧ (s.portUsable d = true → verdict = s.check8 d))))) := by
  intro verdict
  refine ⟨fun ho => if_pos (by simp [ho]), fun ho hd => ?_, fun d ho hd => ?_⟩
  · simp [verdict, State.routeChecks, ho, hd]
  have opened : verdict = if !s.holds o (s.routeArea d) then .refused .notInControl none
    else if s.duplicate route retry then .refused .duplicate none
    else match s.blockedBy d with
    | some e => .refused .blocked (some e)
    | none =>
      match s.faultyOf d with
      | some e => .refused .fault (some e)
      | none => if !s.portUsable d then .refused .direction none else s.check8 d := by
    simp only [verdict, State.routeChecks, ho, hd, Bool.not_true, Bool.false_eq_true, if_false] <;> rfl
  rw [opened]
  refine ⟨fun hh => if_pos (by simpa [State.routeArea] using hh), fun hh => ?_⟩
  rw [if_neg (by simpa [State.routeArea] using hh)]
  refine ⟨fun hu => if_pos hu, fun hu => ?_⟩
  rw [if_neg (Bool.eq_false_iff.mp hu)]
  refine ⟨fun e he => by rw [he], fun hb => ?_⟩
  rw [hb]
  refine ⟨fun e he => by rw [he], fun hf => ?_⟩
  rw [hf]
  exact ⟨fun hp => if_pos (by simp [hp]), fun hp => if_neg (by simp [hp])⟩

/-- Check 8, each outcome under its condition (R62). -/
theorem check8_cases (s : State) (d : RouteDef) :
    let free := ∃ m, m < s.rsu.slots.length ∧ s.live m = false
    let search := s.searchAll (s.needOf d) d.protPoints []
    (¬free → s.check8 d = .refused .conflict none)
    ∧ (free → ∀ e, s.takenOf (s.needOf d) d = some e → s.check8 d = .refused .conflict (some e))
    ∧ (free → s.takenOf (s.needOf d) d = none →
      (search = .limit → s.check8 d = .refused .fault none)
      ∧ (∀ p, search = .conflict p → s.check8 d = .refused .conflict (some ⟨.point, p⟩))
      ∧ (∀ cs, search = .success cs → s.hasRoom d cs = true →
          ∃ m, s.check8 d = .accepted m cs ∧ s.live m = false ∧ ∀ j, j < m → s.live j = true)
      ∧ (∀ cs, search = .success cs → s.hasRoom d cs = false → s.check8 d = .refused .conflict none)) := by
  intro free search
  cases hs : s.freeSlot with
  | none =>
    have hf : ¬free := freeSlot_none.mp hs
    exact ⟨fun _ => by simp only [State.check8, hs], fun h => absurd h hf, fun h => absurd h hf⟩
  | some m =>
    obtain ⟨hm, hl, hj⟩ := freeSlot_some hs
    have hf : free := ⟨m, hm, hl⟩
    refine ⟨fun h => absurd hf h, fun _ e he => by simp only [State.check8, hs, he], fun _ ht =>
      ⟨fun h => ?_, fun p h => ?_, fun cs h hr => ⟨m, ?_, hl, hj⟩, fun cs h hr => ?_⟩⟩
    all_goals simp only [search] at h
    all_goals simp only [State.check8, hs, ht, h]
    · exact if_pos hr
    · exact if_neg (Bool.eq_false_iff.mp hr)

/-- A request accepted has a FREE slot. -/
theorem check8_accepted {s : State} {d : RouteDef} {m : Nat} {cs : List Claim} (h : s.check8 d = .accepted m cs) :
    s.freeSlot = some m := by
  unfold State.check8 at h
  cases hs : s.freeSlot with
  | none => simp [hs] at h
  | some i =>
    simp only [hs] at h
    split at h
    · cases h
    · split at h
      · cases h
      · cases h
      · split at h
        · injection h with h; rw [h]
        · cases h

/-! #### The state of a slot -/

/-- Every slot keeps its state. -/
def StatesKept (s t : State) : Prop := ∀ i, (t.slot i).state = (s.slot i).state

namespace StatesKept
variable {s t u : State}

theorem of_rsu (h : t.rsu = s.rsu) : StatesKept s t := fun i => by simp [State.slot, h]

theorem refl (s : State) : StatesKept s s := fun _ => rfl

theorem trans (h : StatesKept s t) (k : StatesKept t u) : StatesKept s u := fun i => (k i).trans (h i)

theorem ite {c : Prop} [Decidable c] {s t u : State} (h : StatesKept s t) (k : StatesKept s u) : StatesKept s (if c then t else u) := by
  split
  · exact h
  · exact k

theorem modSlot (s : State) (i : Nat) {f : Slot → Slot} (h : ∀ k, (f k).state = k.state) : StatesKept s (s.modSlot i f) := fun j => by
  rw [State.modSlot_slot_at]
  split
  · exact h _
  · rfl

theorem each {α : Type} (s : State) (l : List α) (f : State → α → State) (h : ∀ t a, StatesKept t (f t a)) :
    StatesKept s (s.each l f) := by
  unfold State.each
  induction l generalizing s with
  | nil => exact refl s
  | cons a l ih => exact (h s a).trans (ih _)

theorem note (s : State) (r : Ref) : StatesKept s (s.note r) := of_rsu (note_rsu s r)

theorem freeSec (s : State) (i : Nat) (o : Owner) : StatesKept s (s.freeSec i o) := ite (of_rsu (note_rsu _ _)) (refl s)

theorem freePt (s : State) (i : Nat) (o : Owner) : StatesKept s (s.freePt i o) := ite (of_rsu (note_rsu _ _)) (refl s)

theorem takeCount (s : State) (c : ClaimOn) : StatesKept s (s.takeCount c) := of_rsu (by cases c <;> rfl)

theorem addCount (s : State) (c : ClaimOn) : StatesKept s (s.addCount c) := of_rsu (by cases c <;> rfl)

theorem noteClaimed (s : State) (c : ClaimOn) : StatesKept s (s.noteClaimed c) := by
  cases c with
  | port p => exact refl s
  | _ => exact note s _

theorem moveIfOther (s : State) (i : Nat) (p : Pos) : StatesKept s (s.moveIfOther i p) := ite (of_rsu rfl) (refl s)

theorem withdraw (s : State) (i : Nat) (r : RemoteReq) : StatesKept s (s.withdraw i r) := of_rsu (by
  unfold State.withdraw
  split <;> rfl)

theorem withdrawWhere (s : State) (i : Nat) (f : RemoteReq → Bool) : StatesKept s (s.withdrawWhere i f) :=
  (each s _ _ fun t r => withdraw t i r).trans (modSlot _ i fun _ => rfl)

theorem takeOver (s : State) (don : Nat) (d : RouteDef) : StatesKept s (s.takeOver don d) := by
  unfold State.takeOver
  refine StatesKept.trans ?_ (withdrawWhere _ _ _)
  refine StatesKept.trans ?_ (modSlot _ _ fun _ => rfl)
  refine StatesKept.trans ?_ (each _ _ _ fun t c => takeCount t c.what)
  exact (each s _ _ fun t k => freeSec t k _).trans (each _ _ _ fun t k => freePt t k _)

theorem lockSec (s : State) (i : Nat) (o : Owner) (k : Option LockKind) : StatesKept s (s.lockSec i o k) := of_rsu rfl

theorem lockPt (s : State) (i : Nat) (o : Owner) (k : Option LockKind) (p : Pos) : StatesKept s (s.lockPt i o k p) := of_rsu rfl

theorem lockSig (s : State) (i j : Nat) : StatesKept s (s.lockSig i j) := of_rsu rfl

theorem lockRoute (s : State) (i : Nat) (d : RouteDef) : StatesKept s (s.lockRoute i d) := by
  unfold State.lockRoute
  exact ((((each s _ _ fun t k => lockSec t k _ _).trans (each _ _ _ fun t k => lockSec t k _ _)).trans
    (each _ _ _ fun t (p : PathPoint) => lockPt t p.pt _ _ p.pos)).trans
    (each _ _ _ fun t (q : Nat × Pos) => lockPt t q.1 _ _ q.2)).trans (lockSig _ _ _)

theorem beginClaimMoves (s : State) (cs : List Claim) : StatesKept s (s.beginClaimMoves cs) :=
  each s cs _ fun t c => by
    split
    · exact moveIfOther t _ _
    · exact refl t

theorem post (s : State) (i : Nat) (what : RemoteWhat) (l : Nat) : StatesKept s (s.post i what l) := by
  unfold State.post
  refine StatesKept.trans (of_rsu ?_) (modSlot _ i fun _ => rfl)
  cases what <;> rfl

end StatesKept

theorem tryClear_state {s : State} {i : Nat} (h : (s.slot i).state = .setting) :
    ((s.tryClear i).slot i).state = .setting ∨ ((s.tryClear i).slot i).state = .clearing := by
  unfold State.tryClear
  split
  · show (((s.modSlot i _).slot i).state = .setting ∨ ((s.modSlot i _).slot i).state = .clearing)
    rw [State.modSlot_slot_at]
    split
    · exact .inr rfl
    · exact .inl h
  · exact .inl h

/-- The acceptance leaves its slot in SETTING, or in CLEARING where it clears at once (R65, R69). -/
theorem acceptRoute_state {s : State} {i : Nat} (h : i < s.rsu.slots.length) (o : Originator) (d : RouteDef) (cs : List Claim) :
    ((s.acceptRoute o d i cs).slot i).state = .setting ∨ ((s.acceptRoute o d i cs).slot i).state = .clearing := by
  unfold State.acceptRoute
  generalize hs1 : (s.modSlot i fun _ =>
    { Slot.start with route := some d.number, kind := some d.kind, originator := some o, state := .setting }) = s1
  have h1 : (s1.slot i).state = .setting := by rw [← hs1, State.modSlot_slot_at, if_pos ⟨rfl, h⟩]
  have setting : ∀ t, StatesKept s1 t → (t.slot i).state = .setting := fun t k => (k i).trans h1
  dsimp only
  rw [StatesKept.note _ _ i]
  refine tryClear_state (setting _ ?_)
  refine StatesKept.trans ?_ (StatesKept.modSlot _ i fun _ => rfl)
  refine StatesKept.trans ?_ (StatesKept.modSlot _ i fun _ => rfl)
  refine StatesKept.trans ?_ (StatesKept.each _ _ _ fun t x => StatesKept.post t i x.1 x.2)
  refine StatesKept.trans ?_ (StatesKept.modSlot _ i fun _ => rfl)
  refine StatesKept.trans ?_ (StatesKept.each _ _ _ fun t q => StatesKept.moveIfOther t q.1 q.2)
  refine StatesKept.trans ?_ (StatesKept.beginClaimMoves _ cs)
  refine StatesKept.trans ?_ (StatesKept.ite (StatesKept.of_rsu rfl) (StatesKept.refl _))
  refine StatesKept.trans ?_ (StatesKept.each _ _ _ StatesKept.noteClaimed)
  refine StatesKept.trans ?_ (StatesKept.each _ _ _ fun t c => StatesKept.addCount t c.what)
  refine StatesKept.trans ?_ (StatesKept.lockRoute _ i d)
  split
  · exact (StatesKept.takeOver s1 _ d).trans (StatesKept.note _ _)
  · exact StatesKept.refl s1

end Sys2Proof.Machine

/-! ### SET_ROUTE: its answers (R59, R64, R65) -/

namespace Sys2Proof.Machine

/-- The numbers of a SET_ROUTE that a field carries, in range. -/
theorem setRouteOk_iff {route store life : Nat} : (!routeInRange route || decide (1 < store) || decide (65535 < life)) = true ↔
    ¬(1 ≤ route ∧ route ≤ 512) ∨ 1 < store ∨ 65535 < life := by
  rw [Bool.or_eq_true, Bool.or_eq_true, Bool.not_eq_true', ← Bool.not_eq_true, routeInRange_iff, decide_eq_true_eq,
    decide_eq_true_eq, or_assoc]

/-- The answer to a SET_ROUTE with numbers in range, by what the checks come to. -/
theorem cmdSetRoute_cases {s : State} {o : Originator} {route store life : Nat} (h1 : 1 ≤ route) (h2 : route ≤ 512) (h3 : store ≤ 1)
    (h4 : life ≤ 65535) :
    (∀ r e, s.routeChecks o route false = .refused r e → r ≠ .conflict → s.cmdSetRoute o route store life = (s, r, elemContent e))
    ∧ (∀ e, s.routeChecks o route false = .refused .conflict e → ¬(store = 1 ∧ s.rsu.store.length < 16) →
        s.cmdSetRoute o route store life = (s, .conflict, elemContent e))
    ∧ (∀ e, s.routeChecks o route false = .refused .conflict e → store = 1 ∧ s.rsu.store.length < 16 →
        s.cmdSetRoute o route store life =
          ({ s with rsu.store := s.rsu.store ++ [⟨route, o, s.lifetimeOf life * 1000⟩] }, .stored, .none))
    ∧ ∀ d i cs, s.routeDef? route = some d → s.routeChecks o route false = .accepted i cs →
        s.cmdSetRoute o route store life =
          (s.acceptRoute o d i cs, .accepted, .slotState i ((s.acceptRoute o d i cs).slot i).state) := by
  unfold State.cmdSetRoute
  rw [if_neg (by rw [setRouteOk_iff]; omega)]
  refine ⟨fun r e h hr => ?_, fun e h hs => ?_, fun e h hs => ?_, fun d i cs hd h => ?_⟩
  · rw [h]
    cases r with
    | conflict => exact absurd rfl hr
    | _ => rfl
  · rw [h]; exact if_neg hs
  · rw [h]; exact if_pos hs
  · rw [h, hd]

theorem lifetimeOf_eq (s : State) (life : Nat) :
    s.lifetimeOf life = if life = 0 then s.defaultLifetime else if life < 10 then 10 else if 600 < life then 600 else life := by
  unfold State.lifetimeOf
  split
  · rfl
  · split
    · omega
    · split <;> omega

/-- Settles O25: the answers by what the checks come to, what each check tests, and the checks in their order. -/
theorem setRouteRow : Obligations.SetRouteRow := by
  refine ⟨fun s o tag route store life h => ?_, fun s d => ?_, fun s o route retry => ?_⟩
  · have ans {b : State} {r : Res} {x : Content} (e : s.cmdSetRoute o route store life = (b, r, x)) :=
      answered_of h (tag := tag) (c := .setRoute route store life) rfl rfl rfl rfl e
    refine ⟨fun hn => ans (if_pos (setRouteOk_iff.mpr hn)), fun h1 h2 h3 h4 => ?_⟩
    obtain ⟨refused, unstored, stored, accepted⟩ := cmdSetRoute_cases (s := s) (o := o) h1 h2 h3 h4
    obtain ⟨hop, hdef, hd⟩ := routeChecks_cases s o route false
    refine ⟨fun ho => ans (refused _ _ (hop ho) nofun), fun ho hu => ans (refused _ _ (hdef ho hu) nofun), fun d ho hr => ?_⟩
    obtain ⟨hno, hyes⟩ := hd d ho hr
    intro held twice
    have dup : ¬twice ↔ s.duplicate route false = false := by
      rw [duplicate_iff, not_or]
      exact and_congr_right fun _ => ⟨fun hn hx => absurd hx hn, fun hx hn => nomatch hx hn⟩
    refine ⟨fun hh => ans (refused _ _ (hno hh) nofun), fun hh ht => ?_, fun hh ht e he => ?_, fun hh ht hb e he => ?_,
      fun hh ht hb hf hk hp => ?_, fun hh ht hb hf hp => ?_⟩
    · exact ans (refused _ _ ((hyes hh).1 (by simpa using mt dup.mpr (not_not.mpr ht))) nofun)
    all_goals obtain ⟨hblocked, hfree⟩ := (hyes hh).2 (dup.mp ht)
    · exact ans (refused _ _ (hblocked e he) nofun)
    all_goals obtain ⟨hfaulty, hsound⟩ := hfree hb
    · exact ans (refused _ _ (hfaulty e he) nofun)
    all_goals obtain ⟨hdir, h8⟩ := hsound hf
    · refine ans (refused _ _ (hdir (Bool.eq_false_iff.mpr fun hu => ?_)) nofun)
      obtain ⟨hv, hl⟩ := portUsable_iff.mp hu hk
      exact hp.elim (fun hx => hx hv) fun hx => hx hl
    · have v8 := h8 (portUsable_iff.mpr hp)
      refine ⟨fun e he => ans (refused _ _ (v8.trans he) nofun), fun e he hs => ans (unstored _ (v8.trans he) (by omega)),
        fun e he hs hl => ?_, fun slot cs he => ?_⟩
      · rw [← lifetimeOf_eq]
        exact ans (stored _ (v8.trans he) ⟨hs, hl⟩)
      · exact ⟨acceptRoute_state (freeSlot_some (check8_accepted he)).1 o d cs, ans (accepted d slot cs hr (v8.trans he))⟩
  · intro n giver absent search free room
    obtain ⟨hfull, htaken, hfree⟩ := check8_cases s d
    have rooms : ∀ cs, s.hasRoom d cs = true ↔ room cs := fun cs => hasRoom_iff
    refine ⟨firstFailing_firstElement (fun _ => Iff.rfl) (fun q => ?_) ?_, firstFailing_firstElement (fun _ => decide_eq_true_iff)
      (fun _ => decide_eq_true_iff) ?_, donor_none, fun j => donor_some, rfl, rfl, rfl, rfl, rfl, rfl, fun hn => ?_, fun j hj => ?_,
      firstFailing_firstElement (fun _ => sectionTaken_iff) (fun _ => pointTaken_iff) ?_, hfull, htaken, fun hf ht => ?_⟩
    · simp [State.atRest]
    · simp
    · simp [sigCtrlLost_iff]
    · simp only [n, State.needOf, hn]
    · simp only [n, State.needOf, hj]
    · simp [Option.isSome_iff_ne_none]
    · obtain ⟨hlimit, hconflict, hroom, hnone⟩ := hfree hf ht
      exact ⟨hlimit, hconflict, fun cs hc hr => hroom cs hc ((rooms cs).mpr hr),
        fun cs hc hr => hnone cs hc (Bool.eq_false_iff.mpr (mt (rooms cs).mp hr))⟩
  · intro verdict live stored fresh
    obtain ⟨hop, hdef, hd⟩ := routeChecks_cases s o route retry
    refine ⟨hop, hdef, fun d ho hr => ?_⟩
    obtain ⟨hno, hyes⟩ := hd d ho hr
    have dup : fresh ↔ s.duplicate route retry = false := duplicate_iff.symm
    refine ⟨hno, fun hh hn => (hyes hh).1 (by simpa using mt dup.mpr hn), fun hh hn => ?_, fun hh hn hb => ?_,
      fun hh hn hb hf hu => ?_, fun hh hn hb hf hu => ?_⟩
    all_goals obtain ⟨hblocked, hfree⟩ := (hyes hh).2 (dup.mp hn)
    · exact hblocked
    · exact (hfree hb).1
    · exact ((hfree hb).2 hf).1 (Bool.eq_false_iff.mpr (mt portUsable_iff.mp hu))
    · exact ((hfree hb).2 hf).2 (portUsable_iff.mpr hu)

end Sys2Proof.Machine

/-! ### The fate of a telegram, and what disturbs a link (R142, R143, R145) -/

namespace Sys2Proof.Machine

/-! #### What a telegram that reads is made of (R142) -/

theorem length_of_mapM {α β : Type} {f : α → Option β} {l : List α} {r : List β} (h : l.mapM f = some r) : r.length = l.length := by
  induction l generalizing r with
  | nil => cases h; rfl
  | cons a l ih =>
    rw [List.mapM_cons] at h
    obtain ⟨b, -, h⟩ := bind_some h
    obtain ⟨bs, hbs, h⟩ := bind_some h
    cases h
    simp [ih hbs]

theorem readStatusBody_some {bs : List Byte} {m : TelBody} (h : readStatusBody bs = some m) : ∃ es rs as, m = .status es rs as
    ∧ es.length ≤ 16 ∧ rs.length ≤ 16 ∧ as.length ≤ 16 ∧ (rs.map Prod.fst).Nodup ∧ (as.map AnsItem.tag).Nodup := by
  unfold readStatusBody at h
  obtain ⟨⟨ports, r1⟩, -, h⟩ := bind_some h
  obtain ⟨⟨reqs, r2⟩, -, h⟩ := bind_some h
  obtain ⟨⟨as, r3⟩, -, h⟩ := bind_some h
  obtain ⟨es, hes, h⟩ := bind_some h
  obtain ⟨rs, -, h⟩ := bind_some h
  obtain ⟨is, -, h⟩ := bind_some h
  split at h
  · cases h
  · rename_i hn
    cases h
    have := length_of_mapM hes
    simp only [not_or, not_not, Nat.not_lt] at hn
    obtain ⟨-, hp, hr, ha, hnr, hna⟩ := hn
    exact ⟨es, rs, is, rfl, by omega, hr, ha, hnr, hna⟩

theorem readHello_kind {bs : List Byte} {m : TelBody} (h : readHello bs = some m) : ∃ seen ps, m = .hello seen ps := by
  unfold readHello at h
  obtain ⟨seen, -, h⟩ := bind_some h
  obtain ⟨⟨ps, rest⟩, -, h⟩ := bind_some h
  dsimp only at h
  split at h
  · cases h
  · obtain ⟨es, -, h⟩ := bind_some h
    cases h
    exact ⟨seen, es, rfl⟩

/-- The kind byte tells the content; a STATUS keeps R142's limits. -/
theorem readBody_some {kind : Nat} {bs : List Byte} {m : TelBody} (h : readBody kind bs = some m) : kind = m.kind
    ∧ ∀ es rs as, m = .status es rs as → es.length ≤ 16 ∧ rs.length ≤ 16 ∧ as.length ≤ 16
      ∧ (rs.map Prod.fst).Nodup ∧ (as.map AnsItem.tag).Nodup := by
  unfold readBody at h
  split at h
  · obtain ⟨seen, ps, rfl⟩ := readHello_kind h
    exact ⟨rfl, nofun⟩
  · obtain ⟨es, rs, as, rfl, hl⟩ := readStatusBody_some h
    refine ⟨rfl, fun es' rs' as' e => ?_⟩
    cases e
    exact hl
  · split at h
    · cases h; exact ⟨rfl, nofun⟩
    · cases h
  · cases h

/-- A byte of a telegram's body is a byte of the telegram. -/
theorem u8_body (bs : List Byte) {n i : Nat} (h : i < n) : u8 (((bs.drop 1).take (n + 1)).drop 1) i = u8 bs (i + 2) := by
  simp only [u8, List.getD_eq_getElem?_getD, List.getElem?_drop, List.getElem?_take]
  rw [if_pos (by omega), show 1 + (1 + i) = i + 2 by omega]

theorem readTelegram_some {bs : List Byte} {m : RecvTel} (h : readTelegram bs = some m) :
    (u8 bs 0 = 0x7E ∧ 6 ≤ u8 bs 1 ∧ bs.length = u8 bs 1 + 6
      ∧ bs.drop (u8 bs 1 + 2) = crc32Bytes (crc32 ((bs.drop 1).take (u8 bs 1 + 1)))
      ∧ u8 bs 2 = m.body.kind ∧ m.identity = u16 bs 3 ∧ m.complement = u16 bs 5 ∧ m.alive = u8 bs 7)
    ∧ ∀ es rs as, m.body = .status es rs as → es.length ≤ 16 ∧ rs.length ≤ 16 ∧ as.length ≤ 16
      ∧ (rs.map Prod.fst).Nodup ∧ (as.map AnsItem.tag).Nodup := by
  unfold readTelegram at h
  dsimp only at h
  split at h
  · rename_i hf
    obtain ⟨h0, h1, h2, h3⟩ := hf
    obtain ⟨b, hb, rfl⟩ := Option.map_eq_some_iff.mp h
    obtain ⟨hk, hl⟩ := readBody_some hb
    have at_ : ∀ i, i < 6 → u8 (((bs.drop 1).take (u8 bs 1 + 1)).drop 1) i = u8 bs (i + 2) := fun i hi => u8_body bs (by omega)
    refine ⟨⟨h0, h1, h2, h3, ?_, ?_, ?_, ?_⟩, hl⟩
    · rw [← at_ 0 (by omega), hk]
    · simp only [u16, at_ 1 (by omega), at_ (1 + 1) (by omega)]
    · simp only [u16, at_ 3 (by omega), at_ (3 + 1) (by omega)]
    · exact at_ 5 (by omega)
  · cases h

/-! #### Its fate -/

theorem sends_iff {s : State} {l : Nat} :
    s.sends l = true ↔ s.sds.active ≠ none ∧ (s.linkDef l).neighbour ≠ 0 ∧ l < s.bdu.links.length := by
  simp only [State.sends, State.equipped, Bool.and_eq_true, decide_eq_true_eq, Option.isSome_iff_ne_none]

theorem portsKnown_iff {k : Link} {b : TelBody} : portsKnown k b = true ↔
    ∀ es rs as, b = .status es rs as → ∀ nums, k.nbPorts = some nums → ∀ e ∈ es, e.num ∈ nums := by
  unfold portsKnown
  cases b with
  | status es rs as =>
    cases hk : k.nbPorts with
    | none => simp
    | some ps =>
      simp only [List.all_eq_true, List.contains_iff_mem, TelBody.status.injEq, Option.some.injEq]
      exact ⟨fun h es' _ _ ⟨he, _, _⟩ nums hn => he ▸ hn ▸ h, fun h => h es rs as ⟨rfl, rfl, rfl⟩ ps rfl⟩
  | _ => simp

/-- The sequence checks, each under its condition and none before. -/
theorem seqFate_cases (k : Link) (q : Nat) (b : TelBody) :
    (k.lastSeq = none → seqFate k q b = .accepted q b)
    ∧ ∀ last, k.lastSeq = some last →
      (q = last → seqFate k q b = .duplicate)
      ∧ (q ≠ last → q = (last + 1) % 16 ∨ q = (last + 2) % 16 → seqFate k q b = .accepted q b)
      ∧ (q ≠ last → q ≠ (last + 1) % 16 → q ≠ (last + 2) % 16 →
        (k.state = .hello ∨ k.state = .up → seqFate k q b = .jump)
        ∧ (k.state = .down ∨ k.state = .disturbed → seqFate k q b = .accepted q b)) := by
  unfold seqFate
  refine ⟨fun h => by rw [h], fun last h => ?_⟩
  rw [h]
  refine ⟨fun hq => if_pos hq, fun hq hn => ?_, fun hq h1 h2 => ?_⟩
  · exact (if_neg hq).trans (if_pos hn)
  · dsimp only
    rw [if_neg hq, if_neg (not_or.mpr ⟨h1, h2⟩)]
    exact ⟨fun hs => by rcases hs with hs | hs <;> rw [hs], fun hs => by rcases hs with hs | hs <;> rw [hs]⟩

/-- What a telegram that reads has to pass before its sequence (R142). -/
def State.sound (s : State) (l : Nat) (m : RecvTel) : Prop :=
  (∀ es rs as, m.body = .status es rs as → ∀ nums, (s.link l).nbPorts = some nums → ∀ e ∈ es, e.num ∈ nums)
    ∧ m.identity = (s.linkDef l).neighbour ∧ m.identity + m.complement = 65535 ∧ m.alive / 16 + m.alive % 16 = 15

theorem fate_of_sound {s : State} {l : Nat} {bs : List Byte} {m : RecvTel} (h : readTelegram bs = some m) :
    (¬s.sound l m → s.fate l bs = .discarded) ∧ (s.sound l m → s.fate l bs = seqFate (s.link l) (m.alive % 16) m.body) := by
  unfold State.fate State.sound
  rw [h, ← portsKnown_iff]
  dsimp only
  by_cases hk : portsKnown (s.link l) m.body = true
  · rw [if_neg (by simp [hk])]
    by_cases hi : m.identity ≠ (s.linkDef l).neighbour ∨ m.identity + m.complement ≠ 65535
    · rw [if_pos hi]
      exact ⟨fun _ => rfl, fun ⟨_, h1, h2, _⟩ => absurd hi (not_or.mpr ⟨not_not.mpr h1, not_not.mpr h2⟩)⟩
    · rw [if_neg hi]
      obtain ⟨h1, h2⟩ := not_or.mp hi
      by_cases ha : m.alive / 16 + m.alive % 16 ≠ 15
      · rw [if_pos ha]
        exact ⟨fun _ => rfl, fun ⟨_, _, _, h3⟩ => absurd h3 ha⟩
      · rw [if_neg ha]
        exact ⟨fun hn => absurd ⟨hk, not_not.mp h1, not_not.mp h2, not_not.mp ha⟩ hn, fun _ => rfl⟩
  · rw [if_pos (by simp [hk])]
    exact ⟨fun _ => rfl, fun h => absurd h.1 hk⟩

/-! #### What disturbs a link -/

/-- Two changes of a record that do the same to it. -/
theorem modify_congr_getD {α : Type} (l : List α) (d : α) {i : Nat} {f g : α → α} (h : f (l.getD i d) = g (l.getD i d)) :
    l.modify i f = l.modify i g := by
  rcases Nat.lt_or_ge i l.length with hi | hi
  · rw [modify_eq_set_getD l d hi, modify_eq_set_getD l d hi, h]
  · rw [List.modify_eq_self hi, List.modify_eq_self hi]

/-- A link at the entry into DISTURBED, in a state whose links otherwise are as in `s`. -/
theorem linksDown_row {s b : State} {l : Nat} (h : LinksDown s (fun x => decide (x = l)) b) (hl : l < s.bdu.links.length) :
    b.link l = (s.link l).disturbed ∧ (∀ j, j ≠ l → b.link j = s.link j) ∧ b.est = s.est ∧ b.rsu = s.rsu ∧ b.flu = s.flu
      ∧ b.mdc = s.mdc
      ∧ ((s.link l).state = .up →
        (∀ p ∈ s.portsOf l, p < s.bdu.ports.length → Ref.port p ∈ b.slu.noticeQ ∧ b.port p = (s.port p).fallen)
        ∧ (∀ p, p ∉ s.portsOf l → b.port p = s.port p) ∧ Ref.link l ∈ b.slu.noticeQ) := by
  have falls : ∀ p, s.falls (fun x => decide (x = l)) p ↔ p ∈ s.portsOf l ∧ (s.link l).state = .up := fun p => by
    simp only [State.falls, mem_portsOf, decide_eq_true_eq, and_assoc]
    exact and_congr_right fun _ => and_congr_right fun h => by rw [h]
  refine ⟨(h.link l).trans (if_pos ⟨decide_eq_true rfl, hl⟩), fun j hj => (h.link j).trans (if_neg fun hx => hj (of_decide_eq_true hx.1)),
    by rw [h.rest], by rw [h.rest], by rw [h.rest], by rw [h.rest], fun hu => ⟨fun p hp _ => ?_, fun p hp => ?_, ?_⟩⟩
  · obtain ⟨hf, hn⟩ := h.falls p ((falls p).mpr ⟨hp, hu⟩)
    exact ⟨hn, hf⟩
  · exact h.stays p fun hx => hp ((falls p).mp hx).1
  · exact h.noted l (decide_eq_true rfl) hu

theorem disturb_ports {s : State} {l : Nat} (h : (s.link l).state ≠ .up) : (s.disturb l).bdu.ports = s.bdu.ports := by
  show ((s.leaveUp l).modLink l _).bdu.ports = _
  rw [State.leaveUp, if_pos h]; rfl

/-- Every row a telegram may arrive by has the one meaning (log 34). -/
theorem acted_receive {s : State} {l : Nat} {bs : List Byte} (hp : s.mdc.power = .running) :
    Acted s (.telegramDiscarded l bs) (s.receive l bs) ∧ Acted s (.helloReceived l bs) (s.receive l bs)
      ∧ Acted s (.statusTelegramReceived l bs) (s.receive l bs) ∧ Acted s (.haltReceived l bs) (s.receive l bs)
      ∧ Acted s (.sequenceJump l bs) (s.receive l bs) := by
  refine ⟨?_, ?_, ?_, ?_, ?_⟩ <;> exact acted_of_act (fun t => t.receive l bs) hp rfl

theorem acted_timeout {s : State} {l : Nat} (hp : s.mdc.power = .running) :
    Acted s (.linkTimeout l) (if (s.link l).timeoutMs.isSome then s.disturb l else s) :=
  acted_of_act (fun t => if (t.link l).timeoutMs.isSome then t.disturb l else t) hp rfl

theorem receive_accepted {s : State} {l q : Nat} {bs : List Byte} {b : TelBody} (hs : s.sends l = true) (hf : s.fate l bs = .accepted q b) :
    s.receive l bs = s.takeTelegram l q b := by
  rw [State.receive, if_neg (by simp [hs]), hf]

theorem noteSequence_link (s : State) {l : Nat} (q : Nat) (hl : l < s.bdu.links.length) : (s.noteSequence l q).link l =
    { s.link l with lastSeq := some q, timeoutMs :=
        if (s.link l).state = .hello ∨ (s.link l).state = .up then some s.linkTimeoutMs else (s.link l).timeoutMs } := by
  show (s.modLink l _).link l = _
  rw [State.modLink_link_at, if_pos ⟨rfl, hl⟩]

theorem noteSequence_other (s : State) {l j : Nat} (q : Nat) (hj : j ≠ l) : (s.noteSequence l q).link j = s.link j := by
  show (s.modLink l _).link j = _
  rw [State.modLink_link_at, if_neg fun h => hj h.1.symm]

theorem noteSequence_links (s : State) (l q : Nat) : (s.noteSequence l q).bdu.links.length = s.bdu.links.length :=
  List.length_modify ..

/-- On a DISTURBED link no timeout is started. -/
theorem noteSequence_disturbed {s : State} {l q : Nat} (h : (s.link l).state = .disturbed) :
    s.noteSequence l q = { s with bdu.links := s.bdu.links.modify l fun x => { x with lastSeq := some q } } := by
  have h' : (s.bdu.links.getD l Link.start).state = .disturbed := h
  refine congrArg (fun ls => { s with bdu.links := ls }) (modify_congr_getD _ Link.start ?_)
  simp only [h', reduceCtorEq, or_self, if_false]

theorem takeTelegram_halt {s : State} {l q : Nat} (h : s.haltedNow = false) :
    s.takeTelegram l q .halt = (s.noteSequence l q).actTelegram l .halt := if_neg (by simp [h])

theorem actTelegram_halt_disturbs {s : State} {l q : Nat} (hl : l < s.bdu.links.length) (h : (s.link l).state ≠ .disturbed) :
    (s.noteSequence l q).actTelegram l .halt = (s.noteSequence l q).disturb l := by
  have hs : ((s.noteSequence l q).link l).state = (s.link l).state := by rw [noteSequence_link s q hl]
  unfold State.actTelegram
  rw [hs]
  cases hk : (s.link l).state with
  | disturbed => exact absurd hk h
  | _ => rfl

theorem actTelegram_halt_stays {s : State} {l q : Nat} (hl : l < s.bdu.links.length) (h : (s.link l).state = .disturbed) :
    (s.noteSequence l q).actTelegram l .halt = s.noteSequence l q := by
  have hs : ((s.noteSequence l q).link l).state = .disturbed := by rw [noteSequence_link s q hl]; exact h
  unfold State.actTelegram
  rw [hs]

/-- Settles O49: what leaves a telegram without effect, the entry into DISTURBED (`LinksDown`), and the checks in their order. -/
theorem telegramIgnoredOrDisturbing : Obligations.TelegramIgnoredOrDisturbing := by
  refine ⟨fun s l bs hp => ⟨fun h => ?_, fun h => ?_⟩, fun s l bs hp hl => ?_, fun s l bs => ?_⟩
  · have : s.receive l bs = s := by
      unfold State.receive
      by_cases hs : s.sends l = true
      · rw [if_neg (by simp [hs])]
        rcases h with h | h | h
        · rw [hs] at h; cases h
        · rw [h]
        · rw [h]
      · rw [if_pos (by simpa using hs)]
    have received := acted_receive (l := l) (bs := bs) hp
    rwa [this] at received
  · have timeout := acted_timeout (l := l) hp
    rwa [if_neg (by simp [h])] at timeout
  · intro disturbed
    have disturbs : disturbed none (s.disturb l) := by
      obtain ⟨hk, hj, he, hr, hf, hm, hu⟩ := linksDown_row (linksDown_one s l) hl
      exact ⟨hk, hj, he, hr, hf, hm, disturb_ports, hu⟩
    refine ⟨fun ht => ⟨_, acted_timeout hp, ?_⟩, fun hs hf => ⟨_, (acted_receive hp).2.2.2.2, ?_⟩,
      fun q hs hf hh hd => ⟨_, (acted_receive hp).2.2.2.1, ?_⟩, fun q hs hf hh hd => ?_⟩
    · rw [if_pos ht]; exact disturbs
    · rw [State.receive, if_neg (by simp [hs]), hf]; exact disturbs
    · rw [receive_accepted hs hf, takeTelegram_halt hh, actTelegram_halt_disturbs hl hd]
      obtain ⟨hk, hj, he, hr, hfl, hm, hu⟩ := linksDown_row (linksDown_one (s.noteSequence l q) l) (hl.trans_eq (noteSequence_links s l q).symm)
      rw [noteSequence_link s q hl] at hk hu
      refine ⟨hk, fun j hj' => (hj j hj').trans (noteSequence_other s q hj'), he, hr, hfl, hm, fun hn => ?_, hu⟩
      exact disturb_ports (by rw [noteSequence_link s q hl]; exact hn)
    · have haltEvent := (acted_receive (l := l) (bs := bs) hp).2.2.2.1
      rwa [receive_accepted hs hf, takeTelegram_halt hh, actTelegram_halt_stays hl hd, noteSequence_disturbed hd] at haltEvent
  · intro k
    refine ⟨sends_iff, fun h => ?_, fun m hm => ?_⟩
    · rw [State.fate, h]
    · intro q known good
      obtain ⟨hform, hlists⟩ := readTelegram_some hm
      obtain ⟨hbad, hgood⟩ := fate_of_sound (s := s) (l := l) hm
      obtain ⟨hfirst, hlater⟩ := seqFate_cases k q m.body
      refine ⟨hform, hlists, hbad, fun hg hn => ?_, fun hg last hq => ?_⟩
      · rw [hgood hg]; exact hfirst hn
      · rw [hgood hg]; exact hlater last hq

end Sys2Proof.Machine

/-! ### What a link sends, and what the neighbour's answers do (R141, R144, R147, R154, R158, R163) -/

namespace Sys2Proof.Machine

/-! #### The telegrams of this part -/

theorem content_eq (s : State) (l : Nat) : s.content l = if s.haltedNow then TelBody.halt
    else if (s.link l).state = .up ∨ ((s.link l).state = .hello ∧ (s.link l).answered = true) then s.statusBody l
    else s.helloBody l (decide ((s.link l).state = .hello) && (s.link l).seen) := by
  unfold State.content
  by_cases hh : s.haltedNow = true
  · simp [hh]
  · simp only [hh]
    cases (s.link l).state <;> simp

/-- Sending on a link: its record takes the telegram and the next sequence. -/
theorem send_eq (s : State) (l : Nat) : s.send l = { s with bdu.links := s.bdu.links.modify l fun x =>
    { x with lastSent := some ⟨s.image.identity, s.content l, (s.link l).nextSeq⟩, nextSeq := ((s.link l).nextSeq + 1) % 16,
             sinceMs := some 0 } } := by
  refine congrArg (fun ls => { s with bdu.links := ls }) (modify_congr_getD s.bdu.links Link.start ?_)
  rfl

theorem hasSent_iff {s : State} {l : Nat} (hp : s.mdc.power = .running) :
    s.hasSent l = true ↔ s.sends l = true ∧ (s.link l).sinceMs.isSome = true := by
  simp [State.hasSent, State.running, hp]

theorem changed_iff {s : State} {l : Nat} : s.changed l = true ↔ (s.link l).lastSent.map SentTel.body ≠ some (s.content l) :=
  decide_eq_true_iff

/-- The timer's row and the spacing's row, by what the link has sent. -/
theorem send_rows {s : State} (l : Nat) (hp : s.mdc.power = .running) :
    (s.sends l = true → (s.link l).sinceMs.isSome = true → exec (.telegramSendTimer l) s = .next (s.send l))
    ∧ (s.sends l = true → (s.link l).sinceMs.isSome = true → s.changed l = true → exec (.telegramChangeSpacing l) s = .next (s.send l))
    ∧ (s.changed l = false → exec (.telegramChangeSpacing l) s = .next s)
    ∧ (s.sends l = false ∨ (s.link l).sinceMs = none →
      exec (.telegramSendTimer l) s = .next s ∧ exec (.telegramChangeSpacing l) s = .next s) := by
  have timer : exec (.telegramSendTimer l) s = .next (if s.hasSent l then s.send l else s) := rfl
  have spacing : exec (.telegramChangeSpacing l) s = .next (if s.hasSent l && s.changed l then s.send l else s) := rfl
  rw [timer, spacing]
  refine ⟨fun hs hn => ?_, fun hs hn hc => ?_, fun hc => ?_, fun h => ?_⟩
  · rw [if_pos ((hasSent_iff hp).mpr ⟨hs, hn⟩)]
  · rw [if_pos (Bool.and_eq_true_iff.mpr ⟨(hasSent_iff hp).mpr ⟨hs, hn⟩, hc⟩)]
  · rw [if_neg (by simp [hc])]
  · have : s.hasSent l = false := Bool.eq_false_iff.mpr fun hx => by
      obtain ⟨hs, hn⟩ := (hasSent_iff hp).mp hx
      rcases h with h | h
      · rw [h] at hs; cases hs
      · rw [h] at hn; cases hn
    rw [this]
    exact ⟨rfl, rfl⟩

/-! #### What a telegram holds -/

theorem view_sent (v : View) : (v = .neutral → v.sent = .neutral) ∧ (v = .out → v.sent = .outMine) ∧ (v = .into → v.sent = .inYours)
    ∧ (v = .requesting → v.sent = .requesting) := by
  cases v <;> simp [View.sent]

theorem answers_eq (k : Link) : k.answers = (k.table.flatMap Option.toList).map fun y => ⟨y.tag, y.status⟩ := by
  unfold Link.answers
  induction k.table with
  | nil => rfl
  | cons x l ih => cases x <;> simp [ih]

theorem accAnswer_cases (q : Port) : (q.inc = .none → q.accAnswer = .none) ∧ (q.inc = .refused → q.accAnswer = .refused)
    ∧ (q.inc = .waiting ∨ q.inc = .receiving ∨ q.inc = .completed → q.accAnswer = .granted) := by
  unfold Port.accAnswer
  cases q.inc <;> simp

/-! #### The neighbour's answers -/

theorem answered_link (r : RemoteReq) (a : Option AnsStatus) : (r.answered a).link = r.link ∧ (r.answered a).tag = r.tag := by
  unfold RemoteReq.answered
  split
  · exact ⟨rfl, rfl⟩
  · exact ⟨rfl, rfl⟩
  · split <;> exact ⟨rfl, rfl⟩

theorem answered_refused (r : RemoteReq) (why : Option Reason) :
    r.answered (some (.refused why)) = { r with status := .refused, reason := if why = none then r.reason else why } := by
  cases why <;> simp [RemoteReq.answered]

/-- WORKING, and no answer. -/
theorem answered_open (r : RemoteReq) {x : Option AnsStatus} (h : x = none ∨ x = some .working) :
    (r.status = .pending ∨ r.status = .refused → r.answered x = r)
    ∧ (r.status = .granted → r.answered x = { r with status := .refused, reason := none }) := by
  have e : r.answered x = match r.status with
      | .pending => r
      | .granted => { r with status := .refused, reason := none }
      | .refused => r := by
    rcases h with rfl | rfl <;> rfl
  rw [e]
  exact ⟨fun hs => by rcases hs with hs | hs <;> rw [hs], fun hs => by rw [hs]⟩

/-- An answer written into a slot's requests: those of the link with the tag take it. -/
theorem writeAnswer_slot (s : State) (i l tag : Nat) (a : Option AnsStatus) (j : Nat) : (s.writeAnswer i l tag a).slot j =
    { s.slot j with remote := (s.slot j).remote.map fun r => if i = j ∧ r.link = l ∧ r.tag = tag then r.answered a else r } := by
  unfold State.writeAnswer
  rw [State.modSlot_slot_at]
  by_cases hj : i = j
  · by_cases hlt : j < s.rsu.slots.length
    · simp [hj, hlt]
    · simp [hlt, slot_of_le (Nat.le_of_not_lt hlt), Slot.start]
  · simp [hj]

/-- The list of a link's outgoing requests names the request `x` of slot `i`. -/
def askedBy (l : Nat) (os : List OutReq) (i : Nat) (x : RemoteReq) : Bool :=
  decide (x.link = l) && os.any fun o => decide (o.slot = i ∧ o.tag = x.tag)

theorem askedBy_iff {l : Nat} {os : List OutReq} {i : Nat} {x : RemoteReq} :
    askedBy l os i x = true ↔ x.link = l ∧ ∃ o ∈ os, o.slot = i ∧ o.tag = x.tag := by
  simp [askedBy]

/-- The answers of a list of requests with distinct tags: each request named takes the answer for its tag, once. -/
theorem each_writeAnswer_slot (l : Nat) (f : Nat → Option AnsStatus) {os : List OutReq} (hn : (os.map OutReq.tag).Nodup) (s : State)
    (i : Nat) : (s.each os fun t o => t.writeAnswer o.slot l o.tag (f o.tag)).slot i =
      { s.slot i with remote := (s.slot i).remote.map fun x => if askedBy l os i x then x.answered (f x.tag) else x } := by
  unfold State.each
  induction os generalizing s with
  | nil => simp [askedBy]
  | cons o os ih =>
    obtain ⟨ho, hn⟩ := List.nodup_cons.mp hn
    rw [List.foldl_cons, ih hn, writeAnswer_slot]
    dsimp only
    rw [List.map_map]
    congr 1
    refine List.map_congr_left fun x _ => ?_
    have later : ∀ y : RemoteReq, y.tag = o.tag → askedBy l os i y = false := fun y hy => by
      rw [← Bool.not_eq_true, askedBy_iff]
      rintro ⟨-, o', ho', -, ht⟩
      exact ho (List.mem_map.mpr ⟨o', ho', ht.trans hy⟩)
    by_cases hx : o.slot = i ∧ x.link = l ∧ x.tag = o.tag
    · obtain ⟨hs, hl, ht⟩ := hx
      have now : askedBy l (o :: os) i x = true := askedBy_iff.mpr ⟨hl, o, List.mem_cons_self, hs, ht.symm⟩
      simp only [Function.comp, hs, hl, ht, and_self, if_true, now, later _ ((answered_link x _).2.trans ht), Bool.false_eq_true, if_false]
    · have same : askedBy l (o :: os) i x = askedBy l os i x := by
        rw [Bool.eq_iff_iff, askedBy_iff, askedBy_iff]
        simp only [List.mem_cons, exists_eq_or_imp]
        refine and_congr_right fun hl => or_iff_right fun ⟨hs, ht⟩ => hx ⟨hs, hl, ht.symm⟩
      simp only [Function.comp, hx, if_false, same]

theorem each_writeAnswer_rest (l : Nat) (f : Nat → Option AnsStatus) (os : List OutReq) (s : State) :
    (s.each os fun t o => t.writeAnswer o.slot l o.tag (f o.tag)) =
      { s with rsu.slots := (s.each os fun t o => t.writeAnswer o.slot l o.tag (f o.tag)).rsu.slots } := by
  unfold State.each
  induction os generalizing s with
  | nil => rfl
  | cons o os ih => rw [List.foldl_cons, ih]; rfl

theorem accStatus_eq (a : AccAns) : a.status = match a with
    | .none => none
    | .granted => some AnsStatus.granted
    | .refused => some (AnsStatus.refused none) := by cases a <;> rfl

/-- A port that has no request out: the answer is recorded, no more. -/
theorem takeAccAns_none {s : State} {p : Nat} (a : AccAns) (tag : Option Nat) (h : (s.port p).outAcc = none) :
    s.takeAccAns p a tag = s.modPort p fun x => { x with nbAcc := a, nbAccTag := if a = .none then none else tag } := by
  simp only [State.takeAccAns, h]

/-- The answer counts for the tag of the request that is out. -/
theorem takeAccAns_some {s : State} {p m i : Nat} (a : AccAns) (tag : Option Nat) (h : (s.port p).outAcc = some (m, i)) :
    s.takeAccAns p a tag = (s.modPort p fun x => { x with nbAcc := a, nbAccTag := if a = .none then none else tag }).writeAnswer i
      (s.portDef p).link m (if tag = some m then a.status else none) := by
  simp only [State.takeAccAns, h]

/-- Settles O51: the rows by what a link has sent, the fields of each telegram, and the answers written into the requests they name. -/
theorem telegramSendRows : Obligations.TelegramSendRows := by
  refine ⟨fun s l hp => ?_, fun s l p r as a tag => ?_⟩
  · intro k body sent
    have hb : s.content l = body := content_eq s l
    have hsent : s.send l = sent := by rw [send_eq, hb]
    obtain ⟨timer, spacing, same, none⟩ := send_rows (s := s) l hp
    rw [hsent] at timer spacing
    rw [changed_iff, hb] at spacing
    refine ⟨timer, fun hs hn => spacing hs hn, fun _ hc => same ?_, none, ?_⟩
    · rw [← Bool.not_eq_true, changed_iff, hb]; exact not_not.mpr hc
    · refine ⟨portsOf_sorted s l, fun p => mem_portsOf, fun seen => ⟨_, rfl, List.length_map .., fun n p hn => ?_⟩,
        _, _, _, rfl, List.length_map .., rfl, answers_eq k, fun n p hn => ?_⟩
      · exact ⟨⟨p, (s.portDef p).yields, (s.port p).view.sent⟩, by rw [List.getElem?_map, hn]; rfl, rfl, rfl, view_sent _⟩
      · obtain ⟨noAnswer, refusal, grant⟩ := accAnswer_cases (s.port p)
        refine ⟨s.portEntry p, by rw [List.getElem?_map, hn]; rfl, rfl, view_sent _, rfl, rfl, fun h => ?_, fun m j h => ?_,
          fun h => ⟨noAnswer h, if_pos (noAnswer h)⟩, fun h => ⟨refusal h, if_neg (by rw [refusal h]; decide)⟩,
          fun h => ⟨grant h, if_neg (by rw [grant h]; decide)⟩⟩
        · simp [State.portEntry, h]
        · simp [State.portEntry, h]
  · refine ⟨rfl, answered_refused r, fun x => answered_open r, fun hn => ?_, fun hp => ?_⟩
    · intro t asked
      have slots := each_writeAnswer_slot l (fun n => (as.find? fun y : AnsItem => y.tag = n).map AnsItem.status) hn s
      refine ⟨each_writeAnswer_rest l (fun n => (as.find? fun y : AnsItem => y.tag = n).map AnsItem.status) (s.link l).outgoing s,
        fun i => ?_⟩
      have slot : t.slot i = _ := slots i
      rw [slot]
      refine ⟨rfl, List.length_map .., fun j x hx => ?_⟩
      rw [List.getElem?_map, hx, Option.map_some]
      exact ⟨fun ha => congrArg some (if_pos (askedBy_iff.mpr ha)), fun ha => congrArg some (if_neg (mt askedBy_iff.mp ha))⟩
    · intro t given
      have hg : a.status = given := accStatus_eq a
      cases ho : (s.port p).outAcc with
      | none =>
        have ht : t = _ := takeAccAns_none a tag ho
        rw [ht]
        exact ⟨rfl, fun _ => rfl, nofun⟩
      | some x =>
        obtain ⟨m, i⟩ := x
        have ht : t = _ := takeAccAns_some a tag ho
        rw [ht, hg]
        refine ⟨rfl, nofun, fun m' j e => ?_⟩
        cases e
        refine ⟨fun i' hi => ?_, ?_⟩
        · rw [writeAnswer_slot]
          simp [Ne.symm hi]
        · rw [writeAnswer_slot]
          simp

end Sys2Proof.Machine

/-! ### The sweep of a section, and the expiries of a throw, a stored request and a two-step window (R26, R31, R81, R172) -/

namespace Sys2Proof.Machine

/-- Settles O36: the report's own table, row by row. -/
theorem sweepTable : Obligations.SweepTable := by
  rintro ⟨occ, sweep, last, owner, kind, claims, u, v, q⟩ (rfl : occ = .disturbed)
  refine ⟨?_, ?_⟩
  · rintro (rfl : sweep = false)
    exact ⟨rfl, rfl, rfl⟩
  · rintro (rfl : sweep = true)
    exact ⟨rfl, rfl, rfl, Occ.noConfusion, rfl⟩

/-- An event of the part whose change comes to `b`. -/
theorem acted_of_act_eq {s b : State} {i : Instr} (f : State → State) (hp : s.mdc.power = .running)
    (hi : exec i s = .next (s.act f)) (hb : f s = b) : Acted s i b := hb ▸ acted_of_act f hp hi

/-- Settles O33: each expiry by whether what it ends runs or stands. -/
theorem throwStoreWindowExpiryRows : Obligations.ThrowStoreWindowExpiryRows := by
  intro s i route hp
  have throws := fun b => acted_of_act_eq (i := .throwTimerExpiry i) (b := b) (fun t => t.throwExpiry i) hp rfl
  have leaves := fun b => acted_of_act_eq (i := .storeEntryExpiry route) (b := b) (fun t => t.expireEntry route) hp rfl
  have stored : (s.rsu.store.any fun e => decide (e.route = route)) = true ↔ ∃ e ∈ s.rsu.store, e.route = route := by simp
  refine ⟨fun h => throws _ (if_neg ?_), fun h => throws _ (if_pos ?_), fun h => leaves _ (if_pos (stored.2 h)),
    fun h => leaves _ (if_neg (mt stored.1 h)), ?_, ?_⟩
  · rw [Option.isNone_iff_eq_none]
    exact Option.isSome_iff_ne_none.1 h
  · rw [h]; rfl
  · exact congrArg Host.Outcome.next (if_pos (decide_eq_true hp))
  · exact congrArg Host.Outcome.next (if_pos (decide_eq_true hp))

end Sys2Proof.Machine

/-! ### RESTORE_SECTION and REMOVE_RESTRICTION (R27, R40, R176, R178) -/

namespace Sys2Proof.Machine

/-- An EXECUTE whose checks pass: the gate is emptied and the inner command acts (R174). A RESTART's start is another matter. -/
theorem answered_execute {s : State} (h : s.ready) {o : Originator} {tag : Nat} {x : Inner} (hs : innerSized x = true)
    (hk : ∀ k, x ≠ .restart k) (hg : s.preparedFor o x) (hw : s.innerRefusal o x = none) {b : State} {r : Res} {y : Content}
    (e : (s.setGate o none).innerAct o x = (b, r, y)) : ∃ t, Answered s (.execute o tag x) (.reply tag 19 o r y) b t := by
  refine answered_of (c := .execute x) h hs rfl rfl ?_ ?_
  · unfold State.restartOf
    split
    · rename_i k hx
      exact absurd (Cmd.execute.inj hx) (hk k)
    · rfl
  · show s.cmdExecute o x = _
    rw [State.cmdExecute, (executeRefusal_prepared hg).trans hw, ← e]

/-! #### RESTORE_SECTION -/

/-- The checks of RESTORE_SECTION, read off the records (R27). -/
theorem restoreRefusal_eq (s : State) (o : Originator) (k : Nat) : s.restoreRefusal o k =
    if 240 ≤ k then some .badParameter
    else if s.image.sections.length ≤ k then some .unknown
    else if s.holds o (s.secDef k).area = false then some .notInControl
    else if s.operational = false then some .notOperational
    else if (s.sec k).occ ≠ .disturbed then some .notPermitted
    else if (s.sec k).owner ≠ none then some .inUse
    else if (s.sec k).last = .clear ∨ (s.sec k).last = .occupied then none else some .fault := by
  simp only [State.restoreRefusal, State.defined, Bool.not_eq_true', decide_eq_false_iff_not, not_lt,
    Option.isSome_iff_ne_none, Config.maxSections]
  cases (s.sec k).last <;> simp

/-- What RESTORE_SECTION gives a section whose last report is CLEAR or OCCUPIED. -/
theorem restore_eq {s : State} {k : Nat} (h : (s.sec k).last = .clear ∨ (s.sec k).last = .occupied) : s.restore k =
    { s with est.sections := s.est.sections.modify k fun r =>
        { r with occ := if r.last = .clear then .clear else .occupied, sweep := false } } := by
  have occ : (s.sec k).last.occ = if (s.sec k).last = .clear then .clear else .occupied := by
    rcases h with h | h <;> rw [h] <;> rfl
  have e : s.est.sections.modify k (fun r => { r with occ := r.last.occ, sweep := false })
      = s.est.sections.modify k fun r => { r with occ := if r.last = .clear then .clear else .occupied, sweep := false } :=
    modify_congr_getD _ SectionRec.start
      (show { s.sec k with occ := (s.sec k).last.occ, sweep := false }
        = { s.sec k with occ := if (s.sec k).last = .clear then .clear else .occupied, sweep := false } by rw [occ])
  rw [State.restore, State.modSec, e]

/-- Settles O40: the two-step treatment with the checks of R27, and the section taken back. -/
theorem restoreSectionRow : Obligations.RestoreSectionRow := by
  intro s o tag k h
  refine ⟨restoreRefusal_eq s o k ▸ twoStep_of_alone h o tag (c := .restoreSection k) rfl, fun hg hw => ?_⟩
  have hr : s.restoreRefusal o k = none := (restoreRefusal_eq s o k).trans hw
  have hl : (s.sec k).last = .clear ∨ (s.sec k).last = .occupied := by
    by_contra hn
    rw [if_neg hn] at hw
    repeat' (split at hw; cases hw)
    cases hw
  refine answered_execute h rfl (fun _ e => by cases e) hg hr ?_
  show ((s.setGate o none).restore k, _, _) = _
  cases o <;> exact congrArg (·, _, _) (restore_eq hl)

/-! #### REMOVE_RESTRICTION -/

/-- The checks of REMOVE_RESTRICTION on a restriction that reads (R178). -/
theorem removeRefusal_of {s : State} {o : Originator} {cls idx code : Nat} {x : Restriction}
    (h : readRestriction cls idx code 0 = some x) : s.removeRefusal o cls idx code =
    if ¬(s.mdc.mode = .starting ∨ s.mdc.mode = .operational) then some .notOperational
    else if s.defined x.elem = false then some .unknown
    else if s.holds o (s.areaOf x.elem) = false then some .notInControl
    else if s.restrictionInUse x = true then some .inUse else none := by
  have hm : (!s.startingOrOperational) = true ↔ ¬(s.mdc.mode = .starting ∨ s.mdc.mode = .operational) := by
    rw [← startingOrOperational_iff]; simp
  simp only [State.removeRefusal, h, State.restrictionRefusal, hm, Bool.not_eq_true']
  by_cases h1 : s.mdc.mode = .starting ∨ s.mdc.mode = .operational
  · cases s.defined x.elem <;> cases s.holds o (s.areaOf x.elem) <;> simp [h1]
  · simp [h1]

/-- Removing a restriction rewrites one set of its class: the named restriction goes, the others stay (R40). -/
theorem removeRestriction_sec {idx code : Nat} (s : State) (hc : code = 0 ∨ code = 1) :
    s.removeRestriction (secRestriction idx code 0) = s.setSecRestr idx { s.secRestr idx with
      noRoute := (s.secRestr idx).noRoute && decide (code ≠ 0), speed := if code = 1 then none else (s.secRestr idx).speed } := by
  rcases hc with rfl | rfl <;> simp [secRestriction, State.removeRestriction]

theorem removeRestriction_pt {idx code : Nat} (s : State) (hc : code = 0 ∨ code = 2 ∨ code = 3) :
    s.removeRestriction (ptRestriction idx code) = s.setPtRestr idx
      { noRoute := (s.ptRestr idx).noRoute && decide (code ≠ 0), noMove := (s.ptRestr idx).noMove && decide (code ≠ 2)
        noFlankMove := (s.ptRestr idx).noFlankMove && decide (code ≠ 3) } := by
  rcases hc with rfl | rfl | rfl <;> simp [ptRestriction, State.removeRestriction]

theorem removeRestriction_sig {idx code : Nat} (s : State) (hc : code = 0 ∨ code = 4) :
    s.removeRestriction (sigRestriction idx code) = s.setSigRestr idx
      { noRoute := (s.sigRestr idx).noRoute && decide (code ≠ 0), noClear := (s.sigRestr idx).noClear && decide (code ≠ 4) } := by
  rcases hc with rfl | rfl <;> simp [sigRestriction, State.removeRestriction]

/-- A set read after one set of a canonical table has been written. -/
theorem get_set_canonical {α : Type} [DecidableEq α] {d : α} {l : List (Nat × α)} (h : Sparse.wf d l = true) (i j : Nat) (f : α → α) :
    Sparse.get d (Sparse.set d l i (f (Sparse.get d l i))) j = if j = i then f (Sparse.get d l j) else Sparse.get d l j := by
  rw [Sparse.get_set h]
  by_cases e : j = i
  · rw [if_pos e, if_pos e.symm, e]
  · rw [if_neg e, if_neg (Ne.symm e)]

/-- Settles O41: a restriction of each class by its codes, the two-step treatment, and the set of its element read back. -/
theorem removeRestrictionRow : Obligations.RemoveRestrictionRow := by
  intro s o tag cls idx code h hc x secOk ptOk sigOk defined held used why
  have executes : ∀ (y : Restriction), s.removeRefusal o cls idx code = none → readRestriction cls idx code 0 = some y →
      s.preparedFor o x → ∃ t, Answered s (.execute o tag x) (.reply tag 19 o .done .none) ((s.setGate o none).removeRestriction y) t :=
    fun y hr hy hg => answered_execute h rfl (fun _ e => by simp [x] at e) hg hr (by simp only [x, State.innerAct, State.removeNow, hy])
  have two : s.removeRefusal o cls idx code = why →
      TwoStep s o tag x (.removeRestriction o tag cls idx code) why := fun e =>
    e ▸ twoStep_of_alone h o tag (x := x) (c := .removeRestriction cls idx code) rfl
  by_cases ok : secOk ∨ ptOk ∨ sigOk
  · rcases ok with ⟨rfl, hi, hcode⟩ | ⟨rfl, hi, hcode⟩ | ⟨rfl, hi, hcode⟩
    · have hx := readRestriction_sec (value := 0) hi (by simpa using hcode)
      have e : s.removeRefusal o 0 idx code = why := by
        rw [removeRefusal_of hx]
        rcases hcode with rfl | rfl <;>
          simp [why, secOk, defined, held, used, hi, secRestriction, Restriction.elem, State.defined, State.areaOf,
            State.restrictionInUse, Option.isSome_iff_ne_none]
      refine ⟨two e, fun hg hw => ?_⟩
      obtain ⟨t, ht⟩ := executes _ (e.trans hw) hx hg
      rw [removeRestriction_sec _ hcode] at ht
      refine ⟨_, t, ht, rfl, fun j => ?_, fun j => ?_, fun j => ?_⟩
      · simp only [true_and]
        cases o <;> exact get_set_canonical hc.secRestr idx j fun r =>
          { r with noRoute := r.noRoute && decide (code ≠ 0), speed := if code = 1 then none else r.speed }
      · exact (show _ = s.ptRestr j by cases o <;> rfl).trans (if_neg (by simp)).symm
      · exact (show _ = s.sigRestr j by cases o <;> rfl).trans (if_neg (by simp)).symm
    · have hx := readRestriction_pt 0 hi hcode
      have e : s.removeRefusal o 1 idx code = why := by
        rw [removeRefusal_of hx]
        rcases hcode with rfl | rfl | rfl <;>
          simp [why, ptOk, defined, held, used, hi, ptRestriction, Restriction.elem, State.defined, State.areaOf,
            State.restrictionInUse, Option.isSome_iff_ne_none]
      refine ⟨two e, fun hg hw => ?_⟩
      obtain ⟨t, ht⟩ := executes _ (e.trans hw) hx hg
      rw [removeRestriction_pt _ hcode] at ht
      refine ⟨_, t, ht, rfl, fun j => ?_, fun j => ?_, fun j => ?_⟩
      · exact (show _ = s.secRestr j by cases o <;> rfl).trans (if_neg (by simp)).symm
      · simp only [true_and]
        cases o <;> exact get_set_canonical hc.ptRestr idx j fun r =>
          { noRoute := r.noRoute && decide (code ≠ 0), noMove := r.noMove && decide (code ≠ 2)
            noFlankMove := r.noFlankMove && decide (code ≠ 3) }
      · exact (show _ = s.sigRestr j by cases o <;> rfl).trans (if_neg (by simp)).symm
    · have hx := readRestriction_sig 0 hi hcode
      have e : s.removeRefusal o 2 idx code = why := by
        rw [removeRefusal_of hx]
        rcases hcode with rfl | rfl <;>
          simp [why, sigOk, defined, held, used, hi, sigRestriction, Restriction.elem, State.defined, State.areaOf,
            State.restrictionInUse, Option.isSome_iff_ne_none]
      refine ⟨two e, fun hg hw => ?_⟩
      obtain ⟨t, ht⟩ := executes _ (e.trans hw) hx hg
      rw [removeRestriction_sig _ hcode] at ht
      refine ⟨_, t, ht, rfl, fun j => ?_, fun j => ?_, fun j => ?_⟩
      · exact (show _ = s.secRestr j by cases o <;> rfl).trans (if_neg (by simp)).symm
      · exact (show _ = s.ptRestr j by cases o <;> rfl).trans (if_neg (by simp)).symm
      · simp only [true_and]
        cases o <;> exact get_set_canonical hc.sigRestr idx j fun r =>
          { noRoute := r.noRoute && decide (code ≠ 0), noClear := r.noClear && decide (code ≠ 4) }
  · have e : s.removeRefusal o cls idx code = why := by
      rw [State.removeRefusal, readRestriction_none (fun hn => ok (by simpa [secOk, ptOk, sigOk] using hn))]
      exact (if_pos ok).symm
    refine ⟨two e, fun _ hw => ?_⟩
    rw [show why = _ from if_pos ok] at hw
    cases hw

end Sys2Proof.Machine

/-! ### What follows an act: its order, its notes, the flank marks (R41, R80, R82, R100, R184) -/

namespace Sys2Proof.Machine

/-! #### References enqueued -/

/-- `t` is `s` with references enqueued. -/
structure Noted (s t : State) : Prop where
  eq : t = { s with slu.noticeQ := t.slu.noticeQ }
  queue : s.slu.noticeQ <+: t.slu.noticeQ

namespace Noted

theorem refl (s : State) : Noted s s := ⟨rfl, List.prefix_rfl⟩

theorem trans {s t u : State} (h : Noted s t) (k : Noted t u) : Noted s u := by
  refine ⟨?_, h.queue.trans k.queue⟩
  obtain ⟨ht, -⟩ := h
  obtain ⟨hu, -⟩ := k
  rw [hu, ht]

theorem note (s : State) (r : Ref) : Noted s (s.note r) := ⟨note_eq s r, note_prefix s r⟩

theorem ite {c : Prop} [Decidable c] {s t u : State} (h : Noted s t) (k : Noted s u) : Noted s (if c then t else u) := by
  split
  · exact h
  · exact k

theorem each (s : State) (l : List Ref) : Noted s (s.each l State.note) := ⟨(each_note s l).1, (each_note s l).2.1⟩

variable {s t : State} (h : Noted s t)
include h

theorem mdc : t.mdc = s.mdc := by rw [h.eq]
theorem sds : t.sds = s.sds := by rw [h.eq]
theorem est : t.est = s.est := by rw [h.eq]
theorem flu : t.flu = s.flu := by rw [h.eq]
theorem rsu : t.rsu = s.rsu := by rw [h.eq]
theorem bdu : t.bdu = s.bdu := by rw [h.eq]
theorem holders : t.slu.holders = s.slu.holders := by rw [h.eq]
theorem releaseDue : t.releaseDue = s.releaseDue := by rw [h.eq]

end Noted

theorem noteIf_eq (s : State) (n : Nat) (changed : Nat → Bool) (ref : Nat → Ref) :
    s.noteIf n changed ref = (((List.range n).filter changed).map ref).foldl State.note s := List.foldl_map.symm

/-! #### The references of an act's changes (R41, R58, R79, R138, R166, R187) -/

/-- The references of what differs between `old` and `s`, class by class. -/
def changeRefs (old s : State) : List Ref :=
  ((List.range s.est.sections.length).filter fun i => decide (old.sec i ≠ s.sec i ∨ old.secRestr i ≠ s.secRestr i)).map .sect
  ++ ((List.range s.est.points.length).filter
      fun i => decide ((old.pt i).still ≠ (s.pt i).still ∨ old.ptRestr i ≠ s.ptRestr i)).map .point
  ++ ((List.range s.est.signals.length).filter fun i => decide (old.sig i ≠ s.sig i ∨ old.sigRestr i ≠ s.sigRestr i)).map .signal
  ++ ((List.range s.bdu.ports.length).filter fun i => decide (old.port i ≠ s.port i)).map .port
  ++ ((List.range s.bdu.links.length).filter fun i => decide ((old.link i).key ≠ (s.link i).key)).map .link
  ++ ((List.range s.rsu.slots.length).filter fun i => decide ((old.slot i).still ≠ (s.slot i).still)).map .slot
  ++ (if old.rsu.storeKey ≠ s.rsu.storeKey then [.store] else [])
  ++ (if old.systemKey ≠ s.systemKey then [.system] else [])

theorem noteChanges_eq (old s : State) : noteChanges old s = s.each (changeRefs old s) State.note := by
  have one : ∀ (c : Prop) [Decidable c] (t : State) (r : Ref),
      (if c then t.note r else t) = (if c then [r] else []).foldl State.note t := fun c _ t r => by split <;> rfl
  simp only [noteChanges, noteIf_eq, one, changeRefs, State.each, List.foldl_append]

/-- What an act's change must enqueue, class by class. -/
structure ChangesListed (old s : State) (q : List Ref) : Prop where
  sec : ∀ i < s.est.sections.length, old.sec i ≠ s.sec i ∨ old.secRestr i ≠ s.secRestr i → Ref.sect i ∈ q
  pt : ∀ i < s.est.points.length, (old.pt i).still ≠ (s.pt i).still ∨ old.ptRestr i ≠ s.ptRestr i → Ref.point i ∈ q
  sig : ∀ i < s.est.signals.length, old.sig i ≠ s.sig i ∨ old.sigRestr i ≠ s.sigRestr i → Ref.signal i ∈ q
  port : ∀ p < s.bdu.ports.length, old.port p ≠ s.port p → Ref.port p ∈ q
  link : ∀ l < s.bdu.links.length, (old.link l).key ≠ (s.link l).key → Ref.link l ∈ q
  slot : ∀ i < s.rsu.slots.length, (old.slot i).still ≠ (s.slot i).still → Ref.slot i ∈ q
  store : old.rsu.storeKey ≠ s.rsu.storeKey → Ref.store ∈ q
  system : old.systemKey ≠ s.systemKey → Ref.system ∈ q

theorem ChangesListed.mono {old s : State} {q q' : List Ref} (h : ChangesListed old s q) (hq : q ⊆ q') : ChangesListed old s q' :=
  ⟨fun i hi hc => hq (h.sec i hi hc), fun i hi hc => hq (h.pt i hi hc), fun i hi hc => hq (h.sig i hi hc),
    fun i hi hc => hq (h.port i hi hc), fun i hi hc => hq (h.link i hi hc), fun i hi hc => hq (h.slot i hi hc),
    fun hc => hq (h.store hc), fun hc => hq (h.system hc)⟩

theorem changesListed_changeRefs (old s : State) : ChangesListed old s (changeRefs old s) := by
  constructor <;> intros <;> simp_all [changeRefs]

theorem noteChanges_noted (old s : State) :
    Noted s (noteChanges old s) ∧ ChangesListed old s (noteChanges old s).slu.noticeQ := by
  rw [noteChanges_eq]
  exact ⟨Noted.each s _, (changesListed_changeRefs old s).mono (each_note s _).2.2⟩

/-- What a telegram leaves of a link is its notice's content (R166). -/
theorem key_of_unsent {k k' : Link} (h : k'.unsent = k.unsent) : k'.key = k.key :=
  show k'.unsent.key = k.unsent.key by rw [h]

theorem finish_eq (old s : State) :
    finish old s = (noteChanges old (State.retryLoop 18 (handOn (handOn old s) (handOn old s)))).sendChanges := rfl

/-- The references stand for the changes between the act's beginning and its end. -/
theorem finish_changesListed (old s : State) : ChangesListed old (finish old s) (finish old s).slu.noticeQ := by
  rw [finish_eq]
  generalize State.retryLoop 18 (handOn (handOn old s) (handOn old s)) = u
  obtain ⟨hn, hl⟩ := noteChanges_noted old u
  have hs := SentOnly.sendChanges (noteChanges old u)
  have est : (noteChanges old u).sendChanges.est = u.est := (congrArg State.est hs.eq).trans hn.est
  have rsu : (noteChanges old u).sendChanges.rsu = u.rsu := (congrArg State.rsu hs.eq).trans hn.rsu
  have ports : (noteChanges old u).sendChanges.bdu.ports = u.bdu.ports :=
    (congrArg (fun x => x.bdu.ports) hs.eq).trans (congrArg Bdu.ports hn.bdu)
  have links : (noteChanges old u).sendChanges.bdu.links.length = u.bdu.links.length := hs.links.trans (by rw [hn.bdu])
  have key : ∀ l, ((noteChanges old u).sendChanges.link l).key = (u.link l).key := fun l =>
    (key_of_unsent (hs.unsent l)).trans (by rw [State.link, hn.bdu]; rfl)
  have system : (noteChanges old u).sendChanges.systemKey = u.systemKey := by
    have : (noteChanges old u).sendChanges.systemKey = (noteChanges old u).systemKey := by rw [hs.eq]; rfl
    rw [this, hn.eq]; rfl
  have queue : (noteChanges old u).sendChanges.slu.noticeQ = (noteChanges old u).slu.noticeQ := congrArg (fun x => x.slu.noticeQ) hs.eq
  rw [queue]
  exact {
    sec := fun i hi hc => hl.sec i (by rwa [est] at hi) (by simpa only [State.sec, State.secRestr, est] using hc)
    pt := fun i hi hc => hl.pt i (by rwa [est] at hi) (by simpa only [State.pt, State.ptRestr, est] using hc)
    sig := fun i hi hc => hl.sig i (by rwa [est] at hi) (by simpa only [State.sig, State.sigRestr, est] using hc)
    port := fun p hp hc => hl.port p (by rwa [ports] at hp) (by simpa only [State.port, ports] using hc)
    link := fun l hi hc => hl.link l (links ▸ hi) (by rwa [key] at hc)
    slot := fun i hi hc => hl.slot i (by rwa [rsu] at hi) (by simpa only [State.slot, rsu] using hc)
    store := fun hc => hl.store (by rwa [rsu] at hc)
    system := fun hc => hl.system (by rwa [system] at hc) }

/-! #### Intact entries (R82) -/

theorem proven_iff {r : SignalRec} : r.proven = true ↔ r.reported = r.commanded.reported := by
  unfold SignalRec.proven
  cases r.commanded <;> cases r.reported <;> simp [Aspect.reported]

theorem provenStop_iff {r : SignalRec} : r.provenStop = true ↔ r.commanded = .stop ∧ r.reported = .stop := by
  rw [SignalRec.provenStop, Bool.and_eq_true, decide_eq_true_eq, proven_iff]
  exact ⟨fun ⟨h, k⟩ => ⟨h, k.trans (by rw [h]; rfl)⟩, fun ⟨h, k⟩ => ⟨h, k.trans (by rw [h]; rfl)⟩⟩

theorem atRest_iff {s : State} {i : Nat} {p : Pos} : s.atRest i p = true ↔ (s.pt i).pos = p.rest := decide_eq_true_iff

theorem elemIntact_iff (s : State) (w : ClaimOn) : s.elemIntact w = true ↔ s.elemStands w := by
  cases w with
  | point i p => exact atRest_iff
  | signal i => simp [State.elemIntact, State.elemStands, provenStop_iff, and_assoc]
  | sect i => exact secClear_iff
  | port p => simp [State.elemIntact, State.elemStands]

theorem flankGranted_iff (s : State) (i p : Nat) : s.flankGranted i p = true ↔ s.flankAnswered i p := by
  have one : ∀ r : RemoteReq, (r.flankOn p && r.granted) = true ↔
      r.status = .granted ∧ ∃ a, r.what = .ask a ∧ a.flank = true ∧ a.idx = p := by
    intro r
    cases hw : r.what with
    | acceptance q => simp [RemoteReq.flankOn, hw]
    | ask a => simp [RemoteReq.flankOn, RemoteReq.granted, hw, and_comm]
  simp only [State.flankGranted, List.any_eq_true, one, State.flankAnswered]

theorem intact_iff (s : State) (i : Nat) (w : ClaimOn) : s.intact i w = true ↔ s.stands i w := by
  cases w with
  | port p => simp [State.intact, State.stands, flankGranted_iff, linkUp_iff]
  | point k p => exact elemIntact_iff s (.point k p)
  | signal k => exact elemIntact_iff s (.signal k)
  | sect k => exact elemIntact_iff s (.sect k)

/-! #### The flank marks of a slot (R82, R100) -/

theorem watchClaims_noted (old s : State) (i : Nat) : Noted (s.modSlot i fun k =>
    { k with claims := (s.slot i).claims.map fun c => c.watch (s.intact i c.what) }) (watchClaims old s i) :=
  Noted.ite (Noted.note _ _) (Noted.refl _)

theorem watchClaims_slot (old s : State) (i : Nat) : (watchClaims old s i).slot i =
    { s.slot i with claims := (s.slot i).claims.map fun c => c.watch (s.intact i c.what) } := by
  rw [State.slot, (watchClaims_noted old s i).rsu, ← State.slot, State.modSlot_slot_at]
  split
  · rfl
  · rw [slot_of_le (by grind)]; rfl

/-- Settles O15: what `noteChanges` lists, and the flank marks by `watchClaims`. -/
theorem changesNoted : Obligations.ChangesNoted := by
  refine ⟨fun old s i => ⟨intact_iff s i, watchClaims_slot old s i, fun j hj => ?_, ?_, fun ⟨c, hc, hb, ho, hs⟩ => ?_⟩, ?_⟩
  · rw [State.slot, (watchClaims_noted old s i).rsu, ← State.slot, State.modSlot_slot_at, if_neg fun h => hj h.1.symm]
  · have h := (watchClaims_noted old s i)
    rw [h.rsu]
    exact h.eq
  · have loses : losesClaim old s i = true := List.any_eq_true.2 ⟨c, hc, by
      simp [hb, (intact_iff old i _).2 ho, mt (intact_iff s i _).1 hs]⟩
    rw [show watchClaims old s i = _ from if_pos loses]
    exact mem_note _ _
  · rintro old s t rfl
    have h := finish_changesListed old s
    exact ⟨h.sec, h.pt, h.sig, h.port, h.link, h.slot, h.store, h.system, (Handed.finish old s).nodup⟩

/-! #### The order of what follows (R41, R80; log 14) -/

theorem retryLoop_settled (n : Nat) (s : State) : (State.retryLoop n s).releaseDue = false := by
  induction n generalizing s with
  | zero => rfl
  | succ n ih =>
    unfold State.retryLoop
    split
    · exact ih _
    · rfl

theorem finish_settled (old s : State) : (finish old s).releaseDue = false := by
  rw [finish_eq, congrArg State.releaseDue (SentOnly.sendChanges _).eq]
  exact (noteChanges_noted old _).1.releaseDue.trans (retryLoop_settled 18 _)

theorem retryLoop_succ (n : Nat) (s : State) : State.retryLoop (n + 1) s =
    if s.releaseDue && s.operational then
      State.retryLoop n (handOn { s with releaseDue := false } (State.retryPass { s with releaseDue := false }))
    else { s with releaseDue := false } := rfl

/-- Settles O14: the frame by `Handed`, the order by the definitions of `finish`, `handOn` and `retryLoop`. -/
theorem followUpFrame : Obligations.FollowUpFrame := by
  intro old b
  have h := Handed.finish old b
  refine ⟨h.follows, h.line, h.respQ, h.inputQ, h.inProgress, h.noticeCount, h.noticeQ, finish_settled old b, rfl, rfl,
    fun n => ⟨fun hd hm => ?_, fun hn => ?_⟩, fun e => rfl⟩
  · exact (retryLoop_succ n b).trans (if_pos (by simp [hd, State.operational, hm]))
  · exact (retryLoop_succ n b).trans (if_neg (by rcases hn with hn | hn <;> simp [hn, State.operational]))

end Sys2Proof.Machine

/-! ### The field bus: answers, reports, missed polls (R24 to R26, R29, R31, R34, R44 to R49, R52) -/

namespace Sys2Proof.Machine

/-! #### Answer frames (12) -/

theorem be16_eq_iff {n : Nat} (h : n < 65536) (x y : Byte) : [x, y] = be16 n ↔ x.toNat * 256 + y.toNat = n := by
  have hx := x.isLt
  have hy := y.isLt
  simp only [be16, byteOf, List.cons.injEq, and_true, ← BitVec.toNat_inj, BitVec.toNat_ofNat]
  omega

theorem drop_twenty {bs : List Byte} (h : bs.length = 22) : bs.drop 20 = [bs.getD 20 0, bs.getD 21 0] := by
  refine List.ext_getElem (by simp [h]) fun i h1 h2 => ?_
  have : i = 0 ∨ i = 1 := by simp at h2; omega
  rcases this with rfl | rfl <;> simp [h]

/-- The checks of an answer frame, byte by byte (R46). -/
theorem answerValid_iff (a : Nat) (bs : List Byte) : answerValid a bs = true ↔
    u8 bs 0 = 0x96 ∧ bs.length = 22 ∧ u8 bs 1 = 18 ∧ u8 bs 3 = 2 ∧ u8 bs 2 = a
      ∧ bs.drop 20 = crc16Bytes (crc16 ((bs.drop 1).take 19)) := by
  have crc : bs.length = 22 → (bs.drop 20 = crc16Bytes (crc16 ((bs.drop 1).take 19))
      ↔ u16 bs 20 = (crc16 ((bs.drop 1).take 19)).toNat) := fun h => by
    rw [drop_twenty h]
    exact be16_eq_iff (crc16 ((bs.drop 1).take 19)).isLt _ _
  simp only [answerValid, Bool.and_eq_true, decide_eq_true_eq]
  constructor
  · rintro ⟨⟨⟨⟨⟨hl, h0⟩, h1⟩, h2⟩, h3⟩, hc⟩
    exact ⟨h0, hl, h1, h3, h2, (crc hl).2 hc⟩
  · rintro ⟨h0, hl, h1, h3, h2, hc⟩
    exact ⟨⟨⟨⟨⟨hl, h0⟩, h1⟩, h2⟩, h3⟩, (crc hl).1 hc⟩

/-- The bytes an answer frame's CRC-16 is over. -/
def answerBody (a : Nat) (codes : List Nat) : List Byte := [byteOf 18, byteOf a, byteOf 2] ++ codes.map byteOf

theorem answerFrame_eq (a : Nat) (codes : List Nat) :
    answerFrame a codes = byteOf 0x96 :: (answerBody a codes ++ crc16Bytes (crc16 (answerBody a codes))) := rfl

theorem toNat_byteOf {n : Nat} (h : n < 256) : (byteOf n).toNat = n := by
  rw [byteOf, BitVec.toNat_ofNat]
  exact Nat.mod_eq_of_lt h

/-- A frame made of sixteen codes is valid for its address. -/
theorem answerValid_answerFrame {a : Nat} {codes : List Nat} (ha : a < 256) (hl : codes.length = 16) :
    answerValid a (answerFrame a codes) = true := by
  have hb : (answerBody a codes).length = 19 := by simp [answerBody, hl]
  have body : ((answerFrame a codes).drop 1).take 19 = answerBody a codes := by
    rw [answerFrame_eq, List.drop_one, List.tail_cons, List.take_left' hb]
  refine (answerValid_iff a _).2 ⟨rfl, ?_, rfl, rfl, toNat_byteOf ha, ?_⟩
  · simp [answerFrame_eq, hb, crc16Bytes, be16]
  · rw [body, answerFrame_eq]
    show (answerBody a codes ++ _).drop 19 = _
    rw [List.drop_left' hb]

theorem answerCodes_answerFrame (a : Nat) {codes : List Nat} (hl : codes.length = 16) (hc : ∀ x ∈ codes, x < 256) :
    answerCodes (answerFrame a codes) = codes := by
  have h : ((answerFrame a codes).drop 4).take 16 = codes.map byteOf := by
    show (codes.map byteOf ++ _).take 16 = _
    rw [List.take_left' (by simpa using hl)]
  rw [answerCodes, h, List.map_map]
  exact (List.map_congr_left fun x hx => toNat_byteOf (hc x hx)).trans (List.map_id _)

/-! #### Reports into the tables (R47) -/

/-- Reading a list after distinct places have each been changed, each by a function of its own. -/
theorem getD_foldl_modifyAt {α : Type} (f : Nat → α → α) (d : α) {is : List Nat} (hn : is.Nodup) (xs : List α) (k : Nat) :
    (is.foldl (fun l i => l.modify i (f i)) xs).getD k d = if k ∈ is ∧ k < xs.length then f k (xs.getD k d) else xs.getD k d := by
  induction is generalizing xs with
  | nil => simp
  | cons i is ih =>
    obtain ⟨hi, hn⟩ := List.nodup_cons.mp hn
    rw [List.foldl_cons, ih hn, getD_modify_eq, List.length_modify]
    by_cases hk : i = k
    · subst hk
      by_cases hl : i < xs.length <;> simp [hi, hl]
    · simp [hk, Ne.symm hk]

@[simp] theorem length_foldl_modifyAt {α : Type} (f : Nat → α → α) (is : List Nat) (xs : List α) :
    (is.foldl (fun l i => l.modify i (f i)) xs).length = xs.length := by
  induction is generalizing xs with
  | nil => rfl
  | cons i is ih => rw [List.foldl_cons, ih, List.length_modify]

theorem each_modSecAt (s : State) (is : List Nat) (f : Nat → SectionRec → SectionRec) :
    (s.each is fun t i => t.modSec i (f i)) = { s with est.sections := is.foldl (fun l i => l.modify i (f i)) s.est.sections } := by
  unfold State.each
  induction is generalizing s with
  | nil => rfl
  | cons i is ih => rw [List.foldl_cons, ih]; rfl

theorem each_modSigAt (s : State) (is : List Nat) (f : Nat → SignalRec → SignalRec) :
    (s.each is fun t i => t.modSig i (f i)) = { s with est.signals := is.foldl (fun l i => l.modify i (f i)) s.est.signals } := by
  unfold State.each
  induction is generalizing s with
  | nil => rfl
  | cons i is ih => rw [List.foldl_cons, ih]; rfl

theorem completes_iff {r : PointRec} {x : Option Pos} :
    r.completes x = true ↔ r.pos = .moving ∧ ∃ p, r.commanded = some p ∧ x = some p := by
  cases x with
  | none => simp [PointRec.completes]
  | some p =>
    rw [PointRec.completes, Bool.and_eq_true, Bool.and_eq_true, decide_eq_true_eq, decide_eq_true_eq, Option.isSome_some, and_assoc]
    exact and_congr_right fun _ => ⟨fun ⟨_, h⟩ => ⟨p, h.symm, rfl⟩, fun ⟨q, h, e⟩ => ⟨rfl, e.trans h.symm⟩⟩

theorem reportPoint_eq (s : State) (i : Nat) (x : Option Pos) : ∃ b, s.reportPoint i x =
    { s with est.points := s.est.points.modify i fun r => r.report x, releaseDue := b }
      ∧ (b = true ↔ s.releaseDue = true ∨ (s.pt i).completes x = true) := by
  by_cases h : (s.pt i).completes x = true
  · exact ⟨true, by simp only [State.reportPoint, if_pos h]; rfl, by simp [h]⟩
  · exact ⟨s.releaseDue, by simp only [State.reportPoint, if_neg h]; rfl, by simp [h]⟩

/-- Point reports one after another; a movement completed is a release event (R31). -/
theorem each_reportPoint (s : State) (x : Nat → Option Pos) {is : List Nat} (hn : is.Nodup) :
    ∃ b, (s.each is fun t i => t.reportPoint i (x i)) =
        { s with est.points := is.foldl (fun l i => l.modify i fun r => r.report (x i)) s.est.points, releaseDue := b }
      ∧ (b = true ↔ s.releaseDue = true ∨ ∃ k ∈ is, (s.pt k).completes (x k) = true) := by
  unfold State.each
  induction is generalizing s with
  | nil => exact ⟨s.releaseDue, rfl, by simp⟩
  | cons i is ih =>
    obtain ⟨hi, hn⟩ := List.nodup_cons.mp hn
    obtain ⟨b, hs, hb⟩ := reportPoint_eq s i (x i)
    obtain ⟨c, he, hc⟩ := ih (s.reportPoint i (x i)) hn
    have hp : ∀ k ∈ is, (s.reportPoint i (x i)).pt k = s.pt k := fun k hk => by
      have hne : ¬(i = k ∧ k < s.est.points.length) := fun h => hi (h.1 ▸ hk)
      rw [hs]
      exact (State.modPt_pt_at s i k fun r => r.report (x i)).trans (if_neg hne)
    have later : (∃ k ∈ is, ((s.reportPoint i (x i)).pt k).completes (x k) = true) ↔ ∃ k ∈ is, (s.pt k).completes (x k) = true :=
      exists_congr fun k => and_congr_right fun hk => by rw [hp k hk]
    refine ⟨c, by rw [List.foldl_cons, he, hs]; rfl, hc.trans ?_⟩
    rw [show (s.reportPoint i (x i)).releaseDue = b by rw [hs], hb, or_assoc, later, List.exists_mem_cons_iff]

/-- The report code of a channel; a channel that carries none reads as a value outside every set. -/
def codeOf (codes : List Nat) (chan : Nat) : Nat := codes.getD chan 10

/-- A valid answer, table by table (R47, R48). -/
theorem answer_eq (s : State) (a : Nat) (codes : List Nat) : ∃ b, s.answer a codes =
    { s with
      flu.ctrls := s.flu.ctrls.map fun c => if c.addr = a then { c with state := .active, missed := 0 } else c
      est.sections := (served s.image.sections SecDef.ctrl a).foldl
        (fun l i => l.modify i fun r => r.report (sectionReport (codeOf codes (s.secDef i).chan))) s.est.sections
      est.points := (served s.image.points PtDef.ctrl a).foldl
        (fun l i => l.modify i fun r => r.report (pointReport (codeOf codes (s.ptDef i).chan))) s.est.points
      est.signals := (served s.image.signals SigDef.ctrl a).foldl
        (fun l i => l.modify i fun r => r.report (signalReport (codeOf codes (s.sigDef i).chan))) s.est.signals
      releaseDue := b }
      ∧ (b = true ↔ s.releaseDue = true ∨ ∃ k ∈ served s.image.points PtDef.ctrl a,
          (s.pt k).completes (pointReport (codeOf codes (s.ptDef k).chan)) = true) := by
  let s1 := s.modCtrl a fun c => { c with state := .active, missed := 0 }
  have h2 := each_modSecAt s1 (served s.image.sections SecDef.ctrl a)
    fun i r => r.report (sectionReport (codeOf codes (s.secDef i).chan))
  let s2 := s1.each (served s.image.sections SecDef.ctrl a)
    fun t i => t.modSec i fun r => r.report (sectionReport (codeOf codes (s.secDef i).chan))
  obtain ⟨b, h3, hb⟩ := each_reportPoint s2 (fun i => pointReport (codeOf codes (s.ptDef i).chan))
    (nodup_served s.image.points PtDef.ctrl a)
  refine ⟨b, ?_, hb.trans (by rw [show s2 = _ from h2]; rfl)⟩
  show (State.each (State.each s2 _ _) _ _) = _
  refine (congrArg (fun u => State.each u (served s.image.signals SigDef.ctrl a)
    fun t i => t.modSig i fun r => r.report (signalReport (codeOf codes (s.sigDef i).chan))) h3).trans ?_
  rw [each_modSigAt _ _ fun i r => r.report (signalReport (codeOf codes (s.sigDef i).chan)), show s2 = _ from h2]
  rfl

/-! #### The end of a poll (R44, R52) -/

/-- The address after `a`: the lowest above, else the lowest. -/
theorem nextAddress_some {s : State} {a n : Nat} (h : (s.flu.ctrls.map Ctrl.addr).find? (fun x => a < x) = some n
    ∨ (s.flu.ctrls.map Ctrl.addr).find? (fun x => a < x) = none ∧ (s.flu.ctrls.map Ctrl.addr).head? = some n) :
    s.nextAddress a = some n := by
  show ((s.flu.ctrls.map Ctrl.addr).find? (fun x => a < x)).or (s.flu.ctrls.map Ctrl.addr).head? = some n
  rcases h with h | ⟨h, k⟩
  · rw [h]; rfl
  · rw [h, k]; rfl

/-- A poll ends on `t`, which has the addresses of `s`. -/
theorem endPoll_eq {s t : State} {a n : Nat} (ht : t.flu.ctrls.map Ctrl.addr = s.flu.ctrls.map Ctrl.addr)
    (hp : t.flu.pollPos = some a) (hn : s.nextAddress a = some n) :
    t.endPoll = { t with flu.poll := .none, flu.pollPos := some n } := by
  have : t.nextAddress a = some n := by simpa only [State.nextAddress, ht] using hn
  rw [State.endPoll, hp, Option.bind_some, this]

/-- The entry into OPERATIONAL where start-up is complete, nothing otherwise (R52, R194). -/
theorem tryOperational_cases (u : State) (done : Prop)
    (h : done ↔ u.mdc.mode = .starting ∧ u.mdc.startCrc = .matched
      ∧ (u.mdc.startupExpired = true ∨ ∀ c ∈ u.flu.ctrls, c.state ≠ .unknown)) :
    (¬done → u.tryOperational = u) ∧ (done → EntersOperational u u.tryOperational) := by
  refine ⟨fun hd => ?_, fun hd => ?_⟩
  · refine if_neg fun ⟨hm, hc, hx⟩ => hd (h.2 ⟨hm, hc, ?_⟩)
    rwa [Bool.or_eq_true, pollingComplete_iff, or_comm] at hx
  · obtain ⟨hm, hc, hx⟩ := h.1 hd
    exact tryOperational_ready hm hc hx.symm

theorem tryOperational_pollPos (u : State) : u.tryOperational.flu.pollPos = u.flu.pollPos := by
  by_cases h : u.mdc.mode = .starting ∧ u.mdc.startCrc = .matched
      ∧ (u.mdc.startupExpired = true ∨ ∀ c ∈ u.flu.ctrls, c.state ≠ .unknown)
  · obtain ⟨w, hw, hb, -⟩ := (tryOperational_cases u _ Iff.rfl).2 h
    rw [hb]
    exact congrArg (fun x => x.flu.pollPos) hw.rest
  · rw [(tryOperational_cases u _ Iff.rfl).1 h]

/-- The next poll, after what follows the end of one (R44, R46). -/
theorem sendPoll_finish {s u : State} {n : Nat} (h : u.flu.pollPos = some n) :
    (finish s u.tryOperational).sendPoll = { finish s u.tryOperational with flu :=
      { (finish s u.tryOperational).flu with poll := .waiting, lastPoll := some ((finish s u.tryOperational).pollOf n) } } := by
  refine sendPoll_some ?_
  rw [(Handed.finish s _).flu, tryOperational_pollPos, h]

/-! #### What a poll carries (R45) -/

/-- The first index of those that a test names is the one below which none is. -/
theorem find_served {α : Type} {l : List α} {ctrl : α → Nat} {a : Nat} (d : α) {p : Nat → Bool} {k : Nat}
    (hk : k < l.length ∧ ctrl (l.getD k d) = a ∧ p k = true)
    (hm : ∀ j < k, ¬(j < l.length ∧ ctrl (l.getD j d) = a ∧ p j = true)) : (served l ctrl a).find? p = some k := by
  have sorted : (served l ctrl a).Pairwise (· < ·) := List.pairwise_lt_range.filter _
  have hs : k ∈ served l ctrl a := (mem_served d).2 ⟨hk.1, hk.2.1⟩
  obtain ⟨j, hj⟩ : ∃ j, (served l ctrl a).find? p = some j :=
    Option.isSome_iff_exists.1 (List.find?_isSome.2 ⟨k, hs, hk.2.2⟩)
  obtain ⟨hp, as, bs, hl, hn⟩ := List.find?_eq_some_iff_append.1 hj
  have hj' : j ∈ served l ctrl a := hl ▸ by simp
  have hjs := (mem_served (ctrl := ctrl) d).1 hj'
  rcases lt_trichotomy j k with h | h | h
  · exact absurd ⟨hjs.1, hjs.2, by simpa using hp⟩ (hm j h)
  · rw [hj, h]
  · have : k ∈ as := by
      rw [hl] at hs sorted
      rcases List.mem_append.1 hs with h' | h'
      · exact h'
      · rcases List.mem_cons.1 h' with h' | h'
        · omega
        · exact absurd ((List.pairwise_cons.1 (List.pairwise_append.1 sorted).2.1).1 k h') (by omega)
    have hn := hn k this
    rw [hk.2.2] at hn
    cases hn

theorem find_served_none {α : Type} {l : List α} {ctrl : α → Nat} {a : Nat} (d : α) {p : Nat → Bool}
    (h : ∀ j < l.length, ¬(j < l.length ∧ ctrl (l.getD j d) = a ∧ p j = true)) : (served l ctrl a).find? p = none :=
  List.find?_eq_none.2 fun j hj hp => by
    obtain ⟨h1, h2⟩ := (mem_served (ctrl := ctrl) d).1 hj
    exact h j h1 ⟨h1, h2, hp⟩

theorem pollOf_cmd (s : State) (a : Nat) {ch : Nat} (h : ch < 16) : (s.pollOf a).cmds[ch]? = some (s.channelCmd a ch) := by
  simp [State.pollOf, h]

theorem channelCmd_point {s : State} {a ch k : Nat}
    (hk : k < s.image.points.length ∧ (s.ptDef k).ctrl = a ∧ (s.ptDef k).chan = ch)
    (hm : ∀ j < k, ¬(j < s.image.points.length ∧ (s.ptDef j).ctrl = a ∧ (s.ptDef j).chan = ch)) :
    s.channelCmd a ch = pointCmd (s.pt k).commanded := by
  have h : (served s.image.points PtDef.ctrl a).find? (fun i => decide ((s.ptDef i).chan = ch)) = some k :=
    find_served default ⟨hk.1, hk.2.1, decide_eq_true hk.2.2⟩ fun j hj h => hm j hj ⟨h.1, h.2.1, of_decide_eq_true h.2.2⟩
  simp only [State.channelCmd, h]

/-- Without a point on the channel the command is the signal's. -/
theorem channelCmd_noPoint {s : State} {a ch : Nat}
    (h : ∀ j < s.image.points.length, ¬(j < s.image.points.length ∧ (s.ptDef j).ctrl = a ∧ (s.ptDef j).chan = ch)) :
    s.channelCmd a ch = ((served s.image.signals SigDef.ctrl a).find? fun i => decide ((s.sigDef i).chan = ch)).elim .nothing
      fun i => signalCmd (s.sig i).commanded := by
  have hp : (served s.image.points PtDef.ctrl a).find? (fun i => decide ((s.ptDef i).chan = ch)) = none :=
    find_served_none default fun j hj hn => h j hj ⟨hn.1, hn.2.1, of_decide_eq_true hn.2.2⟩
  simp only [State.channelCmd, hp]
  cases (served s.image.signals SigDef.ctrl a).find? fun i => decide ((s.sigDef i).chan = ch) <;> rfl

/-! #### What a report does to a record (R24, R26, R29, R31, R34, R47) -/

theorem report_of_rest {p : PointRec} (h : p.pos ≠ .moving) (x : Option Pos) : p.report x = p.reportStill x := if_neg h

theorem reportStill_at {p : PointRec} {y : Pos} (h : p.pos = y.rest) (x : Option Pos) : p.reportStill x =
    if x = some y then { p with last := ptLast x }
    else { p with last := ptLast x, pos := .lost, commanded := none, detectionLost := true } := by
  have hl : p.pos ≠ .lost := h ▸ Pos.rest_ne_lost y
  have hx : x.map Pos.rest = some p.pos ↔ x = some y := by
    rw [h]
    rcases x with _ | x
    · simp
    · cases x <;> cases y <;> decide
  simp only [PointRec.reportStill, if_neg hl, hx]

theorem agrees_iff {p : PointRec} {y : Pos} : p.agrees y = true ↔ (p.owner = none ∧ p.claims = 0)
    ∨ ((p.lockedPos = none ∨ p.lockedPos = some y) ∧ (p.claimPos = none ∨ p.claimPos = some y)) := by
  simp [PointRec.agrees]

theorem reportStill_lost {p : PointRec} (h : p.pos = .lost) (y : Pos) : p.reportStill (some y) =
    if p.agrees y = true then { p with last := ptLast (some y), pos := y.rest, commanded := some y, detectionLost := false }
    else { p with last := ptLast (some y), detectionLost := true } := by
  simp only [PointRec.reportStill, if_pos h]

/-- Settles O46: the answer frame's bytes, the tables it writes, the end of its poll; the poll's content; each record's report. -/
theorem fieldAnswerRow : Obligations.FieldAnswerRow := by
  refine ⟨?_, ?_, ?_⟩
  · intro s a n codes hp hw hpos ha hl hc hn done secOn ptOn sigOn
    obtain ⟨due, he, hd⟩ := answer_eq s a codes
    have addrs : (s.answer a codes).flu.ctrls.map Ctrl.addr = s.flu.ctrls.map Ctrl.addr := by
      rw [he]
      simp only [List.map_map]
      exact List.map_congr_left fun c _ => by simp only [Function.comp]; split <;> rfl
    have poll := endPoll_eq addrs (by rw [he]; exact hpos) (nextAddress_some hn)
    have frame : s.takeAnswer (answerFrame a codes) = s.answer a codes := by
      simp only [State.takeAnswer, hpos, answerValid_answerFrame ha hl, if_true, answerCodes_answerFrame a hl hc]
    generalize hu : (s.answer a codes).endPoll = u at poll
    rw [he] at poll
    have uDone : done ↔ u.mdc.mode = .starting ∧ u.mdc.startCrc = .matched
        ∧ (u.mdc.startupExpired = true ∨ ∀ c ∈ u.flu.ctrls, c.state ≠ .unknown) := by
      rw [poll]
      refine and_congr_right fun _ => and_congr_right fun _ => or_congr_right ?_
      simp only [List.mem_map, forall_exists_index, and_imp, forall_apply_eq_imp_iff₂]
      refine forall_congr' fun c => forall_congr' fun _ => ?_
      by_cases h : c.addr = a <;> simp [h]
    obtain ⟨waits, enters⟩ := tryOperational_cases u done uDone
    have next : exec (.fieldAnswerReceived (answerFrame a codes)) s = .next (finish s u.tryOperational).sendPoll.settleLine := by
      show Host.Outcome.next (if s.polling then s.frameInWait _ else s) = _
      rw [if_pos (by simp [State.polling, State.running, hp, hw]), State.frameInWait, State.afterPoll, frame, hu]
    refine ⟨u, u.tryOperational, next.trans ?_, waits, enters, ?_, fun k => ?_, fun k => ?_, fun k => ?_, ?_, ?_, ?_, ?_, ?_⟩
    · rw [sendPoll_finish (n := n) (by rw [poll])]
    · rw [poll]
    · rw [poll]
      exact (getD_foldl_modifyAt _ _ (nodup_served _ _ _) _ k).trans
        (if_congr ((and_congr_left' (mem_served default)).trans (by rw [and_assoc, and_comm (a := _ = a)]; rfl)) rfl rfl)
    · rw [poll]
      exact (getD_foldl_modifyAt _ _ (nodup_served _ _ _) _ k).trans
        (if_congr ((and_congr_left' (mem_served default)).trans (by rw [and_assoc, and_comm (a := _ = a)]; rfl)) rfl rfl)
    · rw [poll]
      exact (getD_foldl_modifyAt _ _ (nodup_served _ _ _) _ k).trans
        (if_congr ((and_congr_left' (mem_served default)).trans (by rw [and_assoc, and_comm (a := _ = a)]; rfl)) rfl rfl)
    · rw [poll]
      refine hd.trans (or_congr_right (exists_congr fun k => ?_))
      rw [mem_served default, completes_iff]
      constructor
      · rintro ⟨⟨hk, hck⟩, hm, p, hcp, hx⟩
        refine ⟨p, ⟨hk, ?_, hck⟩, hm, hcp, hx⟩
        by_contra hlt
        rw [State.pt, List.getD_eq_default _ _ (Nat.not_lt.1 hlt)] at hm
        cases hm
      · rintro ⟨p, ⟨hk, -, hck⟩, hm, hcp, hx⟩
        exact ⟨⟨hk, hck⟩, hm, p, hcp, hx⟩
    · rw [poll]; simp
    · rw [poll]; simp
    · rw [poll]; simp
    · rw [poll]
  · intro s a ch hch poll ptHere sigHere
    have cmd := pollOf_cmd s a hch
    refine ⟨rfl, by simp [poll, State.pollOf], fun k hk hm => ?_, fun hnone => ⟨fun k hk hm => ?_, fun hno => ?_⟩⟩
    · rw [channelCmd_point hk hm] at cmd
      exact ⟨fun h => cmd.trans (by rw [h]; rfl), fun h => cmd.trans (by rw [h]; rfl), fun h => cmd.trans (by rw [h]; rfl)⟩
    · have hf : (served s.image.signals SigDef.ctrl a).find? (fun i => decide ((s.sigDef i).chan = ch)) = some k :=
        find_served default ⟨hk.1, hk.2.1, decide_eq_true hk.2.2⟩ fun j hj h => hm j hj ⟨h.1, h.2.1, of_decide_eq_true h.2.2⟩
      rw [channelCmd_noPoint hnone, hf] at cmd
      exact ⟨fun h => cmd.trans (by rw [Option.elim_some, h]; rfl), fun h => cmd.trans (by rw [Option.elim_some, h]; rfl),
        fun h => cmd.trans (by rw [Option.elim_some, h]; rfl)⟩
    · have hf : (served s.image.signals SigDef.ctrl a).find? (fun i => decide ((s.sigDef i).chan = ch)) = none :=
        find_served_none default fun j hj hn => hno j hj ⟨hn.1, hn.2.1, of_decide_eq_true hn.2.2⟩
      rw [channelCmd_noPoint hnone, hf] at cmd
      exact cmd
  · intro k p y g x n shown allowed same
    have last : ptLast (some y) = shown := by cases y <;> rfl
    have away : y.other.rest ≠ y.rest := Pos.other_rest_ne y
    refine ⟨fun h => ?_, fun h => ⟨fun hc => ?_, fun hc => ?_, ?_⟩, fun h => ?_, fun h => ?_, fun h => ?_, rfl, rfl, ?_, ?_, ?_, ?_, ?_, ?_⟩
    · unfold SectionRec.report
      cases ho : k.occ <;> simp_all [Occ.report]
    · simp only [PointRec.report, if_pos h, if_pos hc, last]
    · simp only [PointRec.report, if_pos h, if_neg hc, last]
    · simp only [PointRec.report, if_pos h]; rfl
    · have hm : p.pos ≠ .moving := h ▸ Pos.rest_ne_moving y
      rw [report_of_rest hm, report_of_rest hm, reportStill_at h, reportStill_at h, if_pos rfl, if_neg (by simp), last]
      exact ⟨rfl, rfl⟩
    · have hm : p.pos ≠ .moving := h ▸ Pos.rest_ne_moving y.other
      rw [report_of_rest hm, reportStill_at h, last, if_neg]
      cases y <;> decide
    · have hm : p.pos ≠ .moving := by simp [h]
      refine ⟨?_, fun ha => ?_, fun ha => ?_⟩
      · rw [report_of_rest hm]
        simp only [PointRec.reportStill, if_pos h]
        rfl
      · rw [report_of_rest hm, reportStill_lost h, if_pos (agrees_iff.2 ha), last]
      · rw [report_of_rest hm, reportStill_lost h, if_neg (mt agrees_iff.1 ha), last]
    · rintro rfl; rfl
    · rintro (⟨rfl, h⟩ | ⟨rfl, h⟩ | ⟨rfl, h⟩) <;> simp [SignalRec.report, h, Aspect.reported]
    · intro hx hs
      have : x ≠ g.commanded.reported := fun e => hs <| by
        cases hg : g.commanded
        · exact .inl ⟨e.trans (by rw [hg]; rfl), hg⟩
        · exact .inr (.inl ⟨e.trans (by rw [hg]; rfl), hg⟩)
        · exact .inr (.inr ⟨e.trans (by rw [hg]; rfl), hg⟩)
      simp [SignalRec.report, hx, this]
    · rcases n with _ | _ | n <;> rfl
    · rcases n with _ | _ | _ | _ | _ | n <;> rfl
    · rcases n with _ | _ | _ | _ | _ | _ | _ | _ | _ | n <;> rfl

/-! #### Missed polls (R46, R49) -/

/-- With no command waiting, an act of the field bus leaves the mode record its own change has made. -/
theorem finish_settleLine_mdc (old : State) {b : State} (h : b.slu.inputQ = []) (f : Flu) :
    State.mdc (State.settleLine { finish old b with flu := f }) = b.mdc := by
  have empty : (finish old b).slu.inputQ = [] := (Handed.finish old b).inputQ.trans h
  generalize hw : finish old b = w at empty
  rw [settle_empty (s := { w with flu := f }) empty, (Follows.arbiter _).mdc]
  exact hw ▸ (Handed.finish old b).mdc

theorem exec_fieldFrameInvalid {s : State} (h : s.polling = true) (bs : List Byte) :
    exec (.fieldFrameInvalid bs) s = .next (finish s (s.takeAnswer bs).endPoll.tryOperational).sendPoll.settleLine :=
  congrArg Host.Outcome.next (if_pos h)

/-- A part in STARTING with its CRC matched, in which two controller records bear the address 5: one ACTIVE a poll short of the
limit, one still UNKNOWN. -/
def doubledController : State :=
  { State.reset with
    mdc := ⟨.running, .starting, .cold, none, none, false, .matched⟩
    flu := ⟨[⟨5, .active, 4⟩, ⟨5, .unknown, 0⟩], some 5, .waiting, none⟩ }

/-- The missed poll takes both records of the address to LOST, and so completes start-up polling. -/
theorem doubledController_enters : (doubledController.takeAnswer []).endPoll.tryOperational.mdc.mode = .operational
    ∧ (doubledController.takeAnswer []).endPoll.tryOperational.slu.inputQ = [] := by
  obtain ⟨u, hu, hb, -⟩ := tryOperational_ready (s := (doubledController.takeAnswer []).endPoll) rfl rfl (.inl (by decide))
  rw [hb, hu.rest]
  exact ⟨rfl, rfl⟩

/-- Refutes O47: its condition for start-up polling to be complete reads the controllers before the missed poll. Where an address
has two records, one ACTIVE at the limit and one UNKNOWN, the missed poll declares both LOST, and the part enters OPERATIONAL
although that condition fails. -/
theorem not_missedPollRows : ¬ Obligations.MissedPollRows := by
  intro h
  obtain ⟨-, -, -, rows⟩ := h.2 doubledController 5 5 [] rfl
  obtain ⟨u, b, ⟨next, -⟩, waits, -, -, rest, -⟩ := rows rfl rfl (by decide) (.inr ⟨by decide, rfl⟩)
  obtain rfl : b = u := waits fun ⟨_, _, hd⟩ => by revert hd; decide
  obtain ⟨mode, queue⟩ := doubledController_enters
  have made := exec_fieldFrameInvalid (s := doubledController) rfl []
  have bMode : b.mdc.mode = .starting := by rw [rest]; rfl
  have bQueue : b.slu.inputQ = doubledController.slu.inputQ := by rw [rest]
  have agree := congrArg State.mdc (Host.Outcome.next.inj (made.symm.trans next))
  rw [sendPoll_eq, finish_settleLine_mdc doubledController queue, finish_settleLine_mdc doubledController (bQueue.trans rfl)] at agree
  rw [agree, bMode] at mode
  cases mode

end Sys2Proof.Machine

/-! ### What a slot gives up: locks, claims, requests (R35 to R37, R57, R97, R98, R154, R163)

`Freed s i g x t` says once what every release of slot `i`'s locks, claim entries and remote requests makes of `s`. Each operation
that releases is one of its cases, and a chain of them adds up (`Freed.trans`). -/

namespace Sys2Proof.Machine

/-! #### One record -/

/-- A section record without its lock owner, and with `n` claims taken from its count. -/
def SectionRec.unlocked (r : SectionRec) : SectionRec := { r with owner := none, kind := none }
def SectionRec.less (r : SectionRec) (n : Nat) : SectionRec := { r with claims := r.claims - n }

/-- A point record likewise; the flank claim position goes with the last claim (R37). -/
def PointRec.unlocked (r : PointRec) : PointRec := { r with owner := none, kind := none, lockedPos := none }
def PointRec.less (r : PointRec) (n : Nat) : PointRec :=
  { r with claimPos := if n ≠ 0 ∧ r.claims ≤ n then none else r.claimPos, claims := r.claims - n }

/-- A signal record likewise. -/
def SignalRec.unlocked (r : SignalRec) : SignalRec := { r with owner := none }
def SignalRec.less (r : SignalRec) (n : Nat) : SignalRec := { r with holds := r.holds - n }

theorem SectionRec.less_less (r : SectionRec) (a b : Nat) : (r.less a).less b = r.less (a + b) := by
  simp [SectionRec.less, Nat.sub_sub]
theorem SectionRec.unlocked_less (r : SectionRec) (n : Nat) : (r.less n).unlocked = r.unlocked.less n := rfl
theorem SectionRec.unlocked_unlocked (r : SectionRec) : r.unlocked.unlocked = r.unlocked := rfl

theorem PointRec.less_less (r : PointRec) (a b : Nat) : (r.less a).less b = r.less (a + b) := by
  have hpos : (if b ≠ 0 ∧ r.claims - a ≤ b then none else if a ≠ 0 ∧ r.claims ≤ a then none else r.claimPos)
      = if a + b ≠ 0 ∧ r.claims ≤ a + b then none else r.claimPos := by
    by_cases h : a + b ≠ 0 ∧ r.claims ≤ a + b
    · rw [if_pos h]
      by_cases hb : b ≠ 0 ∧ r.claims - a ≤ b
      · rw [if_pos hb]
      · rw [if_neg hb, if_pos (by omega)]
    · rw [if_neg h, if_neg (by omega), if_neg (by omega)]
  simp only [PointRec.less, Nat.sub_sub]
  exact congrArg (fun c => { r with claimPos := c, claims := r.claims - (a + b) }) hpos
theorem PointRec.less_zero (r : PointRec) : r.less 0 = r := by simp [PointRec.less]
theorem PointRec.unlocked_less (r : PointRec) (n : Nat) : (r.less n).unlocked = r.unlocked.less n := rfl
theorem PointRec.unlocked_unlocked (r : PointRec) : r.unlocked.unlocked = r.unlocked := rfl

theorem SignalRec.less_less (r : SignalRec) (a b : Nat) : (r.less a).less b = r.less (a + b) := by
  simp [SignalRec.less, Nat.sub_sub]
theorem SignalRec.unlocked_less (r : SignalRec) (n : Nat) : (r.less n).unlocked = r.unlocked.less n := rfl
theorem SignalRec.unlocked_unlocked (r : SignalRec) : r.unlocked.unlocked = r.unlocked := rfl

/-! #### Counting claim entries -/

theorem countOn_append (a b : List ClaimOn) (e : ElemRef) : countOn (a ++ b) e = countOn a e + countOn b e := by
  simp [countOn]

theorem countOn_nil (e : ElemRef) : countOn [] e = 0 := rfl

theorem countOn_pos {l : List ClaimOn} {e : ElemRef} (h : countOn l e ≠ 0) : ∃ c ∈ l, c.elem? = some e := by
  obtain ⟨c, hc⟩ := List.exists_mem_of_length_pos (Nat.pos_of_ne_zero h)
  rw [List.mem_filter] at hc
  exact ⟨c, hc.1, of_decide_eq_true hc.2⟩

theorem countOn_ne_zero {l : List ClaimOn} {e : ElemRef} {c : ClaimOn} (hc : c ∈ l) (he : c.elem? = some e) : countOn l e ≠ 0 := by
  have : c ∈ l.filter fun c => c.elem? = some e := List.mem_filter.2 ⟨hc, decide_eq_true he⟩
  exact (List.length_pos_of_mem this).ne'

theorem countOn_singleton (c : ClaimOn) (e : ElemRef) : countOn [c] e = if c.elem? = some e then 1 else 0 := by
  by_cases h : c.elem? = some e <;> simp [countOn, h]

/-- Entries that name one element read one count. -/
theorem claimCount_congr {s : State} {c c' : ClaimOn} (h : c.elem? = c'.elem?) : s.claimCount c = s.claimCount c' := by
  cases c <;> cases c' <;> simp only [ClaimOn.elem?, Option.some.injEq, ElemRef.mk.injEq, reduceCtorEq, false_and, true_and] at h <;>
    first | rfl | (subst h; rfl)

theorem any_eq_of_mem_iff {α : Type} {l l' : List α} (h : ∀ a, a ∈ l ↔ a ∈ l') (p : α → Bool) : l.any p = l'.any p := by
  rw [Bool.eq_iff_iff, List.any_eq_true, List.any_eq_true]
  exact exists_congr fun a => and_congr_left fun _ => h a

/-! #### Requests withdrawn (R97, R154, R163) -/

/-- The request is one of the link's list, not an acceptance. -/
def RemoteReq.asks (r : RemoteReq) : Bool :=
  match r.what with
  | .ask _ => true
  | .acceptance _ => false

/-- An outgoing request of link `l` goes with the requests `rs` of slot `i`. -/
def askGone (i : Nat) (rs : List RemoteReq) (l : Nat) (o : OutReq) : Bool :=
  decide (o.slot = i) && rs.any fun q => decide (q.link = l ∧ q.tag = o.tag) && q.asks

/-- The acceptance request of port `p` goes with the requests `rs` of slot `i`. -/
def accGone (i : Nat) (rs : List RemoteReq) (p : Nat) (a : Option (Nat × Nat)) : Bool :=
  rs.any fun q => decide (q.what = .acceptance p ∧ a = some (q.tag, i))

theorem askGone_append (i : Nat) (a b : List RemoteReq) (l : Nat) (o : OutReq) :
    askGone i (a ++ b) l o = (askGone i a l o || askGone i b l o) := by
  simp [askGone, Bool.and_or_distrib_left]

theorem accGone_append (i : Nat) (a b : List RemoteReq) (p : Nat) (x : Option (Nat × Nat)) :
    accGone i (a ++ b) p x = (accGone i a p x || accGone i b p x) := by
  simp [accGone]

theorem accGone_none (i : Nat) (rs : List RemoteReq) (p : Nat) : accGone i rs p none = false := by simp [accGone]

/-! #### What is given up -/

/-- What a slot gives up: the sections, points and signals whose locks go, the claim entries, the remote requests. -/
structure Loss where
  secs : Nat → Prop
  pts : Nat → Prop
  sigs : Nat → Prop
  claims : List ClaimOn
  reqs : List RemoteReq

def Loss.none : Loss := ⟨fun _ => False, fun _ => False, fun _ => False, [], []⟩

def Loss.add (g h : Loss) : Loss :=
  ⟨fun k => g.secs k ∨ h.secs k, fun k => g.pts k ∨ h.pts k, fun k => g.sigs k ∨ h.sigs k, g.claims ++ h.claims, g.reqs ++ h.reqs⟩

theorem countOn_add (g h : Loss) (e : ElemRef) : countOn (g.add h).claims e = countOn g.claims e + countOn h.claims e :=
  countOn_append g.claims h.claims e

/-- A claim count falls to 0 between two states. -/
def Emptied (s t : State) (gone : List ClaimOn) : Prop := ∃ c ∈ gone, s.claimCount c ≠ 0 ∧ t.claimCount c = 0

/-- Slot `i` has given up `g` between `s` and `t`, its record is `x` now; each lock that goes and each count that falls to 0 is a
release event, the elements are enqueued, and nothing else changes. -/
structure Freed (s : State) (i : Nat) (g : Loss) (x : Slot) (t : State) : Prop where
  secFreed : ∀ k, g.secs k → t.sec k = (s.sec k).unlocked.less (countOn g.claims ⟨.sect, k⟩)
  secKept : ∀ k, ¬g.secs k → t.sec k = (s.sec k).less (countOn g.claims ⟨.sect, k⟩)
  ptFreed : ∀ k, g.pts k → t.pt k = (s.pt k).unlocked.less (countOn g.claims ⟨.point, k⟩)
  ptKept : ∀ k, ¬g.pts k → t.pt k = (s.pt k).less (countOn g.claims ⟨.point, k⟩)
  sigFreed : ∀ k, g.sigs k → t.sig k = (s.sig k).unlocked.less (countOn g.claims ⟨.signal, k⟩)
  sigKept : ∀ k, ¬g.sigs k → t.sig k = (s.sig k).less (countOn g.claims ⟨.signal, k⟩)
  secNoted : ∀ k, g.secs k → Ref.sect k ∈ t.slu.noticeQ
  ptNoted : ∀ k, g.pts k → Ref.point k ∈ t.slu.noticeQ
  sigNoted : ∀ k, g.sigs k → Ref.signal k ∈ t.slu.noticeQ
  due : t.releaseDue = true ↔ s.releaseDue = true ∨ (∃ k, g.secs k) ∨ (∃ k, g.pts k) ∨ (∃ k, g.sigs k) ∨ Emptied s t g.claims
  link : ∀ l, t.link l = { s.link l with outgoing := (s.link l).outgoing.filter fun o => !askGone i g.reqs l o }
  port : ∀ p, t.port p = { s.port p with outAcc := if accGone i g.reqs p (s.port p).outAcc then none else (s.port p).outAcc }
  slot : t.slot i = x
  slots : ∀ j, j ≠ i → t.slot j = s.slot j
  sections : t.est.sections.length = s.est.sections.length
  points : t.est.points.length = s.est.points.length
  signals : t.est.signals.length = s.est.signals.length
  slotsLength : t.rsu.slots.length = s.rsu.slots.length
  links : t.bdu.links.length = s.bdu.links.length
  ports : t.bdu.ports.length = s.bdu.ports.length
  queue : s.slu.noticeQ <+: t.slu.noticeQ
  rest : t = { s with
    est.sections := t.est.sections, est.points := t.est.points, est.signals := t.est.signals
    rsu.slots := t.rsu.slots, bdu := t.bdu, slu.noticeQ := t.slu.noticeQ, releaseDue := t.releaseDue }

namespace Freed
variable {s t u : State} {i : Nat} {g h : Loss} {x y : Slot}

theorem sec_claims (k : Freed s i g x t) (j : Nat) : (t.sec j).claims = (s.sec j).claims - countOn g.claims ⟨.sect, j⟩ := by
  by_cases hj : g.secs j
  · rw [k.secFreed j hj]; rfl
  · rw [k.secKept j hj]; rfl

theorem pt_claims (k : Freed s i g x t) (j : Nat) : (t.pt j).claims = (s.pt j).claims - countOn g.claims ⟨.point, j⟩ := by
  by_cases hj : g.pts j
  · rw [k.ptFreed j hj]; rfl
  · rw [k.ptKept j hj]; rfl

theorem sig_holds (k : Freed s i g x t) (j : Nat) : (t.sig j).holds = (s.sig j).holds - countOn g.claims ⟨.signal, j⟩ := by
  by_cases hj : g.sigs j
  · rw [k.sigFreed j hj]; rfl
  · rw [k.sigKept j hj]; rfl

/-- The count of the element an entry names has lost the entries given up. -/
theorem claimCount (k : Freed s i g x t) (c : ClaimOn) :
    t.claimCount c = s.claimCount c - (c.elem?.elim 0 fun e => countOn g.claims e) := by
  cases c with
  | point j p => exact k.pt_claims j
  | signal j => exact k.sig_holds j
  | sect j => exact k.sec_claims j
  | port p => rfl

theorem occ (k : Freed s i g x t) (j : Nat) : (t.sec j).occ = (s.sec j).occ := by
  by_cases hj : g.secs j
  · rw [k.secFreed j hj]; rfl
  · rw [k.secKept j hj]; rfl

theorem refl (s : State) (i : Nat) : Freed s i Loss.none (s.slot i) s where
  secFreed _ := False.elim
  secKept _ _ := rfl
  ptFreed _ := False.elim
  ptKept k _ := (PointRec.less_zero _).symm
  sigFreed _ := False.elim
  sigKept _ _ := rfl
  secNoted _ := False.elim
  ptNoted _ := False.elim
  sigNoted _ := False.elim
  due := by simp [Loss.none, Emptied]
  link l := by simp [Loss.none, askGone]
  port p := by simp [Loss.none, accGone]
  slot := rfl
  slots _ _ := rfl
  sections := rfl
  points := rfl
  signals := rfl
  slotsLength := rfl
  links := rfl
  ports := rfl
  queue := List.prefix_rfl
  rest := rfl

/-- Where what is given up is named otherwise: the order of the entries and the requests does not matter. -/
theorem recast (k : Freed s i g x t) (hs : ∀ j, h.secs j ↔ g.secs j) (hp : ∀ j, h.pts j ↔ g.pts j) (hg : ∀ j, h.sigs j ↔ g.sigs j)
    (hc : h.claims.Perm g.claims) (hr : ∀ q, q ∈ h.reqs ↔ q ∈ g.reqs) (hx : y = x) : Freed s i h y t := by
  subst hx
  have hn : ∀ e, countOn h.claims e = countOn g.claims e := fun e => (hc.filter _).length_eq
  have hask : ∀ l o, askGone i h.reqs l o = askGone i g.reqs l o := fun l o => by
    rw [askGone, askGone, any_eq_of_mem_iff hr]
  have hacc : ∀ p a, accGone i h.reqs p a = accGone i g.reqs p a := fun p a => by
    rw [accGone, accGone, any_eq_of_mem_iff hr]
  exact {
    k with
    secFreed := fun j hj => by rw [hn, k.secFreed j ((hs j).1 hj)]
    secKept := fun j hj => by rw [hn, k.secKept j (mt (hs j).2 hj)]
    ptFreed := fun j hj => by rw [hn, k.ptFreed j ((hp j).1 hj)]
    ptKept := fun j hj => by rw [hn, k.ptKept j (mt (hp j).2 hj)]
    sigFreed := fun j hj => by rw [hn, k.sigFreed j ((hg j).1 hj)]
    sigKept := fun j hj => by rw [hn, k.sigKept j (mt (hg j).2 hj)]
    secNoted := fun j hj => k.secNoted j ((hs j).1 hj)
    ptNoted := fun j hj => k.ptNoted j ((hp j).1 hj)
    sigNoted := fun j hj => k.sigNoted j ((hg j).1 hj)
    due := by simp only [k.due, Emptied, hs, hp, hg, hc.mem_iff]
    link := fun l => by simp only [k.link l, hask]
    port := fun p => by simp only [k.port p, hacc] }

theorem congr (k : Freed s i g x t) (hs : ∀ j, h.secs j ↔ g.secs j) (hp : ∀ j, h.pts j ↔ g.pts j) (hg : ∀ j, h.sigs j ↔ g.sigs j)
    (hc : h.claims = g.claims) (hr : h.reqs = g.reqs) (hx : y = x) : Freed s i h y t :=
  k.recast hs hp hg (hc ▸ List.Perm.refl _) (fun _ => hr ▸ Iff.rfl) hx

/-- A count that one part or the other of a chain takes to 0 is one the whole chain does. -/
theorem emptied_trans (k : Freed s i g x t) (k' : Freed t i h y u) :
    Emptied s u (g.claims ++ h.claims) ↔ Emptied s t g.claims ∨ Emptied t u h.claims := by
  have first := k.claimCount
  have second := k'.claimCount
  constructor
  · rintro ⟨c, hc, hs, hu⟩
    have hu' := second c
    have ht' := first c
    rcases he : c.elem? with _ | e
    · simp only [he, Option.elim_none, Nat.sub_zero] at hu' ht'
      omega
    · simp only [he, Option.elim_some] at hu' ht'
      by_cases ht : t.claimCount c = 0
      · obtain ⟨c', hm, hc'⟩ := countOn_pos (l := g.claims) (e := e) (by omega)
        exact .inl ⟨c', hm, by rwa [claimCount_congr (hc'.trans he.symm)], by rwa [claimCount_congr (hc'.trans he.symm)]⟩
      · obtain ⟨c', hm, hc'⟩ := countOn_pos (l := h.claims) (e := e) (by omega)
        exact .inr ⟨c', hm, by rwa [claimCount_congr (hc'.trans he.symm)], by rwa [claimCount_congr (hc'.trans he.symm)]⟩
  · rintro (⟨c, hc, hs, ht⟩ | ⟨c, hc, ht, hu⟩)
    · exact ⟨c, List.mem_append_left _ hc, hs, by rw [second, ht, Nat.zero_sub]⟩
    · exact ⟨c, List.mem_append_right _ hc, fun hs => ht (by rw [first, hs, Nat.zero_sub]), hu⟩

/-- Releases one after the other add up. -/
theorem trans (k : Freed s i g x t) (k' : Freed t i h y u) : Freed s i (g.add h) y u where
  secFreed j hj := by
    rw [countOn_add]
    by_cases hg : g.secs j <;> by_cases hh : h.secs j
    · rw [k'.secFreed j hh, k.secFreed j hg, SectionRec.unlocked_less, SectionRec.unlocked_unlocked, SectionRec.less_less]
    · rw [k'.secKept j hh, k.secFreed j hg, SectionRec.less_less]
    · rw [k'.secFreed j hh, k.secKept j hg, SectionRec.unlocked_less, SectionRec.less_less]
    · exact absurd hj (not_or.2 ⟨hg, hh⟩)
  secKept j hj := by
    rw [k'.secKept j fun hh => hj (.inr hh), k.secKept j fun hg => hj (.inl hg), SectionRec.less_less, countOn_add]
  ptFreed j hj := by
    rw [countOn_add]
    by_cases hg : g.pts j <;> by_cases hh : h.pts j
    · rw [k'.ptFreed j hh, k.ptFreed j hg, PointRec.unlocked_less, PointRec.unlocked_unlocked, PointRec.less_less]
    · rw [k'.ptKept j hh, k.ptFreed j hg, PointRec.less_less]
    · rw [k'.ptFreed j hh, k.ptKept j hg, PointRec.unlocked_less, PointRec.less_less]
    · exact absurd hj (not_or.2 ⟨hg, hh⟩)
  ptKept j hj := by
    rw [k'.ptKept j fun hh => hj (.inr hh), k.ptKept j fun hg => hj (.inl hg), PointRec.less_less, countOn_add]
  sigFreed j hj := by
    rw [countOn_add]
    by_cases hg : g.sigs j <;> by_cases hh : h.sigs j
    · rw [k'.sigFreed j hh, k.sigFreed j hg, SignalRec.unlocked_less, SignalRec.unlocked_unlocked, SignalRec.less_less]
    · rw [k'.sigKept j hh, k.sigFreed j hg, SignalRec.less_less]
    · rw [k'.sigFreed j hh, k.sigKept j hg, SignalRec.unlocked_less, SignalRec.less_less]
    · exact absurd hj (not_or.2 ⟨hg, hh⟩)
  sigKept j hj := by
    rw [k'.sigKept j fun hh => hj (.inr hh), k.sigKept j fun hg => hj (.inl hg), SignalRec.less_less, countOn_add]
  secNoted j hj := hj.elim (fun hj => k'.queue.subset (k.secNoted j hj)) (k'.secNoted j)
  ptNoted j hj := hj.elim (fun hj => k'.queue.subset (k.ptNoted j hj)) (k'.ptNoted j)
  sigNoted j hj := hj.elim (fun hj => k'.queue.subset (k.sigNoted j hj)) (k'.sigNoted j)
  due := by
    rw [k'.due, k.due]
    show _ ↔ _ ∨ (∃ j, g.secs j ∨ h.secs j) ∨ (∃ j, g.pts j ∨ h.pts j) ∨ (∃ j, g.sigs j ∨ h.sigs j) ∨ Emptied s u (g.claims ++ h.claims)
    rw [emptied_trans k k', exists_or, exists_or, exists_or]
    tauto
  link l := by
    rw [k'.link l, k.link l]
    simp only [List.filter_filter, Loss.add, askGone_append, Bool.not_or, Bool.and_comm]
  port p := by
    rw [k'.port p, k.port p]
    simp only [Loss.add, accGone_append, Bool.or_eq_true]
    by_cases h1 : accGone i g.reqs p (s.port p).outAcc = true
    · simp [h1, accGone_none]
    · simp [h1]
  slot := k'.slot
  slots j hj := (k'.slots j hj).trans (k.slots j hj)
  sections := k'.sections.trans k.sections
  points := k'.points.trans k.points
  signals := k'.signals.trans k.signals
  slotsLength := k'.slotsLength.trans k.slotsLength
  links := k'.links.trans k.links
  ports := k'.ports.trans k.ports
  queue := k.queue.trans k'.queue
  rest := by
    rw [k'.rest, k.rest]

end Freed

/-! #### Each operation that releases -/

/-- Only locks of sections, of points, of signals; only claim entries; only requests. -/
def Loss.ofSecs (P : Nat → Prop) : Loss := ⟨P, fun _ => False, fun _ => False, [], []⟩
def Loss.ofPts (P : Nat → Prop) : Loss := ⟨fun _ => False, P, fun _ => False, [], []⟩
def Loss.ofSigs (P : Nat → Prop) : Loss := ⟨fun _ => False, fun _ => False, P, [], []⟩
def Loss.ofClaims (cs : List ClaimOn) : Loss := ⟨fun _ => False, fun _ => False, fun _ => False, cs, []⟩
def Loss.ofReqs (rs : List RemoteReq) : Loss := ⟨fun _ => False, fun _ => False, fun _ => False, [], rs⟩

theorem lt_of_secOwner {s : State} {k : Nat} {o : Owner} (h : (s.sec k).owner = some o) : k < s.est.sections.length := by
  by_contra hk
  rw [State.sec, List.getD_eq_default _ _ (not_lt.1 hk)] at h
  cases h

theorem lt_of_ptOwner {s : State} {k : Nat} {o : Owner} (h : (s.pt k).owner = some o) : k < s.est.points.length := by
  by_contra hk
  rw [State.pt, List.getD_eq_default _ _ (not_lt.1 hk)] at h
  cases h

theorem lt_of_sigOwner {s : State} {k i : Nat} (h : (s.sig k).owner = some i) : k < s.est.signals.length := by
  by_contra hk
  rw [State.sig, List.getD_eq_default _ _ (not_lt.1 hk)] at h
  cases h

namespace Freed
variable (s : State) (i : Nat)

theorem freeSec (k : Nat) :
    Freed s i (Loss.ofSecs fun j => j = k ∧ (s.sec j).owner = some (.slot i)) (s.slot i) (s.freeSec k (.slot i)) := by
  unfold State.freeSec
  split
  · rename_i ho
    have hk := lt_of_secOwner ho
    have he := note_eq (s.modSec k fun r => { r with owner := none, kind := none }).releaseEvent (.sect k)
    have hm := mem_note (s.modSec k fun r => { r with owner := none, kind := none }).releaseEvent (.sect k)
    have hp := note_prefix (s.modSec k fun r => { r with owner := none, kind := none }).releaseEvent (.sect k)
    generalize ((s.modSec k fun r => { r with owner := none, kind := none }).releaseEvent).note (.sect k) = t at he hm hp
    have hsec : ∀ j, t.sec j = (s.modSec k fun r => { r with owner := none, kind := none }).sec j := fun j => by rw [he]; rfl
    exact {
      secFreed := by rintro j ⟨rfl, -⟩; rw [hsec, State.modSec_sec_at, if_pos ⟨rfl, hk⟩]; rfl
      secKept := fun j hj => by
        rw [hsec, State.modSec_sec_at, if_neg (fun h : k = j ∧ _ => hj ⟨h.1.symm, h.1 ▸ ho⟩)]; rfl
      ptFreed := fun _ => False.elim
      ptKept := fun j _ => by rw [he]; exact (PointRec.less_zero _).symm
      sigFreed := fun _ => False.elim
      sigKept := fun j _ => by rw [he]; rfl
      secNoted := by rintro j ⟨rfl, -⟩; exact hm
      ptNoted := fun _ => False.elim
      sigNoted := fun _ => False.elim
      due := by
        rw [show t.releaseDue = true by rw [he]; rfl]
        exact iff_of_true rfl (.inr (.inl ⟨k, rfl, ho⟩))
      link := fun l => by rw [he]; simp [Loss.ofSecs, askGone, State.link]
      port := fun p => by rw [he]; simp [Loss.ofSecs, accGone, State.port]
      slot := by rw [he]; rfl
      slots := fun j _ => by rw [he]; rfl
      sections := by rw [he]; exact List.length_modify _ _ _
      points := by rw [he]; rfl
      signals := by rw [he]; rfl
      slotsLength := by rw [he]; rfl
      links := by rw [he]; rfl
      ports := by rw [he]; rfl
      queue := hp
      rest := by rw [he]; rfl }
  · rename_i ho
    exact (refl s i).congr (fun j => iff_of_false (fun h => ho (h.1 ▸ h.2)) id) (fun _ => Iff.rfl) (fun _ => Iff.rfl) rfl rfl rfl

theorem freePt (k : Nat) :
    Freed s i (Loss.ofPts fun j => j = k ∧ (s.pt j).owner = some (.slot i)) (s.slot i) (s.freePt k (.slot i)) := by
  unfold State.freePt
  split
  · rename_i ho
    have hk := lt_of_ptOwner ho
    have he := note_eq (s.modPt k fun r => { r with owner := none, kind := none, lockedPos := none }).releaseEvent (.point k)
    have hm := mem_note (s.modPt k fun r => { r with owner := none, kind := none, lockedPos := none }).releaseEvent (.point k)
    have hp := note_prefix (s.modPt k fun r => { r with owner := none, kind := none, lockedPos := none }).releaseEvent (.point k)
    generalize ((s.modPt k fun r => { r with owner := none, kind := none, lockedPos := none }).releaseEvent).note (.point k) = t at he hm hp
    have hpt : ∀ j, t.pt j = (s.modPt k fun r => { r with owner := none, kind := none, lockedPos := none }).pt j := fun j => by rw [he]; rfl
    exact {
      secFreed := fun _ => False.elim
      secKept := fun j _ => by rw [he]; rfl
      ptFreed := by
        rintro j ⟨rfl, -⟩
        rw [hpt, State.modPt_pt_at, if_pos ⟨rfl, hk⟩]
        exact (PointRec.less_zero (s.pt j).unlocked).symm
      ptKept := fun j hj => by
        rw [hpt, State.modPt_pt_at, if_neg (fun h : k = j ∧ _ => hj ⟨h.1.symm, h.1 ▸ ho⟩)]
        exact (PointRec.less_zero _).symm
      sigFreed := fun _ => False.elim
      sigKept := fun j _ => by rw [he]; rfl
      secNoted := fun _ => False.elim
      ptNoted := by rintro j ⟨rfl, -⟩; exact hm
      sigNoted := fun _ => False.elim
      due := by
        rw [show t.releaseDue = true by rw [he]; rfl]
        exact iff_of_true rfl (.inr (.inr (.inl ⟨k, rfl, ho⟩)))
      link := fun l => by rw [he]; simp [Loss.ofPts, askGone, State.link]
      port := fun p => by rw [he]; simp [Loss.ofPts, accGone, State.port]
      slot := by rw [he]; rfl
      slots := fun j _ => by rw [he]; rfl
      sections := by rw [he]; rfl
      points := by rw [he]; exact List.length_modify _ _ _
      signals := by rw [he]; rfl
      slotsLength := by rw [he]; rfl
      links := by rw [he]; rfl
      ports := by rw [he]; rfl
      queue := hp
      rest := by rw [he]; rfl }
  · rename_i ho
    exact (refl s i).congr (fun _ => Iff.rfl) (fun j => iff_of_false (fun h => ho (h.1 ▸ h.2)) id) (fun _ => Iff.rfl) rfl rfl rfl

theorem freeSig (k : Nat) :
    Freed s i (Loss.ofSigs fun j => j = k ∧ (s.sig j).owner = some i) (s.slot i) (s.freeSig k i) := by
  unfold State.freeSig
  split
  · rename_i ho
    have hk := lt_of_sigOwner ho
    have he := note_eq (s.modSig k fun r => { r with owner := none }).releaseEvent (.signal k)
    have hm := mem_note (s.modSig k fun r => { r with owner := none }).releaseEvent (.signal k)
    have hp := note_prefix (s.modSig k fun r => { r with owner := none }).releaseEvent (.signal k)
    generalize ((s.modSig k fun r => { r with owner := none }).releaseEvent).note (.signal k) = t at he hm hp
    have hsig : ∀ j, t.sig j = (s.modSig k fun r => { r with owner := none }).sig j := fun j => by rw [he]; rfl
    exact {
      secFreed := fun _ => False.elim
      secKept := fun j _ => by rw [he]; rfl
      ptFreed := fun _ => False.elim
      ptKept := fun j _ => by rw [he]; exact (PointRec.less_zero _).symm
      sigFreed := by rintro j ⟨rfl, -⟩; rw [hsig, State.modSig_sig_at, if_pos ⟨rfl, hk⟩]; rfl
      sigKept := fun j hj => by
        rw [hsig, State.modSig_sig_at, if_neg (fun h : k = j ∧ _ => hj ⟨h.1.symm, h.1 ▸ ho⟩)]; rfl
      secNoted := fun _ => False.elim
      ptNoted := fun _ => False.elim
      sigNoted := by rintro j ⟨rfl, -⟩; exact hm
      due := by
        rw [show t.releaseDue = true by rw [he]; rfl]
        exact iff_of_true rfl (.inr (.inr (.inr (.inl ⟨k, rfl, ho⟩))))
      link := fun l => by rw [he]; simp [Loss.ofSigs, askGone, State.link]
      port := fun p => by rw [he]; simp [Loss.ofSigs, accGone, State.port]
      slot := by rw [he]; rfl
      slots := fun j _ => by rw [he]; rfl
      sections := by rw [he]; rfl
      points := by rw [he]; rfl
      signals := by rw [he]; exact List.length_modify _ _ _
      slotsLength := by rw [he]; rfl
      links := by rw [he]; rfl
      ports := by rw [he]; rfl
      queue := hp
      rest := by rw [he]; rfl }
  · rename_i ho
    exact (refl s i).congr (fun _ => Iff.rfl) (fun _ => Iff.rfl) (fun j => iff_of_false (fun h => ho (h.1 ▸ h.2)) id) rfl rfl rfl

/-- A count loses one entry, without the release event and the notice. -/
theorem takeCount_reads (c : ClaimOn) :
    (∀ j, (s.takeCount c).sec j = (s.sec j).less (countOn [c] ⟨.sect, j⟩))
      ∧ (∀ j, (s.takeCount c).pt j = (s.pt j).less (countOn [c] ⟨.point, j⟩))
      ∧ (∀ j, (s.takeCount c).sig j = (s.sig j).less (countOn [c] ⟨.signal, j⟩)) := by
  simp only [countOn_singleton]
  cases c with
  | point k p =>
    refine ⟨fun j => rfl, fun j => ?_, fun j => rfl⟩
    rw [State.takeCount, State.modPt_pt_at]
    by_cases hj : k = j
    · subst hj
      by_cases hk : k < s.est.points.length
      · simp [hk, ClaimOn.elem?, PointRec.less]
      · simp [hk, ClaimOn.elem?, PointRec.less, State.pt, PointRec.start]
    · simp [hj, ClaimOn.elem?, PointRec.less]
  | signal k =>
    refine ⟨fun j => rfl, fun j => (PointRec.less_zero _).symm, fun j => ?_⟩
    rw [State.takeCount, State.modSig_sig_at]
    by_cases hj : k = j
    · subst hj
      by_cases hk : k < s.est.signals.length
      · simp [hk, ClaimOn.elem?, SignalRec.less]
      · simp [hk, ClaimOn.elem?, SignalRec.less, State.sig, SignalRec.start]
    · simp [hj, ClaimOn.elem?, SignalRec.less]
  | sect k =>
    refine ⟨fun j => ?_, fun j => (PointRec.less_zero _).symm, fun j => rfl⟩
    rw [State.takeCount, State.modSec_sec_at]
    by_cases hj : k = j
    · subst hj
      by_cases hk : k < s.est.sections.length
      · simp [hk, ClaimOn.elem?, SectionRec.less]
      · simp [hk, ClaimOn.elem?, SectionRec.less, State.sec, SectionRec.start]
    · simp [hj, ClaimOn.elem?, SectionRec.less]
  | port k => exact ⟨fun j => rfl, fun j => (PointRec.less_zero _).symm, fun j => rfl⟩

theorem takeCount_lengths (c : ClaimOn) :
    (s.takeCount c).est.sections.length = s.est.sections.length ∧ (s.takeCount c).est.points.length = s.est.points.length
      ∧ (s.takeCount c).est.signals.length = s.est.signals.length := by
  cases c <;> simp [State.takeCount]

theorem takeCount_rest (c : ClaimOn) : s.takeCount c = { s with
    est.sections := (s.takeCount c).est.sections, est.points := (s.takeCount c).est.points
    est.signals := (s.takeCount c).est.signals } := by
  cases c <;> rfl

theorem noteClaimed_noted (c : ClaimOn) : Noted s (s.noteClaimed c) := by
  cases c
  case port => exact Noted.refl s
  all_goals exact Noted.note s _

theorem dropCount (c : ClaimOn) : Freed s i (Loss.ofClaims [c]) (s.slot i) (s.dropCount c) := by
  have hr := takeCount_reads s c
  have hl := takeCount_lengths s c
  have he := takeCount_rest s c
  have hn := noteClaimed_noted (if s.claimCount c = 1 then (s.takeCount c).releaseEvent else s.takeCount c) c
  have hd : (if s.claimCount c = 1 then (s.takeCount c).releaseEvent else s.takeCount c)
      = { s.takeCount c with releaseDue := s.releaseDue || decide (s.claimCount c = 1) } := by
    by_cases h1 : s.claimCount c = 1
    · rw [if_pos h1]; simp [State.releaseEvent, h1]
    · rw [if_neg h1]; simp only [h1, decide_false, Bool.or_false]; rw [he]
  rw [hd] at hn
  have ht : s.dropCount c = ({ s.takeCount c with releaseDue := s.releaseDue || decide (s.claimCount c = 1) } : State).noteClaimed c := by
    rw [State.dropCount, hd]
  rw [ht]
  generalize ({ s.takeCount c with releaseDue := s.releaseDue || decide (s.claimCount c = 1) } : State).noteClaimed c = t at hn
  obtain ⟨hn, hq⟩ := hn
  generalize s.takeCount c = u at hr hl he hn hq
  obtain ⟨hsec, hpt, hsig⟩ := hr
  have tsec : ∀ j, t.sec j = (s.sec j).less (countOn [c] ⟨.sect, j⟩) := fun j => by rw [← hsec, hn]; rfl
  have tpt : ∀ j, t.pt j = (s.pt j).less (countOn [c] ⟨.point, j⟩) := fun j => by rw [← hpt, hn]; rfl
  have tsig : ∀ j, t.sig j = (s.sig j).less (countOn [c] ⟨.signal, j⟩) := fun j => by rw [← hsig, hn]; rfl
  have tcount : t.claimCount c = s.claimCount c - 1 := by
    cases c with
    | point k p => simp [State.claimCount, tpt, PointRec.less, countOn_singleton, ClaimOn.elem?]
    | signal k => simp [State.claimCount, tsig, SignalRec.less, countOn_singleton, ClaimOn.elem?]
    | sect k => simp [State.claimCount, tsec, SectionRec.less, countOn_singleton, ClaimOn.elem?]
    | port k => rfl
  have tslu : s.slu.noticeQ <+: t.slu.noticeQ := by
    have h : u.slu = s.slu := by rw [he]
    exact h ▸ hq
  have tdue : t.releaseDue = (s.releaseDue || decide (s.claimCount c = 1)) := by rw [hn]
  exact {
    secFreed := fun _ => False.elim
    secKept := fun j _ => tsec j
    ptFreed := fun _ => False.elim
    ptKept := fun j _ => tpt j
    sigFreed := fun _ => False.elim
    sigKept := fun j _ => tsig j
    secNoted := fun _ => False.elim
    ptNoted := fun _ => False.elim
    sigNoted := fun _ => False.elim
    due := by
      simp only [tdue, Loss.ofClaims, Emptied, List.mem_singleton, exists_eq_left, tcount, exists_false, false_or, Bool.or_eq_true,
        decide_eq_true_eq]
      exact or_congr_right (by omega)
    link := fun l => by rw [hn, he]; simp [Loss.ofClaims, askGone, State.link]
    port := fun p => by rw [hn, he]; simp [Loss.ofClaims, accGone, State.port]
    slot := by rw [hn, he]; rfl
    slots := fun j _ => by rw [hn, he]; rfl
    sections := by rw [← hl.1, hn]
    points := by rw [← hl.2.1, hn]
    signals := by rw [← hl.2.2, hn]
    slotsLength := by rw [hn, he]
    links := by rw [hn, he]
    ports := by rw [hn, he]
    queue := tslu
    rest := by rw [hn, he] }

theorem withdraw_link (r : RemoteReq) (l : Nat) : (s.withdraw i r).link l
    = { s.link l with outgoing := (s.link l).outgoing.filter fun o => !askGone i [r] l o } := by
  cases hr : r.what with
  | acceptance p => simp [State.withdraw, hr, askGone, RemoteReq.asks]
  | ask a =>
    simp only [State.withdraw, hr, State.modLink_link_at]
    by_cases hl : r.link = l
    · subst hl
      by_cases hk : r.link < s.bdu.links.length
      · simp [hk, askGone, RemoteReq.asks, hr, eq_comm, Bool.and_comm]
      · simp [hk, State.link, Link.start]
    · simp [hl, askGone]

theorem withdraw_port (r : RemoteReq) (p : Nat) : (s.withdraw i r).port p
    = { s.port p with outAcc := if accGone i [r] p (s.port p).outAcc then none else (s.port p).outAcc } := by
  cases hr : r.what with
  | ask a => simp [State.withdraw, hr, accGone]
  | acceptance q =>
    simp only [State.withdraw, hr, State.modPort_port_at]
    by_cases hp : q = p
    · subst hp
      by_cases hk : q < s.bdu.ports.length
      · by_cases ha : (s.port q).outAcc = some (r.tag, i) <;> simp [hk, accGone, hr, ha]
      · simp [hk, State.port, Port.start]
    · simp [hp, accGone, hr]

theorem withdraw (r : RemoteReq) : Freed s i (Loss.ofReqs [r]) (s.slot i) (s.withdraw i r) := by
  have hlinks := withdraw_link s i r
  have hports := withdraw_port s i r
  have he : s.withdraw i r = { s with bdu := (s.withdraw i r).bdu } := by
    unfold State.withdraw
    split <;> rfl
  have hll : (s.withdraw i r).bdu.links.length = s.bdu.links.length := by
    unfold State.withdraw
    split <;> simp
  have hpl : (s.withdraw i r).bdu.ports.length = s.bdu.ports.length := by
    unfold State.withdraw
    split <;> simp
  generalize s.withdraw i r = t at *
  exact {
    secFreed := fun _ => False.elim
    secKept := fun j _ => by rw [he]; rfl
    ptFreed := fun _ => False.elim
    ptKept := fun j _ => by rw [he]; exact (PointRec.less_zero _).symm
    sigFreed := fun _ => False.elim
    sigKept := fun j _ => by rw [he]; rfl
    secNoted := fun _ => False.elim
    ptNoted := fun _ => False.elim
    sigNoted := fun _ => False.elim
    due := by rw [he]; simp [Loss.ofReqs, Emptied]
    link := hlinks
    port := hports
    slot := by rw [he]; rfl
    slots := fun j _ => by rw [he]; rfl
    sections := by rw [he]
    points := by rw [he]
    signals := by rw [he]
    slotsLength := by rw [he]
    links := hll
    ports := hpl
    queue := by rw [he]
    rest := by rw [he] }

/-! #### Lists of releases -/

variable {s i} {t u : State} {g : Loss} {x : Slot}

theorem secOwner_of_kept (k : Freed s i g x t) {j : Nat} (hj : ¬g.secs j) :
    (t.sec j).owner = (s.sec j).owner ∧ (t.sec j).kind = (s.sec j).kind := by
  rw [k.secKept j hj]; exact ⟨rfl, rfl⟩

theorem ptOwner_of_kept (k : Freed s i g x t) {j : Nat} (hj : ¬g.pts j) :
    (t.pt j).owner = (s.pt j).owner ∧ (t.pt j).kind = (s.pt j).kind := by
  rw [k.ptKept j hj]; exact ⟨rfl, rfl⟩

theorem sigOwner_of_kept (k : Freed s i g x t) {j : Nat} (hj : ¬g.sigs j) : (t.sig j).owner = (s.sig j).owner := by
  rw [k.sigKept j hj]; rfl

theorem noted (k : Freed s i g x t) (n : Noted t u) : Freed s i g x u := by
  obtain ⟨n, hq⟩ := n
  have hq' := k.queue.trans hq
  have hin := hq.subset
  obtain ⟨q, hn⟩ : ∃ q, u = { t with slu.noticeQ := q } := ⟨_, n⟩
  subst hn
  exact {
    k with
    secNoted := fun j hj => hin (k.secNoted j hj)
    ptNoted := fun j hj => hin (k.ptNoted j hj)
    sigNoted := fun j hj => hin (k.sigNoted j hj)
    queue := hq'
    rest := by rw [k.rest] }

/-- The record of the slot changed as well. -/
theorem modSlot (k : Freed s i g x t) (f : Slot → Slot) (hi : i < s.rsu.slots.length) : Freed s i g (f x) (t.modSlot i f) := {
  k with
  slot := by rw [State.modSlot_slot_at, if_pos ⟨rfl, k.slotsLength.symm ▸ hi⟩, k.slot]
  slots := fun j hj => by rw [State.modSlot_slot_at, if_neg (fun h : i = j ∧ _ => hj h.1.symm), k.slots j hj]
  slotsLength := (List.length_modify _ _ _).trans k.slotsLength
  rest := by
    have h := k.rest
    unfold State.modSlot
    rw [h] }

variable (s i)

theorem eachSec (l : List Nat) :
    Freed s i (Loss.ofSecs fun j => j ∈ l ∧ (s.sec j).owner = some (.slot i)) (s.slot i) (s.each l fun t k => t.freeSec k (.slot i)) := by
  induction l generalizing s with
  | nil => exact (refl s i).congr (fun j => by simp [Loss.ofSecs, Loss.none]) (fun _ => Iff.rfl) (fun _ => Iff.rfl) rfl rfl rfl
  | cons k l ih =>
    have hk := freeSec s i k
    refine (hk.trans (ih _)).congr (fun j => ?_) (fun _ => (or_self_iff).symm) (fun _ => (or_self_iff).symm) rfl rfl hk.slot.symm
    show j ∈ k :: l ∧ _ ↔ (j = k ∧ _) ∨ (j ∈ l ∧ ((s.freeSec k (.slot i)).sec j).owner = _)
    by_cases h : j = k ∧ (s.sec j).owner = some (.slot i)
    · simp [h.1.symm, h.2]
    · rw [(hk.secOwner_of_kept h).1, List.mem_cons]
      tauto

theorem eachPt (l : List Nat) :
    Freed s i (Loss.ofPts fun j => j ∈ l ∧ (s.pt j).owner = some (.slot i)) (s.slot i) (s.each l fun t k => t.freePt k (.slot i)) := by
  induction l generalizing s with
  | nil => exact (refl s i).congr (fun _ => Iff.rfl) (fun j => by simp [Loss.ofPts, Loss.none]) (fun _ => Iff.rfl) rfl rfl rfl
  | cons k l ih =>
    have hk := freePt s i k
    refine (hk.trans (ih _)).congr (fun _ => (or_self_iff).symm) (fun j => ?_) (fun _ => (or_self_iff).symm) rfl rfl hk.slot.symm
    show j ∈ k :: l ∧ _ ↔ (j = k ∧ _) ∨ (j ∈ l ∧ ((s.freePt k (.slot i)).pt j).owner = _)
    by_cases h : j = k ∧ (s.pt j).owner = some (.slot i)
    · simp [h.1.symm, h.2]
    · rw [(hk.ptOwner_of_kept h).1, List.mem_cons]
      tauto

theorem eachSig (l : List Nat) :
    Freed s i (Loss.ofSigs fun j => j ∈ l ∧ (s.sig j).owner = some i) (s.slot i) (s.each l fun t k => t.freeSig k i) := by
  induction l generalizing s with
  | nil => exact (refl s i).congr (fun _ => Iff.rfl) (fun _ => Iff.rfl) (fun j => by simp [Loss.ofSigs, Loss.none]) rfl rfl rfl
  | cons k l ih =>
    have hk := freeSig s i k
    refine (hk.trans (ih _)).congr (fun _ => (or_self_iff).symm) (fun _ => (or_self_iff).symm) (fun j => ?_) rfl rfl hk.slot.symm
    show j ∈ k :: l ∧ _ ↔ (j = k ∧ _) ∨ (j ∈ l ∧ ((s.freeSig k i).sig j).owner = _)
    by_cases h : j = k ∧ (s.sig j).owner = some i
    · simp [h.1.symm, h.2]
    · rw [hk.sigOwner_of_kept h, List.mem_cons]
      tauto

theorem eachClaim (cs : List Claim) :
    Freed s i (Loss.ofClaims (cs.map Claim.what)) (s.slot i) (s.each cs fun t c => t.dropCount c.what) := by
  induction cs generalizing s with
  | nil => exact refl s i
  | cons c cs ih =>
    have hk := dropCount s i c.what
    exact (hk.trans (ih _)).congr (fun _ => (or_self_iff).symm) (fun _ => (or_self_iff).symm) (fun _ => (or_self_iff).symm) rfl rfl
      hk.slot.symm

theorem eachReq (rs : List RemoteReq) :
    Freed s i (Loss.ofReqs rs) (s.slot i) (s.each rs fun t r => t.withdraw i r) := by
  induction rs generalizing s with
  | nil => exact refl s i
  | cons r rs ih =>
    have hk := withdraw s i r
    exact (hk.trans (ih _)).congr (fun _ => (or_self_iff).symm) (fun _ => (or_self_iff).symm) (fun _ => (or_self_iff).symm) rfl rfl
      hk.slot.symm

end Freed

end Sys2Proof.Machine

/-! ### The releases of a slot: claim entries, path sections, the overlap, all it holds (R57, R98, R127, R130) -/

namespace Sys2Proof.Machine

/-! #### What leaves the slot's own lists -/

/-- A PORT_FLANK request of the slot goes with the entries that `f` names: one goes, and none that stays names its port (R97). -/
def Slot.drops (k : Slot) (f : Claim → Bool) (q : RemoteReq) : Bool :=
  !((k.claims.filter f).map Claim.what).isEmpty && idleFlank (k.claims.filter fun c => !f c) q

/-- The slot without the entries that `f` names, and without the requests that go with them. -/
def Slot.without (k : Slot) (f : Claim → Bool) : Slot :=
  { k with claims := k.claims.filter fun c => !f c, remote := k.remote.filter fun q => !k.drops f q }

/-- What the release of the entries that `f` names gives up. -/
def Slot.lossOf (k : Slot) (f : Claim → Bool) : Loss :=
  ⟨fun _ => False, fun _ => False, fun _ => False, (k.claims.filter f).map Claim.what, k.remote.filter (k.drops f)⟩

theorem idleFlank_asks {cs : List Claim} {q : RemoteReq} (h : idleFlank cs q = true) : q.asks = true := by
  unfold idleFlank at h
  unfold RemoteReq.asks
  cases hq : q.what with
  | ask a => rfl
  | acceptance p => rw [hq] at h; cases h

theorem Slot.drops_asks {k : Slot} {f : Claim → Bool} {q : RemoteReq} (h : k.drops f q = true) : q.asks = true :=
  idleFlank_asks (Bool.and_eq_true_iff.1 h).2

/-- With fewer entries left no more ports are named. -/
theorem idleFlank_mono {cs ds : List Claim} {q : RemoteReq} (hs : ∀ c ∈ ds, c ∈ cs) (h : idleFlank cs q = true) : idleFlank ds q = true := by
  unfold idleFlank at h ⊢
  cases hq : q.what with
  | acceptance p => rw [hq] at h; cases h
  | ask a =>
    simp only [hq, Bool.and_eq_true, Bool.not_eq_true', List.any_eq_false] at h ⊢
    exact ⟨h.1, fun c hc => h.2 c (hs c hc)⟩

theorem filter_not_of_filter_nil {α : Type} {l : List α} {f : α → Bool} (h : l.filter f = []) : (l.filter fun c => !f c) = l := by
  rw [List.filter_eq_self]
  exact fun c hc => by simpa using List.filter_eq_nil_iff.1 h c hc

/-- Releasing the entries of `f` and then those of `g` releases those of both, and the same requests go. -/
theorem Slot.drops_or (k : Slot) (f g : Claim → Bool) (q : RemoteReq) :
    k.drops (fun c => f c || g c) q = (k.drops f q || (k.without f).drops g q) := by
  have hleft : (k.claims.filter fun c => !(f c || g c)) = ((k.claims.filter fun c => !f c).filter fun c => !g c) := by
    rw [List.filter_filter]
    exact List.filter_congr fun c _ => by rw [Bool.not_or, Bool.and_comm]
  have hgone : (k.claims.filter fun c => f c || g c) = [] ↔
      k.claims.filter f = [] ∧ (k.claims.filter fun c => !f c).filter g = [] := by
    simp only [List.filter_eq_nil_iff, List.mem_filter, Bool.or_eq_true, not_or, Bool.not_eq_true', and_imp]
    grind
  rw [Bool.eq_iff_iff]
  simp only [Slot.drops, Slot.without, Bool.or_eq_true, Bool.and_eq_true, Bool.not_eq_true', List.isEmpty_eq_false_iff, ne_eq, List.map_eq_nil_iff, hgone,
    hleft]
  by_cases hf : k.claims.filter f = []
  · simp [hf, filter_not_of_filter_nil hf]
  · by_cases hg : (k.claims.filter fun c => !f c).filter g = []
    · simp [hf, hg, filter_not_of_filter_nil hg]
    · simp only [hf, hg, false_and, not_false_eq_true, true_and]
      exact (or_iff_right_of_imp (idleFlank_mono fun c hc => (List.mem_filter.1 hc).1)).symm

theorem Slot.without_or (k : Slot) (f g : Claim → Bool) : k.without (fun c => f c || g c) = (k.without f).without g := by
  have hclaims : (k.claims.filter fun c => !(f c || g c)) = ((k.claims.filter fun c => !f c).filter fun c => !g c) := by
    rw [List.filter_filter]
    exact List.filter_congr fun c _ => by rw [Bool.not_or, Bool.and_comm]
  have hremote : (k.remote.filter fun q => !k.drops (fun c => f c || g c) q)
      = ((k.remote.filter fun q => !k.drops f q).filter fun q => !(k.without f).drops g q) := by
    rw [List.filter_filter]
    exact List.filter_congr fun q _ => by rw [k.drops_or, Bool.not_or, Bool.and_comm]
  unfold Slot.without
  rw [hclaims, hremote]
  rfl

/-- The entries that go are those of `f` and then those of `g` among the rest. -/
theorem filter_or_perm {α : Type} (l : List α) (f g : α → Bool) :
    (l.filter fun c => f c || g c).Perm (l.filter f ++ (l.filter fun c => !f c).filter g) := by
  induction l with
  | nil => exact List.Perm.refl _
  | cons c l ih =>
    by_cases hf : f c = true
    · simpa [hf] using ih
    · by_cases hg : g c = true
      · simp only [hf, hg, List.filter_cons, Bool.or_true, if_true, Bool.not_false, Bool.false_eq_true, if_false]
        exact (ih.cons c).trans List.perm_middle.symm
      · simpa [hf, hg] using ih

namespace Freed
variable {s : State} {i : Nat}

theorem withdrawWhere (hi : i < s.rsu.slots.length) (f : RemoteReq → Bool) :
    Freed s i (Loss.ofReqs ((s.slot i).remote.filter f))
      { s.slot i with remote := (s.slot i).remote.filter fun r => !f r } (s.withdrawWhere i f) :=
  (eachReq s i ((s.slot i).remote.filter f)).modSlot (fun k => { k with remote := k.remote.filter fun r => !f r }) hi

theorem releaseClaims (hi : i < s.rsu.slots.length) (f : Claim → Bool) :
    Freed s i ((s.slot i).lossOf f) ((s.slot i).without f) (s.releaseClaims i f) := by
  unfold State.releaseClaims
  by_cases hg : (s.slot i).claims.filter f = []
  · have hd : ∀ q, (s.slot i).drops f q = false := fun q => by simp [Slot.drops, hg]
    rw [if_pos (List.isEmpty_iff.2 hg)]
    refine (refl s i).congr (fun _ => Iff.rfl) (fun _ => Iff.rfl) (fun _ => Iff.rfl) ?_ ?_ ?_
    · rw [Slot.lossOf, hg]; rfl
    · simp [Slot.lossOf, hd, Loss.none]
    · simp [Slot.without, hd, filter_not_of_filter_nil hg]
  · rw [if_neg (fun h => hg (List.isEmpty_iff.1 h))]
    have hc := (eachClaim s i ((s.slot i).claims.filter f)).modSlot
      (fun k => { k with claims := (s.slot i).claims.filter fun c => !f c }) hi
    have hd : (s.slot i).drops f = idleFlank ((s.slot i).claims.filter fun c => !f c) := funext fun q => by
      simp [Slot.drops, List.isEmpty_eq_false_iff.2 hg]
    refine (hc.trans (withdrawWhere (hc.slotsLength.symm ▸ hi) _)).congr (fun _ => (or_self_iff).symm) (fun _ => (or_self_iff).symm)
      (fun _ => (or_self_iff).symm) ?_ ?_ ?_
    · exact (List.append_nil _).symm
    · show _ = [] ++ _
      rw [hc.slot, ← hd]; rfl
    · rw [hc.slot, ← hd]; rfl

end Freed

theorem each_map {α β : Type} (s : State) (l : List α) (g : α → β) (f : State → β → State) :
    s.each (l.map g) f = s.each l fun t a => f t (g a) := List.foldl_map

/-! #### Sequential release (R127) -/

/-- The claim protects a path point whose section is among those of index `r` to below `r'`. -/
def RouteDef.passedBy (d : RouteDef) (r r' : Nat) (c : Claim) : Bool :=
  (numbered d.pathPoints).any fun p => decide (r ≤ p.2.fouling ∧ p.2.fouling < r' ∧ c.prot = some (.path p.1))

/-- What the release of the path sections of index `r` to below `r'` gives up. -/
def State.pathLoss (s : State) (i : Nat) (d : RouteDef) (r r' : Nat) : Loss :=
  { (s.slot i).lossOf (d.passedBy r r') with
    secs := fun k => k ∈ (d.path.take r').drop r ∧ (s.sec k).owner = some (.slot i)
    pts := fun k => (∃ p ∈ d.pathPoints, p.pt = k ∧ r ≤ p.fouling ∧ p.fouling < r') ∧ (s.pt k).owner = some (.slot i) }

theorem mem_take_drop {α : Type} {l : List α} {r r' : Nat} {k : α} :
    k ∈ (l.take r').drop r ↔ ∃ x, r ≤ x ∧ x < r' ∧ l[x]? = some k := by
  simp only [List.mem_iff_getElem?, List.getElem?_drop, List.getElem?_take]
  constructor
  · rintro ⟨x, hx⟩
    by_cases h : r + x < r'
    · exact ⟨r + x, Nat.le_add_right _ _, h, by rwa [if_pos h] at hx⟩
    · rw [if_neg h] at hx; cases hx
  · rintro ⟨x, h1, h2, hx⟩
    exact ⟨x - r, by rw [Nat.add_sub_cancel' h1, if_pos h2, hx]⟩

theorem mem_take_drop_split {α : Type} {l : List α} {r m r' : Nat} {k : α} (h1 : r ≤ m) (h2 : m ≤ r') :
    k ∈ (l.take r').drop r ↔ k ∈ (l.take m).drop r ∨ k ∈ (l.take r').drop m := by
  simp only [mem_take_drop, ← exists_or]
  refine exists_congr fun x => ?_
  constructor
  · rintro ⟨a, b, c⟩
    by_cases hx : x < m
    · exact .inl ⟨a, hx, c⟩
    · exact .inr ⟨not_lt.1 hx, b, c⟩
  · rintro (⟨a, b, c⟩ | ⟨a, b, c⟩)
    · exact ⟨a, b.trans_le h2, c⟩
    · exact ⟨h1.trans a, b, c⟩

theorem mem_numbered_snd {α : Type} {l : List α} {a : α} : (∃ p ∈ numbered l, p.2 = a) ↔ a ∈ l := by
  have h : (numbered l).map Prod.snd = l := List.map_snd_zip (by simp)
  rw [← List.mem_map, h]

theorem RouteDef.passedBy_split (d : RouteDef) {r m r' : Nat} (h1 : r ≤ m) (h2 : m ≤ r') (c : Claim) :
    d.passedBy r r' c = (d.passedBy r m c || d.passedBy m r' c) := by
  rw [Bool.eq_iff_iff]
  simp only [RouteDef.passedBy, List.any_eq_true, decide_eq_true_eq, Bool.or_eq_true, ← exists_or, ← and_or_left]
  refine exists_congr fun p => and_congr_right fun _ => ?_
  constructor
  · rintro ⟨a, b, e⟩
    by_cases hx : p.2.fouling < m
    · exact .inl ⟨a, hx, e⟩
    · exact .inr ⟨not_lt.1 hx, b, e⟩
  · rintro (⟨a, b, e⟩ | ⟨a, b, e⟩)
    · exact ⟨a, b.trans_le h2, e⟩
    · exact ⟨h1.trans a, b, e⟩

namespace Freed
variable {s t u : State} {i : Nat}

/-- The release of a run of path sections, cut in two. -/
theorem pathLoss_trans {d : RouteDef} {r m r' : Nat} (h1 : r ≤ m) (h2 : m ≤ r')
    (k : Freed s i (s.pathLoss i d r m) { (s.slot i).without (d.passedBy r m) with release := some m } t)
    (k' : Freed t i (t.pathLoss i d m r') { (t.slot i).without (d.passedBy m r') with release := some r' } u) :
    Freed s i (s.pathLoss i d r r') { (s.slot i).without (d.passedBy r r') with release := some r' } u := by
  have hp : d.passedBy r r' = fun c => d.passedBy r m c || d.passedBy m r' c := funext fun c => d.passedBy_split h1 h2 c
  have hdrop : ∀ q, (t.slot i).drops (d.passedBy m r') q = ((s.slot i).without (d.passedBy r m)).drops (d.passedBy m r') q := by
    rw [k.slot]; exact fun q => rfl
  refine (k.trans k').recast (fun j => ?_) (fun j => ?_) (fun _ => (or_self_iff).symm) ?_ (fun q => ?_) ?_
  · show (_ ∧ _) ↔ (_ ∧ _) ∨ (_ ∧ _)
    rw [mem_take_drop_split h1 h2]
    by_cases h : (s.pathLoss i d r m).secs j
    · exact iff_of_true ⟨.inl h.1, h.2⟩ (.inl h)
    · rw [(k.secOwner_of_kept h).1, ← or_and_right]
  · show (_ ∧ _) ↔ (_ ∧ _) ∨ (_ ∧ _)
    have hsplit : (∃ p ∈ d.pathPoints, p.pt = j ∧ r ≤ p.fouling ∧ p.fouling < r') ↔
        (∃ p ∈ d.pathPoints, p.pt = j ∧ r ≤ p.fouling ∧ p.fouling < m) ∨ ∃ p ∈ d.pathPoints, p.pt = j ∧ m ≤ p.fouling ∧ p.fouling < r' := by
      rw [← exists_or]
      refine exists_congr fun p => ?_
      rw [← and_or_left, ← and_or_left]
      exact and_congr_right fun _ => and_congr_right fun _ => by omega
    rw [hsplit]
    by_cases h : (s.pathLoss i d r m).pts j
    · exact iff_of_true ⟨.inl h.1, h.2⟩ (.inl h)
    · rw [(k.ptOwner_of_kept h).1, ← or_and_right]
  · show (List.map _ (List.filter _ _)).Perm (List.map _ (List.filter _ _) ++ List.map _ (List.filter _ _))
    rw [← List.map_append, k.slot, hp]
    exact (filter_or_perm _ _ _).map _
  · show q ∈ List.filter _ _ ↔ q ∈ List.filter _ _ ++ List.filter _ _
    have hr : (t.slot i).remote = (s.slot i).remote.filter fun q => !(s.slot i).drops (d.passedBy r m) q := by rw [k.slot]; rfl
    simp only [List.mem_append, List.mem_filter, hr, hp, Slot.drops_or, hdrop, Bool.or_eq_true, Bool.not_eq_true']
    cases (s.slot i).drops (d.passedBy r m) q <;> simp
  · rw [k.slot, hp, Slot.without_or]; rfl

theorem releaseSection {d : RouteDef} {r : Nat} (hi : i < s.rsu.slots.length) (hr : r < d.path.length) :
    Freed s i (s.pathLoss i d r (r + 1)) { (s.slot i).without (d.passedBy r (r + 1)) with release := some (r + 1) }
      (s.releaseSection i d r) := by
  have hpassed : (fun c => ((numbered d.pathPoints).filter fun p => p.2.fouling = r).any fun p => c.ofPath p.1)
      = d.passedBy r (r + 1) := funext fun c => by
    rw [List.any_filter, RouteDef.passedBy]
    refine congrArg _ (funext fun p => ?_)
    rw [Bool.eq_iff_iff, Bool.and_eq_true, decide_eq_true_eq, Claim.ofPath, decide_eq_true_eq, decide_eq_true_eq]
    exact ⟨fun h => ⟨h.1.ge, by omega, h.2⟩, fun h => ⟨by omega, h.2.2⟩⟩
  have hsec := freeSec s i (d.path.getD r 0)
  have hpts := eachPt (s.freeSec (d.path.getD r 0) (.slot i)) i
    (((numbered d.pathPoints).filter fun p => p.2.fouling = r).map fun p => p.2.pt)
  rw [each_map] at hpts
  have hboth := hsec.trans hpts
  have hall := (hboth.trans (releaseClaims (hboth.slotsLength.symm ▸ hi) (d.passedBy r (r + 1)))).modSlot
    (fun k => { k with release := some (r + 1) }) hi
  have hslot := hboth.slot.trans hsec.slot
  have he : s.releaseSection i d r = ((((s.freeSec (d.path.getD r 0) (.slot i)).each
      ((numbered d.pathPoints).filter fun p => p.2.fouling = r) fun t p => t.freePt p.2.pt (.slot i)).releaseClaims i
        (d.passedBy r (r + 1))).modSlot i fun k => { k with release := some (r + 1) }) := by
    rw [← hpassed]; rfl
  rw [he]
  refine hall.congr (fun j => ?_) (fun j => ?_) (fun _ => by simp [Loss.add, State.pathLoss, Slot.lossOf, Loss.ofSecs, Loss.ofPts])
    ?_ ?_ ?_
  · simp only [Loss.add, State.pathLoss, Slot.lossOf, Loss.ofSecs, Loss.ofPts, or_false]
    refine and_congr_left fun _ => ?_
    rw [mem_take_drop, List.getD_eq_getElem _ _ hr]
    constructor
    · rintro ⟨x, hx, hx', hget⟩
      obtain rfl : x = r := by omega
      rw [List.getElem?_eq_getElem hr, Option.some.injEq] at hget
      exact hget.symm
    · rintro rfl
      exact ⟨r, le_rfl, Nat.lt_succ_self r, List.getElem?_eq_getElem hr⟩
  · simp only [Loss.add, State.pathLoss, Slot.lossOf, Loss.ofSecs, Loss.ofPts, or_false, false_or, List.mem_map, List.mem_filter,
      decide_eq_true_eq]
    rw [(hsec.ptOwner_of_kept (j := j) id).1]
    refine and_congr_left fun _ => ?_
    constructor
    · rintro ⟨p, hp, rfl, h1, h2⟩
      obtain ⟨q, hq, rfl⟩ := mem_numbered_snd.2 hp
      exact ⟨q, ⟨hq, by omega⟩, rfl⟩
    · rintro ⟨q, ⟨hq, hf⟩, rfl⟩
      exact ⟨q.2, mem_numbered_snd.1 ⟨q, hq, rfl⟩, rfl, hf.ge, by omega⟩
  · simp only [Loss.add, State.pathLoss, Slot.lossOf, Loss.ofSecs, Loss.ofPts, List.nil_append, hslot]
  · simp only [Loss.add, State.pathLoss, Slot.lossOf, Loss.ofSecs, Loss.ofPts, List.nil_append, hslot]
  · rw [hslot]

/-- Nothing is released yet. -/
theorem pathLoss_refl {d : RouteDef} {r : Nat} (hrel : (s.slot i).release = some r) :
    Freed s i (s.pathLoss i d r r) { (s.slot i).without (d.passedBy r r) with release := some r } s := by
  have hp : d.passedBy r r = fun _ => false := funext fun c => by
    rw [Bool.eq_false_iff]
    simp only [RouteDef.passedBy, ne_eq, List.any_eq_true, decide_eq_true_eq, not_exists, not_and]
    exact fun p _ h1 h2 => absurd h2 (not_lt.2 h1)
  refine (refl s i).congr (fun j => ?_) (fun j => ?_) (fun _ => Iff.rfl) ?_ ?_ ?_
  · exact iff_of_false (fun hj => by obtain ⟨x, h1, h2, -⟩ := mem_take_drop.1 hj.1; omega) id
  · exact iff_of_false (fun hj => by obtain ⟨⟨p, -, -, h1, h2⟩, -⟩ := hj; omega) id
  · simp [State.pathLoss, Slot.lossOf, hp, Loss.none]
  · simp [State.pathLoss, Slot.lossOf, hp, Loss.none, Slot.drops]
  · simp [Slot.without, hp, Slot.drops, ← hrel]

theorem releaseFrom {d : RouteDef} {h fuel r : Nat} (hrel : (s.slot i).release = some r) (hf : d.path.length ≤ fuel + r) :
    ∃ r', r ≤ r' ∧ (r < r' → r' + 1 ≤ d.path.length ∧ r' ≤ h)
      ∧ Freed s i (s.pathLoss i d r r') { (s.slot i).without (d.passedBy r r') with release := some r' } (s.releaseFrom i d h fuel r)
      ∧ (∀ k ∈ (d.path.take r').drop r, (s.sec k).occ = .clear)
      ∧ (r' + 1 < d.path.length → r' < h → (s.sec (d.path.getD r' 0)).occ ≠ .clear) := by
  induction fuel generalizing s r with
  | zero => exact ⟨r, le_rfl, fun h => absurd h (lt_irrefl r), pathLoss_refl hrel, by simp, fun h => absurd h (by omega)⟩
  | succ fuel ih =>
    unfold State.releaseFrom
    split
    · rename_i hc
      obtain ⟨hlast, hhead, hclear⟩ := hc
      rw [secClear_iff] at hclear
      have hi : i < s.rsu.slots.length := by
        by_contra hi
        rw [State.slot, List.getD_eq_default _ _ (not_lt.1 hi)] at hrel
        cases hrel
      have hone := releaseSection (d := d) (r := r) hi (by omega)
      obtain ⟨r', hr, hbound, hrun, hclr, hstop⟩ := ih (s := s.releaseSection i d r) (r := r + 1) (by rw [hone.slot]) (by omega)
      simp only [hone.occ] at hclr hstop
      refine ⟨r', by omega, fun _ => ?_, pathLoss_trans (Nat.le_succ r) hr hone hrun, fun k hk => ?_, hstop⟩
      · by_cases hrr : r + 1 < r'
        · exact hbound hrr
        · omega
      · rcases (mem_take_drop_split (Nat.le_succ r) hr).1 hk with hk | hk
        · obtain ⟨x, h1, h2, hx⟩ := mem_take_drop.1 hk
          obtain rfl : x = r := by omega
          rwa [List.getD_eq_getElem?_getD, hx] at hclear
        · exact hclr k hk
    · rename_i hc
      refine ⟨r, le_rfl, fun h => absurd h (lt_irrefl r), pathLoss_refl hrel, by simp, fun h1 h2 h3 => hc ⟨h1, h2, ?_⟩⟩
      rwa [secClear_iff]

end Freed

end Sys2Proof.Machine

/-! ### A release read off as the statements give it -/

namespace Sys2Proof.Machine

namespace Freed
variable {s t : State} {i : Nat} {g : Loss} {x : Slot}

theorem sec_eq (k : Freed s i g x t) (j : Nat) {P : Prop} [Decidable P] (hP : P ↔ g.secs j) : t.sec j = { s.sec j with
    owner := if P then none else (s.sec j).owner
    kind := if P then none else (s.sec j).kind
    claims := (s.sec j).claims - countOn g.claims ⟨.sect, j⟩ } := by
  by_cases h : P
  · simp only [if_pos h]; exact k.secFreed j (hP.1 h)
  · simp only [if_neg h]; exact k.secKept j (mt hP.2 h)

theorem pt_eq (k : Freed s i g x t) (j : Nat) {P : Prop} [Decidable P] (hP : P ↔ g.pts j) : t.pt j = { s.pt j with
    owner := if P then none else (s.pt j).owner
    kind := if P then none else (s.pt j).kind
    lockedPos := if P then none else (s.pt j).lockedPos
    claimPos := if countOn g.claims ⟨.point, j⟩ ≠ 0 ∧ (s.pt j).claims ≤ countOn g.claims ⟨.point, j⟩ then none else (s.pt j).claimPos
    claims := (s.pt j).claims - countOn g.claims ⟨.point, j⟩ } := by
  by_cases h : P
  · simp only [if_pos h]; exact k.ptFreed j (hP.1 h)
  · simp only [if_neg h]; exact k.ptKept j (mt hP.2 h)

theorem sig_eq (k : Freed s i g x t) (j : Nat) {P : Prop} [Decidable P] (hP : P ↔ g.sigs j) : t.sig j = { s.sig j with
    owner := if P then none else (s.sig j).owner
    holds := (s.sig j).holds - countOn g.claims ⟨.signal, j⟩ } := by
  by_cases h : P
  · simp only [if_pos h]; exact k.sigFreed j (hP.1 h)
  · simp only [if_neg h]; exact k.sigKept j (mt hP.2 h)

/-- The links lose the requests that a test names among those of the slot. -/
theorem link_eq (k : Freed s i g x t) {rs : List RemoteReq} {W : RemoteReq → Bool} (hg : g.reqs = rs.filter W)
    (hW : ∀ q, W q = true → q.asks = true) (l : Nat) : t.link l = { s.link l with outgoing := (s.link l).outgoing.filter fun o =>
      !(decide (o.slot = i) && rs.any fun q => W q && decide (q.link = l ∧ q.tag = o.tag)) } := by
  have h : ∀ o, askGone i g.reqs l o = (decide (o.slot = i) && rs.any fun q => W q && decide (q.link = l ∧ q.tag = o.tag)) := fun o => by
    rw [askGone, hg, List.any_filter]
    congr 2
    funext q
    by_cases hq : W q = true
    · simp [hq, hW q hq]
    · simp [hq]
  simp only [k.link l, h]

/-- Where no acceptance request is given up the ports stay. -/
theorem ports_eq (k : Freed s i g x t) (hg : ∀ q ∈ g.reqs, q.asks = true) : t.bdu.ports = s.bdu.ports := by
  refine List.ext_getElem k.ports fun p h1 h2 => ?_
  have hp := k.port p
  have hacc : accGone i g.reqs p (s.port p).outAcc = false := by
    rw [accGone, List.any_eq_false]
    intro q hq hw
    have ha := hg q hq
    rw [RemoteReq.asks, (of_decide_eq_true hw).1] at ha
    cases ha
  rw [hacc] at hp
  rw [State.port, State.port, List.getD_eq_getElem _ _ h1, List.getD_eq_getElem _ _ h2] at hp
  exact hp

theorem rest_links (k : Freed s i g x t) (hg : ∀ q ∈ g.reqs, q.asks = true) : t = { s with
    est.sections := t.est.sections, est.points := t.est.points, est.signals := t.est.signals
    rsu.slots := t.rsu.slots, bdu.links := t.bdu.links, slu.noticeQ := t.slu.noticeQ, releaseDue := t.releaseDue } := by
  have hp := k.ports_eq hg
  have h := k.rest
  have hb : t.bdu = { s.bdu with links := t.bdu.links } := congrArg (Bdu.mk t.bdu.links) hp
  rwa [hb] at h

end Freed

/-! ### Marks (R121, R124, R125, R133) -/

/-- A mark set on slot `i` by `g` and on section `k` by `f`, and the slot enqueued. -/
def State.mark (s : State) (i : Nat) (g : Slot → Slot) (f : SectionRec → SectionRec) (k : Nat) : State :=
  ((s.modSlot i g).modSec k f).note (.slot i)

/-- `t` is `s` with the mark set on each section of `ks`, and on slot `i` where there is one. -/
structure MarksSet (s : State) (i : Nat) (g : Slot → Slot) (f : SectionRec → SectionRec) (ks : List Nat) (t : State) : Prop where
  hit : ∀ k ∈ ks, k < s.est.sections.length → t.sec k = f (s.sec k)
  spared : ∀ k, ¬(k ∈ ks ∧ k < s.est.sections.length) → t.sec k = s.sec k
  slot : ks ≠ [] → i < s.rsu.slots.length → t.slot i = g (s.slot i)
  absent : ¬i < s.rsu.slots.length → t.slot i = s.slot i
  slots : ∀ j, j ≠ i → t.slot j = s.slot j
  noted : ks ≠ [] → Ref.slot i ∈ t.slu.noticeQ
  queue : s.slu.noticeQ <+: t.slu.noticeQ
  none : ks = [] → t = s
  sections : t.est.sections.length = s.est.sections.length
  slotsLength : t.rsu.slots.length = s.rsu.slots.length
  rest : t = { s with est.sections := t.est.sections, rsu.slots := t.rsu.slots, slu.noticeQ := t.slu.noticeQ }

theorem mark_set (s : State) (i : Nat) (g : Slot → Slot) (f : SectionRec → SectionRec) (k : Nat) :
    MarksSet s i g f [k] (s.mark i g f k) := by
  have he := note_eq ((s.modSlot i g).modSec k f) (.slot i)
  have hm := mem_note ((s.modSlot i g).modSec k f) (.slot i)
  have hp := note_prefix ((s.modSlot i g).modSec k f) (.slot i)
  unfold State.mark
  generalize ((s.modSlot i g).modSec k f).note (.slot i) = t at he hm hp
  have hsec : ∀ j, t.sec j = ((s.modSlot i g).modSec k f).sec j := fun j => by rw [he]; rfl
  have hslot : ∀ j, t.slot j = (s.modSlot i g).slot j := fun j => by rw [he]; rfl
  exact {
    hit := fun j hj hl => by rw [hsec, State.modSec_sec_at, if_pos ⟨(List.mem_singleton.1 hj).symm, hl⟩]; rfl
    spared := fun j hj => by
      rw [hsec, State.modSec_sec_at]
      exact if_neg fun h => hj ⟨List.mem_singleton.2 h.1.symm, h.2⟩
    slot := fun _ hi => by rw [hslot, State.modSlot_slot_at, if_pos ⟨rfl, hi⟩]
    absent := fun hi => by rw [hslot, State.modSlot_slot_at, if_neg (fun h : i = i ∧ _ => hi h.2)]
    slots := fun j hj => by rw [hslot, State.modSlot_slot_at, if_neg (fun h : i = j ∧ _ => hj h.1.symm)]
    noted := fun _ => hm
    queue := hp
    none := fun h => absurd h (List.cons_ne_nil _ _)
    sections := by rw [he]; exact List.length_modify _ _ _
    slotsLength := by rw [he]; exact List.length_modify _ _ _
    rest := by rw [he]; rfl }

/-- A mark set twice is a mark set once. -/
theorem each_mark_set (s : State) (i : Nat) {g : Slot → Slot} {f : SectionRec → SectionRec} (hg : ∀ x, g (g x) = g x)
    (hf : ∀ r, f (f r) = f r) (ks : List Nat) : MarksSet s i g f ks (s.each ks fun t k => t.mark i g f k) := by
  induction ks generalizing s with
  | nil => exact ⟨by simp, fun _ _ => rfl, fun h => absurd rfl h, fun _ => rfl, fun _ _ => rfl, fun h => absurd rfl h, List.prefix_rfl,
      fun _ => rfl, rfl, rfl, rfl⟩
  | cons k ks ih =>
    have h1 := mark_set s i g f k
    have h2 := ih (s.mark i g f k)
    show MarksSet s i g f (k :: ks) ((s.mark i g f k).each ks fun t k => t.mark i g f k)
    generalize s.mark i g f k = u at h1 h2
    generalize (u.each ks fun t k => t.mark i g f k) = t at h2
    exact {
      hit := fun j hj hl => by
        by_cases hjs : j ∈ ks
        · rw [h2.hit j hjs (h1.sections.symm ▸ hl)]
          by_cases hjk : j = k
          · rw [h1.hit j (List.mem_singleton.2 hjk) hl, hf]
          · rw [h1.spared j fun h => hjk (List.mem_singleton.1 h.1)]
        · rw [h2.spared j fun h => hjs h.1]
          exact h1.hit j (List.mem_singleton.2 ((List.mem_cons.1 hj).resolve_right hjs)) hl
      spared := fun j hj => by
        rw [h2.spared j fun h => hj ⟨List.mem_cons_of_mem _ h.1, h1.sections ▸ h.2⟩,
          h1.spared j fun h => hj ⟨List.mem_cons.2 (.inl (List.mem_singleton.1 h.1)), h.2⟩]
      slot := fun _ hi => by
        have hu := h1.slot (List.cons_ne_nil _ _) hi
        by_cases hks : ks = []
        · rw [h2.none hks, hu]
        · rw [h2.slot hks (h1.slotsLength.symm ▸ hi), hu, hg]
      absent := fun hi => by rw [h2.absent (h1.slotsLength.symm ▸ hi), h1.absent hi]
      slots := fun j hj => (h2.slots j hj).trans (h1.slots j hj)
      noted := fun _ => h2.queue.subset (h1.noted (List.cons_ne_nil _ _))
      queue := h1.queue.trans h2.queue
      none := fun h => absurd h (List.cons_ne_nil _ _)
      sections := h2.sections.trans h1.sections
      slotsLength := h2.slotsLength.trans h1.slotsLength
      rest := by rw [h2.rest, h1.rest] }

theorem MarksSet.occ {s t : State} {i : Nat} {g : Slot → Slot} {f : SectionRec → SectionRec} {ks : List Nat}
    (h : MarksSet s i g f ks t) (hf : ∀ r, (f r).occ = r.occ) (k : Nat) : (t.sec k).occ = (s.sec k).occ := by
  by_cases hk : k ∈ ks ∧ k < s.est.sections.length
  · rw [h.hit k hk.1 hk.2, hf]
  · rw [h.spared k hk]

section
variable {s t : State} {i : Nat} {g : Slot → Slot} {f : SectionRec → SectionRec} {ks : List Nat}

theorem MarksSet.sec_cases (h : MarksSet s i g f ks t) (k : Nat) : t.sec k = s.sec k ∨ t.sec k = f (s.sec k) := by
  by_cases hk : k ∈ ks ∧ k < s.est.sections.length
  · exact .inr (h.hit k hk.1 hk.2)
  · exact .inl (h.spared k hk)

theorem MarksSet.slot_cases (h : MarksSet s i g f ks t) : t.slot i = s.slot i ∨ t.slot i = g (s.slot i) := by
  by_cases hi : i < s.rsu.slots.length
  · by_cases hks : ks = []
    · exact .inl (h.none hks ▸ rfl)
    · exact .inr (h.slot hks hi)
  · exact .inl (h.absent hi)

end

theorem lt_of_head {s : State} {i h : Nat} (hh : (s.slot i).head = some h) : i < s.rsu.slots.length := by
  by_contra hi
  rw [State.slot, List.getD_eq_default _ _ (not_lt.1 hi)] at hh
  cases hh

theorem lt_of_occ {s : State} {k : Nat} (h : (s.sec k).occ ≠ .disturbed) : k < s.est.sections.length := by
  by_contra hk
  rw [State.sec, List.getD_eq_default _ _ (not_lt.1 hk)] at h
  exact h rfl

theorem becameOccupied_iff {old s : State} {k : Nat} :
    becameOccupied old s k = true ↔ (old.sec k).occ ≠ .occupied ∧ (s.sec k).occ = .occupied := by
  rw [becameOccupied, Bool.and_eq_true, decide_eq_true_eq, decide_eq_true_eq]

theorem mem_newlyOccupied {old s : State} {i k : Nat} {l : List Nat} : k ∈ newlyOccupied old s i l ↔ hitIn old s i l k := by
  rw [newlyOccupied, List.mem_filter, Bool.and_eq_true, decide_eq_true_eq, becameOccupied_iff]
  exact Iff.rfl

/-- The sections of a list that are hit take the mark UNEXPECTED (R133). -/
theorem markOccupied_marked (old s : State) (i : Nat) (l : List Nat) (hi : i < s.rsu.slots.length) :
    Marked old s i l (markOccupied old s i l) := by
  have h := each_mark_set s i (g := fun x => { x with marks.unexpected := true }) (f := fun r => { r with unexpected := true })
    (fun _ => rfl) (fun _ => rfl) (newlyOccupied old s i l)
  exact {
    hit := fun k hk => by
      have hm := mem_newlyOccupied.2 hk
      have hne := List.ne_nil_of_mem hm
      obtain ⟨-, ho, -, -⟩ := hk
      exact ⟨h.hit k hm (lt_of_secOwner ho), h.noted hne, h.slot hne hi⟩
    spared := fun k hk => h.spared k fun hm => hk (mem_newlyOccupied.1 hm.1)
    slots := h.slots
    none := fun hk => h.none (List.eq_nil_iff_forall_not_mem.2 fun k hm => hk k (mem_newlyOccupied.1 hm))
    rest := h.rest }

/-! ### The passage evaluation (R118, R122 to R131) -/

theorem reached_iff {old s : State} {i k : Nat} : reached old s i k = true ↔
    ((old.sec k).occ ≠ .occupied ∧ (s.sec k).occ = .occupied)
      ∨ (((old.sec k).occ = .disturbed ∧ (old.sec k).sweep = true ∧ (s.sec k).occ = .clear)
        ∧ ¬∃ x, (old.slot i).head = some x ∧ (old.slotRoute i).path[x]? = some k) := by
  simp only [reached, becameOccupied, sweptClear, State.headSection, Bool.or_eq_true, Bool.and_eq_true, decide_eq_true_eq, ne_eq,
    Option.bind_eq_some_iff, and_assoc]

theorem successorReached_iff {old s : State} {i : Nat} {d : RouteDef} : successorReached old s i d = true ↔
    (∃ l, s.successor d = .sections l ∧ ∃ k ∈ l, reached old s i k = true)
      ∨ ∃ p, s.successor d = .port p ∧ (old.port p).nbSec ≠ .occupied ∧ (s.port p).nbSec = .occupied := by
  unfold successorReached
  cases s.successor d with
  | sections l => simp
  | port p => simp [nbBecameOccupied]
  | nothing => simp

theorem indexReached_iff {old s : State} {i j : Nat} {d : RouteDef} : indexReached old s i d j = true ↔
    (j < d.path.length ∧ reached old s i (d.path.getD j 0) = true) ∨ (d.path.length ≤ j ∧ successorReached old s i d = true) := by
  unfold indexReached
  by_cases h : j < d.path.length
  · simp [h]
  · simp [h, not_lt.1 h]

/-- The act touches the slot (R122). -/
theorem touched_iff {old s : State} {i : Nat} : touched old s i = true ↔
    (∃ k ∈ (s.slotRoute i).sections, (old.sec k).occ ≠ (s.sec k).occ)
      ∨ (∃ l, s.successor (s.slotRoute i) = .sections l ∧ ∃ k ∈ l, (old.sec k).occ ≠ (s.sec k).occ)
      ∨ ∃ p, s.successor (s.slotRoute i) = .port p ∧ (old.port p).nbSec ≠ (s.port p).nbSec := by
  unfold touched
  cases hs : s.successor (s.slotRoute i) with
  | sections l => simp [hs, occChanged]
  | port p => simp [hs, occChanged, nbChanged]
  | nothing => simp [hs, occChanged]

theorem react_passing {old s : State} {i : Nat} (h : (s.slot i).state = .occupied ∨ (s.slot i).state = .berthed) :
    react old s i = if touched old s i = true then evaluate old s i else s := by
  unfold react
  rcases h with h | h <;> rw [h]

theorem evaluate_of_none {old s : State} {i : Nat} (h : (s.slot i).head = none ∨ (s.slot i).release = none) : evaluate old s i = s := by
  unfold evaluate
  rcases h with h | h
  · simp [h]
  · cases hh : (s.slot i).head <;> simp [h]

theorem evaluate_of_some {old s : State} {i h r : Nat} (hh : (s.slot i).head = some h) (hr : (s.slot i).release = some r) :
    evaluate old s i =
      (let h' := if (s.slot i).marks.sequence then h else headAfter old s i (s.slotRoute i) h
       let moved := s.modSlot i fun k => { k with head := some h' }
       let u := if h' < (s.slotRoute i).path.length then markOccupied old moved i (s.slotRoute i).overlapSecs else moved
       if (s.slot i).marks.sequence then u else evaluateFrom old u i (s.slotRoute i) h' r) := by
  unfold evaluate
  rw [hh, hr]

theorem mem_aheadOf {old s : State} {i h k : Nat} {d : RouteDef} :
    k ∈ aheadOf old s i d h ↔ k ∈ d.path.drop (h + 1) ∧ reached old s i k = true := List.mem_filter

theorem vanishedAt_some {old s : State} {i h k : Nat} {d : RouteDef} : vanishedAt old s i d h = some k ↔
    d.path[h]? = some k ∧ (old.sec k).occ ≠ .clear ∧ (s.sec k).occ = .clear ∧ ¬reached old s i k = true := by
  unfold vanishedAt
  simp only [Option.filter_eq_some_iff, becameClear, Bool.and_eq_true, decide_eq_true_eq, Bool.not_eq_true', ne_eq, Bool.not_eq_true,
    and_assoc]

/-- The VANISHED test reads occupancies alone. -/
theorem vanishedAt_congr {old s t : State} {i h : Nat} {d : RouteDef} (ho : ∀ k, (t.sec k).occ = (s.sec k).occ) :
    vanishedAt old t i d h = vanishedAt old s i d h :=
  Option.ext fun k => by simp only [vanishedAt_some, reached_iff, ho]

theorem tryVanished_some {old s : State} {i h k : Nat} {d : RouteDef} (hv : vanishedAt old s i d h = some k) :
    tryVanished old s i d h = s.markVanished i k := by rw [tryVanished, hv]

theorem tryVanished_none {old s : State} {i h : Nat} {d : RouteDef} (hv : vanishedAt old s i d h = none) :
    tryVanished old s i d h = s := by rw [tryVanished, hv]

theorem tryVanished_set (old s : State) (i : Nat) (d : RouteDef) (h : Nat) :
    MarksSet s i (fun x => { x with marks.vanished := true }) (fun r => { r with vanished := true }) (vanishedAt old s i d h).toList
      (tryVanished old s i d h) := by
  cases hv : vanishedAt old s i d h with
  | none =>
    rw [tryVanished_none hv]
    exact each_mark_set s i (g := fun x => { x with marks.vanished := true }) (f := fun r => { r with vanished := true })
      (fun _ => rfl) (fun _ => rfl) []
  | some k =>
    rw [tryVanished_some hv]
    exact mark_set s i _ _ k

theorem evaluateFrom_of_ahead {old s : State} {i h r : Nat} {d : RouteDef} (ha : aheadOf old s i d h ≠ []) : evaluateFrom old s i d h r
    = tryVanished old (s.each (aheadOf old s i d h) fun t x => t.markSequence i x) i d h := by
  unfold evaluateFrom
  cases hl : aheadOf old s i d h with
  | nil => exact absurd hl ha
  | cons k ks => rfl

theorem evaluateFrom_of_none {old s : State} {i h r : Nat} {d : RouteDef} (ha : aheadOf old s i d h = []) : evaluateFrom old s i d h r
    = (((tryVanished old s i d h).releaseFrom i d h d.path.length r).tryBerth i d h).tryLast i d h := by
  unfold evaluateFrom
  rw [ha]

theorem hasOverlap_iff {d : RouteDef} : d.hasOverlap = true ↔ d.overlapSecs ≠ [] ∨ d.overlapPoints ≠ [] ∨ d.remoteItems ≠ [] := by
  simp [RouteDef.hasOverlap, or_assoc]

/-- The far end of the last path section (R118). -/
theorem farEnd_eq (s : State) (d : RouteDef) :
    s.farEnd d = if d.kind = .exit then (s.portDef d.exit).e else (s.sigDef d.exit).e := by
  unfold State.farEnd
  cases d.kind <;> rfl

/-- Settles O59, part by part. -/
theorem sequentialRelease : Obligations.SequentialRelease := by
  refine ⟨fun s i d h r hrel => ?_, fun old s i h r d hd => ?_⟩
  · obtain ⟨r', hr, hbound, hrun, hclear, hstop⟩ := Freed.releaseFrom (h := h) (fuel := d.path.length) hrel (Nat.le_add_right _ _)
    have hasks : ∀ q ∈ (s.pathLoss i d r r').reqs, q.asks = true := fun q hq => Slot.drops_asks (List.mem_filter.1 hq).2
    refine ⟨r', hr, hbound, ⟨hrun.slot, hclear, fun k => hrun.sec_eq k ?_, fun k => hrun.pt_eq k Iff.rfl,
      fun k => hrun.sig_eq k (P := False) Iff.rfl, fun k => ⟨?_, hrun.ptNoted k⟩, ?_, hrun.link_eq rfl fun q => Slot.drops_asks⟩,
      hstop, hrun.slots, hrun.ports_eq hasks, hrun.queue, hrun.rest_links hasks⟩
    · exact and_congr_left fun _ => List.contains_iff_mem
    · exact fun hk => hrun.secNoted k ⟨List.contains_iff_mem.1 hk.1, hk.2⟩
    · rw [hrun.due]
      refine or_congr_right (or_congr ⟨?_, ?_⟩ (or_congr ⟨?_, ?_⟩ ?_))
      · rintro ⟨k, hk⟩
        exact ⟨k, List.mem_of_mem_take (List.mem_of_mem_drop hk.1), List.contains_iff_mem.2 hk.1, hk.2⟩
      · rintro ⟨k, -, hk⟩
        exact ⟨k, List.contains_iff_mem.1 hk.1, hk.2⟩
      · rintro ⟨k, hk⟩
        obtain ⟨p, hp, rfl, -⟩ := hk.1
        exact ⟨p.pt, List.mem_map_of_mem hp, hk⟩
      · rintro ⟨k, -, hk⟩
        exact ⟨k, hk⟩
      · exact or_iff_right (fun ⟨_, h⟩ => h)
  · intro n far beyond swept changed atHead reaches after touches
    have hafter : s.successor d = after := by
      show State.successor s d = _
      unfold State.successor
      rw [farEnd_eq]
    have hreach : ∀ k, reached old s i k = true ↔ reaches k := fun k => reached_iff
    refine ⟨hafter, hreach, fun j => ?_, fun hst => ?_, evaluate_of_none, fun hh hr => ?_, ?_, ?_⟩
    · rw [indexReached_iff, successorReached_iff, hafter, and_or_left]
      simp only [hreach]; rfl
    · have ht : touched old s i = true ↔ touches := by rw [touched_iff, hd, hafter]
      rw [react_passing hst]
      exact ⟨fun h => if_pos (ht.2 h), fun h => if_neg (mt ht.1 h)⟩
    · intro h' moved
      have hi : i < moved.rsu.slots.length := by
        show i < (s.rsu.slots.modify i _).length
        rw [List.length_modify]
        exact lt_of_head hh
      have he := evaluate_of_some (old := old) hh hr
      rw [hd] at he
      refine ⟨if h' < n then markOccupied old moved i d.overlapSecs else moved, fun hn => ?_, fun hn => ?_, fun hf => ?_, fun hf => ?_⟩
      · rw [if_pos hn]
        exact markOccupied_marked old moved i _ hi
      · rw [if_neg (not_lt.2 hn)]
      · exact he.trans (if_pos hf)
      · exact he.trans (if_neg (by rw [hf]; decide))
    · intro ahead vanishes b
      have hmem : ∀ k, k ∈ aheadOf old s i d h ↔ ahead k := fun k => by rw [mem_aheadOf, hreach]
      have hvan : ∀ k, vanishedAt old s i d h = some k ↔ vanishes k := fun k => by rw [vanishedAt_some, hreach]
      refine ⟨fun hex => ?_, fun hno => ⟨tryVanished old s i d h, fun k hk => ?_, fun hn => ?_, ?_⟩⟩
      · have hne : aheadOf old s i d h ≠ [] := fun hnil => by
          obtain ⟨k, hk⟩ := hex
          rw [← hmem, hnil] at hk
          cases hk
        have hm := each_mark_set s i (g := fun x => { x with marks.sequence := true }) (f := fun r => { r with sequence := true })
          (fun _ => rfl) (fun _ => rfl) (aheadOf old s i d h)
        have hb : b = tryVanished old (s.each (aheadOf old s i d h) fun t x => t.markSequence i x) i d h := evaluateFrom_of_ahead hne
        change MarksSet s i _ _ _ (s.each (aheadOf old s i d h) fun t x => t.markSequence i x) at hm
        generalize s.each (aheadOf old s i d h) (fun t x => t.markSequence i x) = m at hm hb
        have hv := tryVanished_set old m i d h
        rw [← hb] at hv
        have hvs : ∀ k, k ∈ (vanishedAt old m i d h).toList ↔ vanishes k := fun k => by
          rw [Option.mem_toList, vanishedAt_congr (hm.occ fun _ => rfl), hvan]
        generalize (vanishedAt old m i d h).toList = vs at hv hvs
        refine ⟨?_, fun hi => ?_, fun k hk hl => ⟨?_, hv.queue.subset (hm.noted hne)⟩, fun k hk => ?_, fun k hk hl hi => ⟨?_, ?_⟩,
          fun k hk => ?_, fun hno => ?_, fun k => ?_, ?_⟩
        · rcases hv.slot_cases with e | e <;> rcases hm.slot_cases with e' | e' <;> rw [e, e']
        · rcases hv.slot_cases with e | e <;> rw [e, hm.slot hne hi]
        · rcases hv.sec_cases k with e | e <;> rw [e, hm.hit k ((hmem k).2 hk) hl]
        · rcases hv.sec_cases k with e | e <;> rw [e, hm.spared k fun h => hk ((hmem k).1 h.1)]
        · rw [hv.hit k ((hvs k).2 hk) (hm.sections.symm ▸ hl)]
        · rw [hv.slot (List.ne_nil_of_mem ((hvs k).2 hk)) (hm.slotsLength.symm ▸ hi)]
        · rw [hv.spared k fun h => hk ((hvs k).1 h.1)]
          rcases hm.sec_cases k with e | e <;> rw [e]
        · rw [hv.none (List.eq_nil_iff_forall_not_mem.2 fun k hk => hno k ((hvs k).1 hk))]
          rcases hm.slot_cases with e | e <;> rw [e]
        · rcases hv.sec_cases k with e | e <;> rcases hm.sec_cases k with e' | e' <;> rw [e, e']
        · rw [hv.rest, hm.rest]
      · have hk' := (hvan k).2 hk
        have hrest := (tryVanished_set old s i d h).rest
        rw [tryVanished_some hk'] at hrest ⊢
        exact ⟨by rw [State.markVanished, note_est]; rfl, by rw [State.markVanished, note_rsu]; rfl, mem_note _ _, hrest⟩
      · exact tryVanished_none (Option.eq_none_iff_forall_ne_some.2 fun k hk => hn k ((hvan k).1 hk))
      · exact evaluateFrom_of_none (List.eq_nil_iff_forall_not_mem.2 fun k hk => hno k ((hmem k).1 hk))
    · intro berths timed passes
      refine ⟨fun hb ha => ?_, fun hb ha => ?_, fun hb => if_neg hb, fun hp => if_pos ?_, fun hp => if_neg ?_⟩
      · rw [State.tryBerth, if_pos hb, State.berth, if_pos (hafter.trans ha)]
      · rw [State.tryBerth, if_pos hb, State.berth, if_neg (fun h => ha (hafter.symm.trans h))]
        have ht : (d.overlapTime ≠ 0 ∧ d.hasOverlap = true) ↔ timed := and_congr_right fun _ => hasOverlap_iff
        simp only [ht]; rfl
      · exact ⟨hp.1, hp.2.1, secClear_iff.2 hp.2.2⟩
      · exact fun h => hp ⟨h.1, h.2.1, secClear_iff.1 h.2.2⟩

end Sys2Proof.Machine

/-! ### The end of a slot and the end of its overlap (R57, R130) -/

namespace Sys2Proof.Machine

/-- What a slot holds: its locks, its claim entries, its requests. -/
def State.heldBy (s : State) (i : Nat) : Loss :=
  ⟨fun k => (s.sec k).owner = some (.slot i), fun k => (s.pt k).owner = some (.slot i), fun k => (s.sig k).owner = some i,
    (s.slot i).claims.map Claim.what, (s.slot i).remote⟩

/-- All that slot `i` holds is freed, before its view of the port is settled (R57). -/
def State.freeAll (s : State) (i : Nat) (r : EndReason) : State :=
  (((s.freeLocks i).each (s.slot i).claims fun t c => t.dropCount c.what).each (s.slot i).remote fun t q => t.withdraw i q).modSlot i
    fun x => x.ended r

namespace Freed
variable {s : State} {i : Nat}

theorem freeLocks (s : State) (i : Nat) : Freed s i { s.heldBy i with claims := [], reqs := [] } (s.slot i) (s.freeLocks i) := by
  have h1 := eachSec s i (List.range s.est.sections.length)
  unfold State.freeLocks
  generalize s.each (List.range s.est.sections.length) (fun t k => t.freeSec k (.slot i)) = u at h1
  have h2 := eachPt u i (List.range u.est.points.length)
  show Freed s i _ _ ((u.each (List.range u.est.points.length) fun t k => t.freePt k (.slot i)).each
    (List.range (u.each (List.range u.est.points.length) fun t k => t.freePt k (.slot i)).est.signals.length) fun t k => t.freeSig k i)
  generalize u.each (List.range u.est.points.length) (fun t k => t.freePt k (.slot i)) = v at h2
  have h3 := eachSig v i (List.range v.est.signals.length)
  refine ((h1.trans h2).trans h3).congr (fun j => ?_) (fun j => ?_) (fun j => ?_) rfl rfl ?_
  · show _ ↔ ((j ∈ _ ∧ _) ∨ False) ∨ False
    rw [or_false, or_false, List.mem_range]
    exact ⟨fun h => ⟨lt_of_secOwner h, h⟩, fun h => h.2⟩
  · show _ ↔ (False ∨ (j ∈ _ ∧ _)) ∨ False
    rw [or_false, false_or, List.mem_range, (h1.ptOwner_of_kept (j := j) id).1, h1.points]
    exact ⟨fun h => ⟨lt_of_ptOwner h, h⟩, fun h => h.2⟩
  · show _ ↔ (False ∨ False) ∨ (j ∈ _ ∧ _)
    rw [or_false, false_or, List.mem_range, h2.sigOwner_of_kept (j := j) id, h1.sigOwner_of_kept (j := j) id, h2.signals, h1.signals]
    exact ⟨fun h => ⟨lt_of_sigOwner h, h⟩, fun h => h.2⟩
  · rw [h2.slot, h1.slot]

theorem freeAll (hi : i < s.rsu.slots.length) (r : EndReason) : Freed s i (s.heldBy i) ((s.slot i).ended r) (s.freeAll i r) := by
  have h1 := freeLocks s i
  unfold State.freeAll
  generalize s.freeLocks i = u at h1
  have h2 := eachClaim u i (s.slot i).claims
  generalize u.each (s.slot i).claims (fun t c => t.dropCount c.what) = v at h2
  have h12 := h1.trans h2
  refine ((h12.trans (eachReq v i (s.slot i).remote)).modSlot _ hi).congr (fun j => ?_) (fun j => ?_) (fun j => ?_) ?_ ?_ ?_
  · show _ ↔ (_ ∨ False) ∨ False
    rw [or_false, or_false]
  · show _ ↔ (_ ∨ False) ∨ False
    rw [or_false, or_false]
  · show _ ↔ (_ ∨ False) ∨ False
    rw [or_false, or_false]
  · exact (List.append_nil _).symm
  · rfl
  · rw [h2.slot, h1.slot]

end Freed

/-! #### The entry signal and the port -/

theorem stopEntry_eq (s : State) (i : Nat) : s.stopEntry i = { s with est.signals := (s.stopEntry i).est.signals } := by
  unfold State.stopEntry
  simp only []
  split <;> rfl

theorem stopEntry_sig (s : State) (i k : Nat) : (s.stopEntry i).sig k = { s.sig k with
    commanded := if k = (s.slotRoute i).entry ∧ (s.sig k).owner = some i then .stop else (s.sig k).commanded } := by
  unfold State.stopEntry
  simp only []
  by_cases ho : (s.sig (s.slotRoute i).entry).owner = some i
  · rw [if_pos ho, State.setAspect, State.modSig_sig_at]
    by_cases hk : k = (s.slotRoute i).entry
    · subst hk
      rw [if_pos ⟨rfl, lt_of_sigOwner ho⟩, if_pos ⟨rfl, ho⟩]
    · rw [if_neg (fun h : _ ∧ _ => hk h.1.symm), if_neg (fun h : _ ∧ _ => hk h.1)]
  · rw [if_neg ho, if_neg]
    rintro ⟨rfl, h⟩
    exact ho h

theorem stopEntry_claimCount (s : State) (i : Nat) (c : ClaimOn) : (s.stopEntry i).claimCount c = s.claimCount c := by
  cases c with
  | signal k => show ((s.stopEntry i).sig k).holds = _; rw [stopEntry_sig]; rfl
  | point k p => rw [stopEntry_eq]; rfl
  | sect k => rw [stopEntry_eq]; rfl
  | port k => rfl

theorem stopEntry_signals (s : State) (i : Nat) : (s.stopEntry i).est.signals.length = s.est.signals.length := by
  unfold State.stopEntry
  simp only []
  split
  · exact List.length_modify _ _ _
  · rfl

theorem endSlot_eq (s : State) (i : Nat) (r : EndReason) : s.endSlot i r =
    if (s.slot i).kind = some .exit then ((s.stopEntry i).freeAll i r).settleConflict (s.slotRoute i).exit
    else (s.stopEntry i).freeAll i r := by
  have h : (s.stopEntry i).slot i = s.slot i := by rw [stopEntry_eq]; rfl
  unfold State.freeAll
  rw [h]
  rfl

theorem settleConflict_eq (s : State) (p : Nat) : s.settleConflict p = { s with bdu.ports := (s.settleConflict p).bdu.ports } := by
  unfold State.settleConflict
  split <;> rfl

theorem lt_of_conflict {s : State} {p : Nat} (h : (s.port p).conflict = true) : p < s.bdu.ports.length := by
  by_contra hp
  rw [State.port, List.getD_eq_default _ _ (not_lt.1 hp)] at h
  cases h

theorem settleConflict_port (s : State) (p q : Nat) : (s.settleConflict p).port q = { s.port q with
    view := if q = p ∧ (s.port p).conflict = true ∧ (s.port p).view = .out ∧ ¬s.exitTargets p = true then .neutral
      else (s.port q).view } := by
  have hc : ((s.port p).conflict && decide ((s.port p).view = .out) && !s.exitTargets p) = true ↔
      (s.port p).conflict = true ∧ (s.port p).view = .out ∧ ¬s.exitTargets p = true := by
    simp [and_assoc]
  unfold State.settleConflict
  by_cases h : (s.port p).conflict = true ∧ (s.port p).view = .out ∧ ¬s.exitTargets p = true
  · rw [if_pos (hc.2 h), State.modPort_port_at]
    by_cases hq : q = p
    · subst hq
      rw [if_pos ⟨rfl, lt_of_conflict h.1⟩, if_pos ⟨rfl, h⟩]
    · rw [if_neg (fun e : _ ∧ _ => hq e.1.symm), if_neg (fun e : _ ∧ _ => hq e.1)]
  · rw [if_neg (mt hc.1 h), if_neg (fun e : _ ∧ _ => h e.2)]

/-- Another EXIT slot targets the port. -/
def State.exitElsewhere (s : State) (i p : Nat) : Prop :=
  ∃ j, j ≠ i ∧ s.live j = true ∧ (s.slot j).kind = some .exit ∧ (s.slotRoute j).exit = p

/-- Once the slot has ended, the EXIT instances are the others. -/
theorem exitTargets_freed {s t : State} {i : Nat} {g : Loss} {x : Slot} {r : EndReason} (k : Freed s i g (x.ended r) t) (p : Nat) :
    t.exitTargets p = true ↔ s.exitElsewhere i p := by
  have hroute : ∀ j, j ≠ i → t.slotRoute j = s.slotRoute j := fun j hj => by
    rw [State.slotRoute, State.slotRoute, k.slots j hj, k.rest]; rfl
  rw [exitTargets_iff, State.exitElsewhere]
  refine exists_congr fun j => ?_
  by_cases hj : j = i
  · subst hj
    exact iff_of_false (fun h => by rw [State.live, k.slot] at h; exact absurd h.1 (by simp [Slot.ended])) (fun h => h.1 rfl)
  · rw [State.live, State.live, k.slots j hj, hroute j hj]
    exact ⟨fun h => ⟨hj, h⟩, fun h => h.2⟩

/-- The view of port `p` goes NEUTRAL with the end of slot `i`'s route (R152). -/
def State.viewSettles (s : State) (i p : Nat) : Prop :=
  (s.slot i).kind = some .exit ∧ p = (s.slotRoute i).exit ∧ (s.port p).conflict = true ∧ (s.port p).view = .out ∧ ¬s.exitElsewhere i p

/-- The end of a slot: all it holds goes; its entry signal goes to STOP before, its port's view may go NEUTRAL after. -/
theorem endSlot_freed (s : State) (i : Nat) (r : EndReason) (hi : i < s.rsu.slots.length) :
    ∃ t, Freed (s.stopEntry i) i (s.heldBy i) ((s.slot i).ended r) t
      ∧ s.endSlot i r = { t with bdu.ports := (s.endSlot i r).bdu.ports }
      ∧ ∀ p, (s.endSlot i r).port p = { t.port p with view := ((s.endSlot i r).port p).view }
        ∧ (s.viewSettles i p → ((s.endSlot i r).port p).view = .neutral)
        ∧ (¬s.viewSettles i p → ((s.endSlot i r).port p).view = (s.port p).view) := by
  have hs := stopEntry_eq s i
  have hheld : (s.stopEntry i).heldBy i = s.heldBy i := by
    have hg : ∀ k, ((s.stopEntry i).sig k).owner = (s.sig k).owner := fun k => by rw [stopEntry_sig]
    unfold State.heldBy
    simp only [hg]
    rw [hs]; rfl
  have hf := Freed.freeAll (s := s.stopEntry i) (by rw [hs]; exact hi) r
  rw [hheld, show (s.stopEntry i).slot i = s.slot i by rw [hs]; rfl] at hf
  have hels : ∀ p, ((s.stopEntry i).freeAll i r).exitTargets p = true ↔ s.exitElsewhere i p := fun p => by
    rw [exitTargets_freed hf, hs]; exact Iff.rfl
  have hport : ∀ p, (((s.stopEntry i).freeAll i r).port p).conflict = (s.port p).conflict
      ∧ (((s.stopEntry i).freeAll i r).port p).view = (s.port p).view := fun p => by
    rw [hf.port p, hs]; exact ⟨rfl, rfl⟩
  refine ⟨_, hf, ?_, fun p => ?_⟩
  · rw [endSlot_eq]
    split
    · exact settleConflict_eq _ _
    · rfl
  · rw [endSlot_eq]
    split
    · rename_i hk
      rw [settleConflict_port, (hport _).1, (hport _).2]
      refine ⟨rfl, fun h => ?_, fun h => ?_⟩
      · obtain ⟨-, rfl, hc, hv, ho⟩ := h
        exact if_pos ⟨rfl, hc, hv, mt (hels _).1 ho⟩
      · refine (if_neg fun e => h ?_).trans (hport p).2
        obtain ⟨rfl, hc, hv, ho⟩ := e
        exact ⟨hk, rfl, hc, hv, mt (hels _).2 ho⟩
    · rename_i hk
      exact ⟨rfl, fun h => absurd h.1 hk, fun _ => (hport p).2⟩

/-- Settles O30, from what the slot's own releases make of the state. -/
theorem endFreesAll : Obligations.EndFreesAll := by
  intro s i r hi b gone mine entry exit
  obtain ⟨t, hf, hb, hp⟩ := endSlot_freed s i r hi
  change b = { t with bdu.ports := b.bdu.ports } at hb
  change ∀ p, b.port p = { t.port p with view := (b.port p).view } ∧ (_ → (b.port p).view = _) ∧ (_ → (b.port p).view = _) at hp
  clear_value b
  have hsig := stopEntry_sig s i
  have hlen := stopEntry_signals s i
  have hs := stopEntry_eq s i
  have hq := hf.queue
  have hdue := hf.due
  have hslots := hf.slots
  have hsecs := fun k => hf.sec_eq k (P := (s.sec k).owner = mine) Iff.rfl
  have hpts := fun k => hf.pt_eq k (P := (s.pt k).owner = mine) Iff.rfl
  have hsigs := fun k => hf.sig_eq k (P := (s.sig k).owner = some i) Iff.rfl
  have hlinks := hf.link
  have hports := hf.port
  have hrest := hf.rest
  have hcounts : ∀ c, (s.stopEntry i).claimCount c = s.claimCount c := stopEntry_claimCount s i
  unfold Emptied at hdue
  simp only [hcounts] at hdue
  have hnote : ∀ k, ((s.sec k).owner = mine → Ref.sect k ∈ t.slu.noticeQ) ∧ ((s.pt k).owner = mine → Ref.point k ∈ t.slu.noticeQ)
    ∧ ((s.sig k).owner = some i → Ref.signal k ∈ t.slu.noticeQ) := fun k => ⟨hf.secNoted k, hf.ptNoted k, hf.sigNoted k⟩
  rw [hs] at hq hdue hslots hsecs hpts hlinks hports hrest
  have hdue' : b.releaseDue = true ↔ s.releaseDue = true ∨ (∃ k, (s.sec k).owner = mine) ∨ (∃ k, (s.pt k).owner = mine)
      ∨ (∃ k, (s.sig k).owner = some i) ∨ ∃ c ∈ gone, s.claimCount c ≠ 0 ∧ b.claimCount c = 0 := by
    rw [hb]; exact hdue
  have hnote' : ∀ k, ((s.sec k).owner = mine → Ref.sect k ∈ b.slu.noticeQ) ∧ ((s.pt k).owner = mine → Ref.point k ∈ b.slu.noticeQ)
      ∧ ((s.sig k).owner = some i → Ref.signal k ∈ b.slu.noticeQ) := by
    rw [hb]; exact hnote
  refine ⟨?_, ?_, ?_, ?_, ?_, fun k => ⟨?_, ?_, ?_⟩, ?_, ?_, ?_, fun p hk he hc hv ho => ?_, fun p hn => ?_, ?_⟩
  · rw [hb]; exact hf.slot
  · rw [hb]; exact hslots
  · rw [hb]; exact hsecs
  · rw [hb]; exact hpts
  · intro k
    have hk := hsigs k
    rw [hsig] at hk
    rw [hb]; exact hk
  · exact fun ho => ⟨(hnote' k).1 ho, hdue'.2 (.inr (.inl ⟨k, ho⟩))⟩
  · exact fun ho => ⟨(hnote' k).2.1 ho, hdue'.2 (.inr (.inr (.inl ⟨k, ho⟩)))⟩
  · exact fun ho => ⟨(hnote' k).2.2 ho, hdue'.2 (.inr (.inr (.inr (.inl ⟨k, ho⟩))))⟩
  · rw [hdue']
    refine or_congr_right (or_congr ?_ (or_congr ?_ (or_congr_left ?_)))
    · exact exists_congr fun k => ⟨fun h => ⟨lt_of_secOwner h, h⟩, fun h => h.2⟩
    · exact exists_congr fun k => ⟨fun h => ⟨lt_of_ptOwner h, h⟩, fun h => h.2⟩
    · exact exists_congr fun k => ⟨fun h => ⟨lt_of_sigOwner h, h⟩, fun h => h.2⟩
  · intro l
    rw [hb]; exact hlinks l
  · intro p
    rw [(hp p).1, hports p]; rfl
  · exact (hp p).2.1 ⟨hk, he, hc, hv, fun ⟨j, hj, hl, hx, hx'⟩ => ho j hj hl hx hx'⟩
  · refine (hp p).2.2 fun h => hn ?_
    obtain ⟨hk, he, hc, hv, ho⟩ := h
    exact ⟨hk, he, hc, hv, fun j hj hl hx hx' => ho ⟨j, hj, hl, hx, hx'⟩⟩
  · rw [hb, hrest]
    exact ⟨rfl, rfl, rfl, rfl, rfl, rfl, rfl, rfl, hq, rfl, rfl, rfl⟩

end Sys2Proof.Machine

/-! ### The expiries of the approach, release and overlap timers, and the train's entry (R112, R114, R119 to R121, R130) -/

namespace Sys2Proof.Machine

/-- A request for a RESERVE item: any ask but a PORT_FLANK request (R130). -/
def RemoteReq.reserves (r : RemoteReq) : Bool :=
  match r.what with
  | .ask a => !a.flank
  | .acceptance _ => false

/-- A request of the slot goes with the overlap (R97, R130). -/
def Slot.withOverlap (k : Slot) (q : RemoteReq) : Bool := k.drops Claim.ofOverlap q || q.reserves

theorem RemoteReq.reserves_asks {q : RemoteReq} (h : q.reserves = true) : q.asks = true := by
  unfold RemoteReq.reserves at h
  unfold RemoteReq.asks
  cases hq : q.what with
  | ask a => rfl
  | acceptance p => rw [hq] at h; cases h

/-- What the release of an overlap gives up (R130). -/
def State.overlapLoss (s : State) (i : Nat) : Loss where
  secs k := k ∈ (s.slotRoute i).overlapSecs ∧ (s.sec k).owner = some (.slot i) ∧ (s.sec k).kind = some .overlap
  pts k := k ∈ (s.slotRoute i).overlapPoints.map Prod.fst ∧ (s.pt k).owner = some (.slot i) ∧ (s.pt k).kind = some .overlap
  sigs _ := False
  claims := ((s.slot i).claims.filter Claim.ofOverlap).map Claim.what
  reqs := (s.slot i).remote.filter (s.slot i).withOverlap

theorem Freed.releaseOverlap {s : State} {i : Nat} (hi : i < s.rsu.slots.length) :
    Freed s i (s.overlapLoss i)
        { s.slot i with
          claims := (s.slot i).claims.filter fun c => !c.ofOverlap
          remote := (s.slot i).remote.filter fun q => !(s.slot i).withOverlap q
          timerMs := none } (s.releaseOverlap i)
      ∧ Ref.slot i ∈ (s.releaseOverlap i).slu.noticeQ := by
  have h1 := eachSec s i ((s.slotRoute i).overlapSecs.filter fun k => decide ((s.sec k).kind = some .overlap))
  have h2 := eachPt (s.each ((s.slotRoute i).overlapSecs.filter fun k => decide ((s.sec k).kind = some .overlap))
    fun t k => t.freeSec k (.slot i)) i
    (((s.slotRoute i).overlapPoints.map Prod.fst).filter fun k => decide ((s.pt k).kind = some .overlap))
  have h12 := h1.trans h2
  have hslot := h2.slot.trans h1.slot
  have h3 := h12.trans (releaseClaims (h12.slotsLength.symm ▸ hi) Claim.ofOverlap)
  have h4 := h3.trans (withdrawWhere (h3.slotsLength.symm ▸ hi) RemoteReq.reserves)
  have h5 := (h4.modSlot (fun k => { k with timerMs := none }) hi).noted (Noted.note _ (.slot i))
  refine ⟨h5.recast (fun j => ?_) (fun j => ?_) (fun j => ?_) ?_ (fun q => ?_) ?_, mem_note _ _⟩
  · simp only [Loss.add, Loss.ofSecs, Loss.ofPts, Loss.ofReqs, Slot.lossOf, State.overlapLoss, or_false, List.mem_filter,
      decide_eq_true_eq]
    tauto
  · simp only [Loss.add, Loss.ofSecs, Loss.ofPts, Loss.ofReqs, Slot.lossOf, State.overlapLoss, or_false, false_or, List.mem_filter,
      decide_eq_true_eq]
    rw [(h1.ptOwner_of_kept (j := j) id).1]
    tauto
  · simp only [Loss.add, Loss.ofSecs, Loss.ofPts, Loss.ofReqs, Slot.lossOf, State.overlapLoss, or_false]
  · simp only [Loss.add, Loss.ofSecs, Loss.ofPts, Loss.ofReqs, Slot.lossOf, State.overlapLoss, List.nil_append, List.append_nil, hslot]
    exact List.Perm.refl _
  · simp only [Loss.add, Loss.ofSecs, Loss.ofPts, Loss.ofReqs, Slot.lossOf, State.overlapLoss, List.nil_append, hslot, h3.slot,
      Slot.without, List.mem_append, List.mem_filter, Slot.withOverlap, Bool.or_eq_true, Bool.not_eq_true']
    cases (s.slot i).drops Claim.ofOverlap q <;> simp
  · rw [h3.slot, hslot]
    simp only [Slot.without, List.filter_filter]
    congr 1
    exact List.filter_congr fun q _ => by rw [Slot.withOverlap, Bool.not_or, Bool.and_comm]

theorem timing_iff {s : State} {i : Nat} {st : SlotState} :
    s.timing i st = true ↔ (s.slot i).state = st ∧ (s.slot i).timerMs.isSome = true := by
  rw [State.timing, Bool.and_eq_true, decide_eq_true_eq]

theorem lt_of_state {s : State} {i : Nat} (h : (s.slot i).state ≠ .free) : i < s.rsu.slots.length := by
  by_contra hi
  rw [State.slot, List.getD_eq_default _ _ (not_lt.1 hi)] at h
  exact h rfl

/-! #### The train's entry (R119 to R121) -/

theorem entered_iff {old s : State} {i : Nat} : State.entered old s i = true ↔ entersIn old s i := by
  simp only [State.entered, entersIn, Option.any_eq_true, becameOccupied_iff]

/-- The record of a slot a train has entered (R119). -/
def Slot.takenBy (k : Slot) : Slot :=
  { k with state := .occupied, head := some 0, release := some 0, timerMs := none, holds := Holds.empty }

/-- The entry: the signal at STOP, its lock given up, the slot OCCUPIED and enqueued. -/
theorem takeEntry_freed {s : State} {i : Nat} (hi : i < s.rsu.slots.length) :
    Freed (s.setAspect (s.slotRoute i).entry .stop) i
        (Loss.ofSigs fun j => j = (s.slotRoute i).entry ∧ ((s.setAspect (s.slotRoute i).entry .stop).sig j).owner = some i)
        (s.slot i).takenBy (s.takeEntry i)
      ∧ Ref.slot i ∈ (s.takeEntry i).slu.noticeQ :=
  ⟨((Freed.freeSig (s.setAspect (s.slotRoute i).entry .stop) i (s.slotRoute i).entry).modSlot Slot.takenBy hi).noted
    (Noted.note _ (.slot i)), mem_note _ _⟩

/-- The state a train's entry is evaluated in: the lowest path section ahead that is OCCUPIED is marked (R121). -/
def State.trainEntered (s : State) (i : Nat) : State :=
  ((s.takeEntry i).aheadAtEntry ((s.takeEntry i).slotRoute i)).elim (s.takeEntry i) fun k => (s.takeEntry i).markSequence i k

theorem enter_eq (old s : State) (i : Nat) : enter old s i = evaluate old (s.trainEntered i) i := by
  unfold enter State.trainEntered
  cases hk : (s.takeEntry i).aheadAtEntry ((s.takeEntry i).slotRoute i) <;> simp [hk]

theorem setAspect_owner (s : State) (g j : Nat) (a : Aspect) : ((s.setAspect g a).sig j).owner = (s.sig j).owner := by
  rw [State.setAspect, State.modSig_sig_at]
  split <;> rfl

/-- What the entry makes of the state, before the mark of R121. -/
structure EntryTaken (s : State) (i : Nat) (t : State) : Prop where
  slot : t.slot i = (s.slot i).takenBy
  secs : ∀ k, t.sec k = s.sec k
  entry : (s.slotRoute i).entry < s.est.signals.length → (t.sig (s.slotRoute i).entry).commanded = .stop
    ∧ (t.sig (s.slotRoute i).entry).owner = if (s.sig (s.slotRoute i).entry).owner = some i then none
        else (s.sig (s.slotRoute i).entry).owner
  kept : t.sig (s.slotRoute i).entry = { s.sig (s.slotRoute i).entry with
    commanded := (t.sig (s.slotRoute i).entry).commanded, owner := (t.sig (s.slotRoute i).entry).owner }
  signals : ∀ g, g ≠ (s.slotRoute i).entry → t.sig g = s.sig g
  released : (s.sig (s.slotRoute i).entry).owner = some i → t.releaseDue = true ∧ Ref.signal (s.slotRoute i).entry ∈ t.slu.noticeQ
  unreleased : (s.sig (s.slotRoute i).entry).owner ≠ some i → t.releaseDue = s.releaseDue
  noted : Ref.slot i ∈ t.slu.noticeQ ∧ s.slu.noticeQ <+: t.slu.noticeQ
  slots : ∀ j, j ≠ i → t.slot j = s.slot j
  sections : t.est.sections = s.est.sections
  slotsLength : t.rsu.slots.length = s.rsu.slots.length
  rest : t = { s with est.signals := t.est.signals, rsu.slots := t.rsu.slots, slu.noticeQ := t.slu.noticeQ, releaseDue := t.releaseDue }

theorem freeSig_eq (s : State) (g i : Nat) : s.freeSig g i = { s with
    est.signals := (s.freeSig g i).est.signals, slu.noticeQ := (s.freeSig g i).slu.noticeQ, releaseDue := (s.freeSig g i).releaseDue } := by
  unfold State.freeSig
  split
  · rw [note_eq]; rfl
  · rfl

theorem takeEntry_rest (s : State) (i : Nat) : s.takeEntry i = { s with
    est.signals := (s.takeEntry i).est.signals, rsu.slots := (s.takeEntry i).rsu.slots
    slu.noticeQ := (s.takeEntry i).slu.noticeQ, releaseDue := (s.takeEntry i).releaseDue } := by
  have hf := freeSig_eq (s.setAspect (s.slotRoute i).entry .stop) (s.slotRoute i).entry i
  have hn := note_eq (((s.setAspect (s.slotRoute i).entry .stop).freeSig (s.slotRoute i).entry i).modSlot i Slot.takenBy) (.slot i)
  change s.takeEntry i = { (_ : State) with slu.noticeQ := (s.takeEntry i).slu.noticeQ } at hn
  generalize s.takeEntry i = t at hn ⊢
  rw [hn, hf]
  rfl

theorem takeEntry_taken {s : State} {i : Nat} (hi : i < s.rsu.slots.length) : EntryTaken s i (s.takeEntry i) := by
  obtain ⟨hf, hn⟩ := takeEntry_freed hi
  have hu := fun j => setAspect_owner s (s.slotRoute i).entry j .stop
  have hsame : ∀ j, j ≠ (s.slotRoute i).entry → (s.setAspect (s.slotRoute i).entry .stop).sig j = s.sig j := fun j hj => by
    rw [State.setAspect, State.modSig_sig_at]
    exact if_neg fun h => hj h.1.symm
  have hhere : (s.setAspect (s.slotRoute i).entry .stop).sig (s.slotRoute i).entry = { s.sig (s.slotRoute i).entry with
      commanded := ((s.setAspect (s.slotRoute i).entry .stop).sig (s.slotRoute i).entry).commanded } := by
    rw [State.setAspect, State.modSig_sig_at]
    split <;> rfl
  have hstop : (s.slotRoute i).entry < s.est.signals.length →
      ((s.setAspect (s.slotRoute i).entry .stop).sig (s.slotRoute i).entry).commanded = .stop := fun hg => by
    rw [State.setAspect, State.modSig_sig_at, if_pos ⟨rfl, hg⟩]
  have hsig := hf.sig_eq (s.slotRoute i).entry (P := (s.sig (s.slotRoute i).entry).owner = some i)
    ⟨fun h => ⟨rfl, (hu _).trans h⟩, fun h => (hu _).symm.trans h.2⟩
  have hdue := hf.due
  simp only [Loss.ofSigs, hu, exists_eq_left, exists_false, false_or, Emptied, List.not_mem_nil, false_and, or_false] at hdue
  have hsec : ∀ k, (s.takeEntry i).sec k = s.sec k := fun k => hf.secKept k id
  exact {
    slot := hf.slot
    secs := hsec
    entry := fun hg => by rw [hsig, hu]; exact ⟨hstop hg, rfl⟩
    kept := by rw [hsig, hhere]; rfl
    signals := fun g hg => (hf.sigKept g fun h => hg h.1).trans (hsame g hg)
    released := fun ho => ⟨hdue.2 (.inr ho), hf.sigNoted _ ⟨rfl, (hu _).trans ho⟩⟩
    unreleased := fun ho => Bool.eq_iff_iff.2 (hdue.trans (or_iff_left ho))
    noted := ⟨hn, hf.queue⟩
    slots := hf.slots
    sections := by rw [takeEntry_rest]
    slotsLength := hf.slotsLength
    rest := takeEntry_rest s i }

theorem trainIn_trainEntered {s : State} {i : Nat} (hi : i < s.rsu.slots.length) : TrainIn s i (s.trainEntered i) := by
  have ht := takeEntry_taken hi
  have hroute : (s.takeEntry i).slotRoute i = s.slotRoute i := by
    rw [State.slotRoute, State.slotRoute, ht.slot, ht.rest]; rfl
  have hahead : (s.takeEntry i).aheadAtEntry (s.slotRoute i)
      = ((s.slotRoute i).path.drop 1).find? fun k => decide ((s.sec k).occ = .occupied) := by
    unfold State.aheadAtEntry
    simp only [ht.secs]
  unfold State.trainEntered
  rw [hroute, hahead]
  cases hfind : ((s.slotRoute i).path.drop 1).find? fun k => decide ((s.sec k).occ = .occupied) with
  | none =>
    have hno : ∀ k ∈ (s.slotRoute i).path.drop 1, (s.sec k).occ ≠ .occupied := fun k hk => by
      simpa using List.find?_eq_none.1 hfind k hk
    show TrainIn s i (s.takeEntry i)
    exact {
      slot := ⟨ht.slot ▸ rfl, fun ⟨k, hk, ho⟩ => absurd ho (hno k hk), fun _ => ht.slot ▸ rfl⟩
      marked := fun before k after he ho _ => absurd ho (hno k (he ▸ List.mem_append_right _ List.mem_cons_self))
      spared := fun _ => ht.secs
      entry := ht.entry
      kept := ht.kept
      signals := ht.signals
      released := ht.released
      unreleased := ht.unreleased
      noted := ht.noted
      slots := ht.slots
      rest := by rw [ht.sections]; exact ht.rest }
  | some k =>
    have hm := mark_set (s.takeEntry i) i (fun x => { x with marks.sequence := true }) (fun r => { r with sequence := true }) k
    change MarksSet (s.takeEntry i) i _ _ [k] ((s.takeEntry i).markSequence i k) at hm
    show TrainIn s i ((s.takeEntry i).markSequence i k)
    generalize s.takeEntry i = u at ht hm
    generalize u.markSequence i k = t at hm
    have hocc : (s.sec k).occ = .occupied := by simpa using List.find?_some hfind
    have hslot := hm.slot (List.cons_ne_nil _ _) (ht.slotsLength.symm ▸ hi)
    have hsig : ∀ g, t.sig g = u.sig g := fun g => by rw [hm.rest]; rfl
    have hdue : t.releaseDue = u.releaseDue := by rw [hm.rest]
    exact {
      slot := ⟨by rw [hslot, ht.slot]; rfl, fun _ => by rw [hslot, ht.slot]; rfl,
        fun h => absurd ⟨k, List.mem_of_find?_eq_some hfind, hocc⟩ h⟩
      marked := fun before j after he ho hb => by
        obtain rfl : k = j := by
          rw [he, List.find?_append, List.find?_eq_none.2 fun x hx => by simpa using hb x hx, Option.none_or,
            List.find?_cons_of_pos (p := fun k => decide ((s.sec k).occ = .occupied)) (decide_eq_true ho)] at hfind
          exact (Option.some.inj hfind).symm
        have hl : k < u.est.sections.length := ht.sections ▸ lt_of_occ (by rw [hocc]; decide)
        refine ⟨by rw [hm.hit k (List.mem_singleton_self k) hl, ht.secs], fun x hx => ?_⟩
        rw [hm.spared x fun h => hx (List.mem_singleton.1 h.1), ht.secs]
      spared := fun h => absurd hocc (h k (List.mem_of_find?_eq_some hfind))
      entry := fun hg => by rw [hsig]; exact ht.entry hg
      kept := by rw [hsig]; exact ht.kept
      signals := fun g hg => (hsig g).trans (ht.signals g hg)
      released := fun ho => ⟨hdue.trans (ht.released ho).1, hm.queue.subset (ht.released ho).2⟩
      unreleased := fun ho => hdue.trans (ht.unreleased ho)
      noted := ⟨hm.queue.subset ht.noted.1, ht.noted.2.trans hm.queue⟩
      slots := fun j hj => (hm.slots j hj).trans (ht.slots j hj)
      rest := by rw [hm.rest, ht.rest] }

/-- Settles O32. -/
theorem releaseExpiryRows : Obligations.ReleaseExpiryRows := by
  refine ⟨fun s i hp => ?_, fun old s i => ?_⟩
  · intro runs
    have approach := fun b => acted_of_act_eq (i := .approachTimerExpiry i) (b := b)
      (fun t => if t.timing i .approachLocked then t.endSlot i .approachReleased else t) hp rfl
    have release := fun b => acted_of_act_eq (i := .releaseTimerExpiry i) (b := b)
      (fun t => if t.timing i .releaseTiming then t.endSlot i .forced else t) hp rfl
    have overlap := fun b => acted_of_act_eq (i := .overlapTimerExpiry i) (b := b)
      (fun t => if t.timing i .berthed then t.releaseOverlap i else t) hp rfl
    refine ⟨fun h => approach _ (if_pos (timing_iff.2 h)), fun h => approach _ (if_neg (mt timing_iff.1 h)),
      fun h => release _ (if_pos (timing_iff.2 h)), fun h => release _ (if_neg (mt timing_iff.1 h)),
      fun h => overlap _ (if_neg (mt timing_iff.1 h)), fun h => ⟨_, overlap _ (if_pos (timing_iff.2 h)), ?_⟩⟩
    have hi : i < s.rsu.slots.length := lt_of_state (by rw [h.1]; decide)
    obtain ⟨hf, hn⟩ := Freed.releaseOverlap hi
    have hasks : ∀ q, (s.slot i).withOverlap q = true → q.asks = true := fun q hq =>
      (Bool.or_eq_true _ _ ▸ hq).elim Slot.drops_asks RemoteReq.reserves_asks
    have hasks' : ∀ q ∈ (s.overlapLoss i).reqs, q.asks = true := fun q hq => hasks q (List.mem_filter.1 hq).2
    intro d gone left withdrawn freedSec freedPt
    have hw : withdrawn = (s.slot i).withOverlap := funext fun q => by
      show _ = (_ || _)
      unfold Slot.drops RemoteReq.reserves idleFlank
      cases hq : q.what with
      | ask a => simp only [withdrawn, hq, idleFlank, Bool.or_comm]; rfl
      | acceptance p => simp only [withdrawn, hq, Bool.and_false, Bool.or_false]
    clear_value withdrawn
    subst hw
    refine ⟨hf.slot, hf.slots, hn, fun k => hf.sec_eq k Iff.rfl, fun k => hf.pt_eq k Iff.rfl, fun k => hf.sig_eq k (P := False) Iff.rfl,
      ?_, hf.link_eq rfl hasks, hf.ports_eq hasks', hf.queue, hf.rest_links hasks'⟩
    rw [hf.due]
    refine or_congr_right (or_congr ⟨fun ⟨k, hk⟩ => ⟨k, hk.1, hk⟩, fun ⟨k, _, hk⟩ => ⟨k, hk⟩⟩
      (or_congr ⟨fun ⟨k, hk⟩ => ⟨k, hk.1, hk⟩, fun ⟨k, _, hk⟩ => ⟨k, hk⟩⟩ (or_iff_right (fun ⟨_, h⟩ => h))))
  · intro d atStop
    have passed : i < s.rsu.slots.length → atStop (s.markPassed i) ∧ i < (s.markPassed i).rsu.slots.length := fun hi => by
      have hn := note_eq (s.modSlot i fun x => { x with marks.passedAtStop := true }) (.slot i)
      refine ⟨⟨mem_note _ _, hn⟩, ?_⟩
      rw [State.markPassed, note_rsu]
      exact (List.length_modify _ _ _).symm ▸ hi
    refine ⟨fun hst he => ?_, fun hst he => ?_, fun hst he => ?_, fun hst => ⟨fun hh => ?_, fun hh he => ?_, fun hh he => ?_⟩, fun hst => ?_⟩
    · have hi := lt_of_state (s := s) (i := i) (by rw [hst]; decide)
      refine ⟨_, trainIn_trainEntered hi, ?_⟩
      rw [react, hst]
      exact (if_pos (entered_iff.2 he)).trans (enter_eq old s i)
    · have hi := lt_of_state (s := s) (i := i) (by rcases hst with h | h <;> rw [h] <;> decide)
      obtain ⟨hw, hi'⟩ := passed hi
      refine ⟨_, hw, _, trainIn_trainEntered hi', ?_⟩
      rw [← enter_eq]
      rcases hst with h | h <;> rw [react, h] <;> exact if_pos (entered_iff.2 he)
    · have hi := lt_of_state (s := s) (i := i) (by rw [hst]; decide)
      refine ⟨_, markOccupied_marked old s i d.beyondEntry hi, ?_⟩
      rw [react, hst]
      exact if_neg (mt entered_iff.1 he)
    · rw [react, hst]
      exact if_pos (Option.isSome_iff_ne_none.2 hh)
    · have hi := lt_of_state (s := s) (i := i) (by rw [hst]; decide)
      refine ⟨_, markOccupied_marked old s i d.beyondEntry hi, ?_⟩
      rw [react, hst]
      show reactRelease old s i = _
      rw [reactRelease, if_neg (by rw [hh]; decide), if_neg (mt entered_iff.1 he)]
    · have hi := lt_of_state (s := s) (i := i) (by rw [hst]; decide)
      obtain ⟨hw, hi'⟩ := passed hi
      refine ⟨_, hw, _, markOccupied_marked old _ i d.beyondEntry hi', ?_⟩
      rw [react, hst]
      show reactRelease old s i = _
      rw [reactRelease, if_neg (by rw [hh]; decide), if_pos (entered_iff.2 he)]
    · rw [react, hst]

end Sys2Proof.Machine

/-! ### What a flank search hands over (R84 to R95, R102)

Every entry of the list keeps to the locks and claims that stand, entries on one point ask one position, and the counts have room for
them all. -/

namespace Sys2Proof.Machine

/-- What the entry `w` must meet to be added to the list (R86, R89, R94). -/
def State.entryFits (s : State) (n : Need) (list : List Claim) : ClaimOn → Prop
  | .point k y => (s.lockAgrees n k y = true ∧ s.claimAgrees n k y = true ∧ tentativeAgrees list k y = true)
      ∧ s.countLeft n ⟨.point, k⟩ + tentative list ⟨.point, k⟩ < Config.maxClaims
  | .signal g => (n.entry ≠ some g ∧ (s.sig g).owner = none ∧ (s.sig g).provenStop = true)
      ∧ s.countLeft n ⟨.signal, g⟩ + tentative list ⟨.signal, g⟩ < Config.maxClaims
  | .sect k => s.countLeft n ⟨.sect, k⟩ + tentative list ⟨.sect, k⟩ < Config.maxClaims
  | .port _ => True

structure ListFits (s : State) (n : Need) (list : List Claim) : Prop where
  point : ∀ c ∈ list, ∀ k y, c.what = .point k y → s.lockAgrees n k y = true ∧ s.claimAgrees n k y = true
  single : ∀ c ∈ list, ∀ c' ∈ list, ∀ k y y', c.what = .point k y → c'.what = .point k y' → y = y'
  signal : ∀ c ∈ list, ∀ g, c.what = .signal g → n.entry ≠ some g ∧ (s.sig g).owner = none ∧ (s.sig g).provenStop = true
  room : ∀ e, tentative list e ≠ 0 → s.countLeft n e + tentative list e ≤ Config.maxClaims

theorem listFits_nil (s : State) (n : Need) : ListFits s n [] :=
  ⟨fun _ h => absurd h (by simp), fun _ h => absurd h (by simp), fun _ h => absurd h (by simp), fun _ h => absurd rfl h⟩

theorem tentative_append (list : List Claim) (c : Claim) (e : ElemRef) :
    tentative (list ++ [c]) e = tentative list e + if c.what.elem? = some e then 1 else 0 := by
  rw [tentative, List.map_append, countOn_append, List.map_singleton, countOn_singleton]; rfl

theorem tentativeAgrees_iff {list : List Claim} {k : Nat} {y : Pos} :
    tentativeAgrees list k y = true ↔ ∀ c ∈ list, ∀ x, c.what = .point k x → x = y := by
  rw [tentativeAgrees, List.all_eq_true]
  refine forall₂_congr fun c _ => ?_
  cases hc : c.what with
  | point j x =>
    rw [decide_eq_true_eq]
    constructor
    · rintro h z hz
      obtain ⟨rfl, rfl⟩ := ClaimOn.point.inj hz
      exact h.resolve_left (fun h => h rfl)
    · intro h
      by_cases hj : j = k
      · exact .inr (h x (by rw [hj]))
      · exact .inl hj
  | _ => simp

theorem ListFits.append {s : State} {n : Need} {list : List Claim} (h : ListFits s n list) {c : Claim} (hc : s.entryFits n list c.what) :
    ListFits s n (list ++ [c]) := by
  have last : ∀ {x}, x ∈ list ++ [c] → x ∈ list ∨ x = c := fun hx => by simpa using hx
  refine ⟨fun x hx k y hw => ?_, fun x hx x' hx' k y y' hw hw' => ?_, fun x hx g hw => ?_, fun e he => ?_⟩
  · rcases last hx with hx | rfl
    · exact h.point x hx k y hw
    · rw [hw] at hc; exact ⟨hc.1.1, hc.1.2.1⟩
  · rcases last hx with hl | rfl <;> rcases last hx' with hl' | rfl
    · exact h.single x hl x' hl' k y y' hw hw'
    · rw [hw'] at hc; exact tentativeAgrees_iff.1 hc.1.2.2 x hl y hw
    · rw [hw] at hc; exact (tentativeAgrees_iff.1 hc.1.2.2 x' hl' y' hw').symm
    · exact (ClaimOn.point.inj (hw.symm.trans hw')).2
  · rcases last hx with hx | rfl
    · exact h.signal x hx g hw
    · rw [hw] at hc; exact hc.1
  · rw [tentative_append] at he ⊢
    by_cases hce : c.what.elem? = some e
    · rw [if_pos hce]
      cases hw : c.what with
      | point k y => rw [hw] at hc hce; obtain rfl := Option.some.inj hce; exact hc.2
      | signal g => rw [hw] at hc hce; obtain rfl := Option.some.inj hce; exact hc.2
      | sect k => rw [hw] at hc hce; obtain rfl := Option.some.inj hce; exact hc
      | port p => rw [hw] at hce; cases hce
    · rw [if_neg hce] at he ⊢
      exact h.room e he

/-- A step of the search that leaves a fitting list, if it goes on, fitting. -/
def Search.Fits (s : State) (n : Need) : Search → Prop
  | .going list _ => ListFits s n list
  | .conflict => True
  | .limit => True

theorem addEntry_fits {s : State} {n : Need} {list : List Claim} (h : ListFits s n list) {w : ClaimOn} {prot : Option Prot} {limit v : Nat}
    (hw : (¬∃ c ∈ list, c.what = w ∧ c.prot = prot) → s.entryFits n list w) : (addEntry limit w prot list v).Fits s n := by
  unfold addEntry
  split
  · exact h
  · split
    · trivial
    · rename_i hno _
      exact h.append (hw fun ⟨c, hc, he⟩ => hno (List.any_eq_true.2 ⟨c, hc, decide_eq_true he⟩))

theorem addSections_fits {s : State} {n : Need} {prot : Option Prot} {limit : Nat} (ks : List Nat) {r : Search} (h : r.Fits s n)
    (hk : ∀ list v, r = .going list v → ∀ k ∈ ks, (¬∃ c ∈ list, c.what = .sect k ∧ c.prot = prot) → s.entryFits n list (.sect k)) :
    (addSections limit prot ks r).Fits s n := by
  induction ks generalizing r with
  | nil => exact h
  | cons k ks ih =>
    cases r with
    | conflict => exact h
    | limit => exact h
    | going list v =>
      have hk := hk list v rfl
      refine ih (addEntry_fits h (hk k List.mem_cons_self)) fun list' v' he j hj hno => ?_
      unfold addEntry at he
      split at he
      · obtain ⟨rfl, rfl⟩ := Search.going.inj he
        exact hk j (List.mem_cons_of_mem _ hj) hno
      · split at he
        · cases he
        · obtain ⟨rfl, rfl⟩ := Search.going.inj he
          have hjk : j ≠ k := fun e => hno ⟨⟨.sect k, prot, false, false⟩, by simp, by rw [e], rfl⟩
          have hold := hk j (List.mem_cons_of_mem _ hj) fun ⟨c, hc, e⟩ => hno ⟨c, List.mem_append_left _ hc, e⟩
          show _ + tentative (_ ++ _) _ < _
          rw [tentative_append, if_neg (fun e => hjk (by simpa [ClaimOn.elem?] using e.symm))]
          exact hold

theorem fallBack_fits {s : State} {n : Need} {prot : Option Prot} {trav : List Nat} {list : List Claim} {v : Nat} (h : ListFits s n list) :
    (s.fallBack n prot trav list v).Fits s n := by
  unfold State.fallBack
  split
  · rename_i hall
    refine addSections_fits trav (r := .going list v) h fun list' v' he k hk _ => ?_
    obtain ⟨rfl, rfl⟩ := Search.going.inj he
    have hok := List.all_eq_true.1 hall k hk
    simp only [State.fallbackOk, Bool.and_eq_true, decide_eq_true_eq] at hok
    exact hok.2
  · trivial

theorem protect_fits {s : State} {n : Need} {prot : Option Prot} {trav : List Nat} {list : List Claim} {v : Nat} (h : ListFits s n list)
    {w : Option ClaimOn} (hw : ∀ x, w = some x → s.entryFits n list x) : (s.protect n prot trav w list v).Fits s n := by
  unfold State.protect
  split
  · trivial
  · cases w with
    | none => exact h
    | some x => exact addEntry_fits h fun _ => hw x rfl

theorem signalUsable_fits {s : State} {n : Need} {list : List Claim} {g : Nat} (h : s.signalUsable n list g = true) :
    s.entryFits n list (.signal g) := by
  simp only [State.signalUsable, Bool.and_eq_true, decide_eq_true_eq, Option.isNone_iff_eq_none] at h
  obtain ⟨⟨⟨⟨hp, -⟩, ho⟩, he⟩, hc⟩ := h
  exact ⟨⟨he, ho, hp⟩, hc⟩

theorem pointUsable_fits {s : State} {n : Need} {list : List Claim} {k : Nat} {y : Pos} (h : s.pointUsable n list k y = true) :
    s.entryFits n list (.point k y) := by
  simp only [State.pointUsable, Bool.and_eq_true, decide_eq_true_eq] at h
  obtain ⟨⟨⟨⟨⟨-, hl⟩, hc⟩, ht⟩, hn⟩, -⟩ := h
  exact ⟨⟨hl, hc, ht⟩, hn⟩

theorem explore_fits {s : State} {n : Need} {prot : Option Prot} (fuel : Nat) {sec : Nat} {e : SecEnd} {trav : List Nat}
    {list : List Claim} {v : Nat} (h : ListFits s n list) : (s.explore n prot fuel sec e trav list v).Fits s n := by
  induction fuel generalizing sec e trav list v with
  | zero => exact fallBack_fits h
  | succ fuel ih =>
    unfold State.explore
    simp only []
    split
    · exact fallBack_fits h
    · split
      · trivial
      · split
        · rename_i g hg
          refine protect_fits h fun x hx => ?_
          obtain rfl := Option.some.inj hx
          exact signalUsable_fits (Option.filter_eq_some_iff.1 hg).2
        · split
          · exact protect_fits h fun x hx => by cases hx
          · exact ih h
          · split
            · refine protect_fits h fun x hx => ?_
              obtain rfl := Option.some.inj hx
              trivial
            · exact fallBack_fits h
          · rename_i q _
            have h1 := ih (sec := (s.ptDef q).normal) (e := s.image.endAt (s.ptDef q).normal q .normal) (trav := trav ++ [sec])
              (v := v + 1) h
            generalize s.explore n prot fuel (s.ptDef q).normal (s.image.endAt (s.ptDef q).normal q .normal) (trav ++ [sec]) list (v + 1) = r at h1
            cases r with
            | going list' v' => exact ih h1
            | conflict => trivial
            | limit => trivial
          · split
            · rename_i hp
              refine protect_fits h fun x hx => ?_
              obtain rfl := Option.some.inj hx
              exact pointUsable_fits hp
            · exact ih h

theorem searchAll_fits {s : State} {n : Need} (pts : List (Nat × Pos × Prot)) {list cs : List Claim} (h : ListFits s n list)
    (hcs : s.searchAll n pts list = .success cs) : ListFits s n cs := by
  induction pts generalizing list with
  | nil =>
    obtain rfl := FlankResult.success.inj hcs
    exact h
  | cons q pts ih =>
    obtain ⟨pt, x, prot⟩ := q
    unfold State.searchAll at hcs
    have h1 : (s.searchPoint n pt x prot list).Fits s n := by
      unfold State.searchPoint
      exact explore_fits 4 h
    cases hr : s.searchPoint n pt x prot list with
    | going list' v => rw [hr] at hcs h1; exact ih h1 hcs
    | conflict => rw [hr] at hcs; cases hcs
    | limit => rw [hr] at hcs; cases hcs

end Sys2Proof.Machine

/-! ### The donor's overlap in an acceptance (R63, R66, R99) -/

namespace Sys2Proof.Machine

/-- The counts have lost the entries of a list, without release events and notices. -/
structure CountsTaken (s : State) (cs : List ClaimOn) (t : State) : Prop where
  sec : ∀ j, t.sec j = (s.sec j).less (countOn cs ⟨.sect, j⟩)
  pt : ∀ j, t.pt j = (s.pt j).less (countOn cs ⟨.point, j⟩)
  sig : ∀ j, t.sig j = (s.sig j).less (countOn cs ⟨.signal, j⟩)
  sections : t.est.sections.length = s.est.sections.length
  points : t.est.points.length = s.est.points.length
  signals : t.est.signals.length = s.est.signals.length
  rest : t = { s with est.sections := t.est.sections, est.points := t.est.points, est.signals := t.est.signals }

theorem CountsTaken.trans {s t u : State} {cs ds : List ClaimOn} (h : CountsTaken s cs t) (k : CountsTaken t ds u) :
    CountsTaken s (cs ++ ds) u where
  sec j := by rw [k.sec, h.sec, SectionRec.less_less, countOn_append]
  pt j := by rw [k.pt, h.pt, PointRec.less_less, countOn_append]
  sig j := by rw [k.sig, h.sig, SignalRec.less_less, countOn_append]
  sections := k.sections.trans h.sections
  points := k.points.trans h.points
  signals := k.signals.trans h.signals
  rest := by rw [k.rest, h.rest]

theorem takeCount_taken (s : State) (c : ClaimOn) : CountsTaken s [c] (s.takeCount c) :=
  have ⟨h1, h2, h3⟩ := Freed.takeCount_reads s c
  have ⟨l1, l2, l3⟩ := Freed.takeCount_lengths s c
  ⟨h1, h2, h3, l1, l2, l3, Freed.takeCount_rest s c⟩

theorem each_takeCount (s : State) (cs : List Claim) :
    CountsTaken s (cs.map Claim.what) (s.each cs fun t c => t.takeCount c.what) := by
  induction cs generalizing s with
  | nil => exact ⟨fun _ => rfl, fun _ => (PointRec.less_zero _).symm, fun _ => rfl, rfl, rfl, rfl, rfl⟩
  | cons c cs ih => exact (takeCount_taken s c.what).trans (ih (s.takeCount c.what))

/-- Section `k` is one that slot `j`'s overlap locks and route `d` does not use. -/
def State.overlapSec (s : State) (j : Nat) (d : RouteDef) (k : Nat) : Prop :=
  k ∈ (s.slotRoute j).overlapSecs ∧ k ∉ d.sections ∧ (s.sec k).owner = some (.slot j) ∧ (s.sec k).kind = some .overlap

def State.overlapPt (s : State) (j : Nat) (d : RouteDef) (k : Nat) : Prop :=
  k ∈ (s.slotRoute j).overlapPoints.map Prod.fst ∧ k ∉ d.points.map Prod.fst ∧ (s.pt k).owner = some (.slot j)
    ∧ (s.pt k).kind = some .overlap

/-- Slot `j` gives its overlap to route `d` and is enqueued. -/
structure TakesOver (s : State) (d : RouteDef) (j : Nat) (t : State) : Prop where
  secFreed : ∀ k, s.overlapSec j d k →
    t.sec k = (s.sec k).unlocked.less (countOn (((s.slot j).claims.filter Claim.ofOverlap).map Claim.what) ⟨.sect, k⟩)
  secKept : ∀ k, ¬s.overlapSec j d k →
    t.sec k = (s.sec k).less (countOn (((s.slot j).claims.filter Claim.ofOverlap).map Claim.what) ⟨.sect, k⟩)
  ptFreed : ∀ k, s.overlapPt j d k →
    t.pt k = (s.pt k).unlocked.less (countOn (((s.slot j).claims.filter Claim.ofOverlap).map Claim.what) ⟨.point, k⟩)
  ptKept : ∀ k, ¬s.overlapPt j d k →
    t.pt k = (s.pt k).less (countOn (((s.slot j).claims.filter Claim.ofOverlap).map Claim.what) ⟨.point, k⟩)
  sig : ∀ k, t.sig k = (s.sig k).less (countOn (((s.slot j).claims.filter Claim.ofOverlap).map Claim.what) ⟨.signal, k⟩)
  due : (∃ k, s.overlapSec j d k) ∨ (∃ k, s.overlapPt j d k) → t.releaseDue = true
  slot : t.slot j = { s.slot j with
    claims := (s.slot j).claims.filter fun c => !c.ofOverlap
    remote := (s.slot j).remote.filter fun r => !idleFlank ((s.slot j).claims.filter fun c => !c.ofOverlap) r }
  noted : Ref.slot j ∈ t.slu.noticeQ
  slots : ∀ m, m ≠ j → t.slot m = s.slot m
  link : ∀ l, t.link l = { s.link l with outgoing := (s.link l).outgoing.filter (fun o =>
    !askGone j ((s.slot j).remote.filter (idleFlank ((s.slot j).claims.filter fun c => !c.ofOverlap))) l o) }
  sections : t.est.sections.length = s.est.sections.length
  points : t.est.points.length = s.est.points.length
  signals : t.est.signals.length = s.est.signals.length
  slotsLength : t.rsu.slots.length = s.rsu.slots.length
  links : t.bdu.links.length = s.bdu.links.length
  queue : s.slu.noticeQ <+: t.slu.noticeQ
  rest : t = { s with
    est.sections := t.est.sections, est.points := t.est.points, est.signals := t.est.signals
    rsu.slots := t.rsu.slots, bdu.links := t.bdu.links, slu.noticeQ := t.slu.noticeQ, releaseDue := t.releaseDue }

theorem takeOver_takesOver {s : State} {d : RouteDef} {j : Nat} (hj : j < s.rsu.slots.length) :
    TakesOver s d j ((s.takeOver j d).note (.slot j)) := by
  have hsecs := Freed.eachSec s j
    ((s.slotRoute j).overlapSecs.filter fun k => !d.sections.contains k && decide ((s.sec k).kind = some .overlap))
  unfold State.takeOver
  simp only []
  generalize s.each
    ((s.slotRoute j).overlapSecs.filter fun k => !d.sections.contains k && decide ((s.sec k).kind = some .overlap))
    (fun t k => t.freeSec k (.slot j)) = u at hsecs
  have hpts := Freed.eachPt u j
    (((s.slotRoute j).overlapPoints.map Prod.fst).filter fun k =>
      !(d.points.any fun q => q.1 = k) && decide ((s.pt k).kind = some .overlap))
  generalize u.each
    (((s.slotRoute j).overlapPoints.map Prod.fst).filter fun k =>
      !(d.points.any fun q => q.1 = k) && decide ((s.pt k).kind = some .overlap))
    (fun t k => t.freePt k (.slot j)) = v at hpts
  have hlocks := hsecs.trans hpts
  have hcounts := each_takeCount v ((s.slot j).claims.filter Claim.ofOverlap)
  generalize v.each ((s.slot j).claims.filter Claim.ofOverlap) (fun t c => t.takeCount c.what) = w at hcounts
  have hw : w.slot j = s.slot j := by rw [hcounts.rest]; exact hlocks.slot.trans hsecs.slot
  have hwl : j < w.rsu.slots.length := by rw [hcounts.rest]; exact hlocks.slotsLength.symm ▸ hj
  have hleave := (((Freed.refl w j).modSlot (fun k => { k with claims := (s.slot j).claims.filter fun c => !c.ofOverlap }) hwl).trans
    (Freed.withdrawWhere (by rw [State.modSlot_slots, List.length_modify]; exact hwl)
      (idleFlank ((s.slot j).claims.filter fun c => !c.ofOverlap)))).noted (Noted.note _ (.slot j))
  have hmem := mem_note ((w.modSlot j fun k => { k with claims := (s.slot j).claims.filter fun c => !c.ofOverlap }).withdrawWhere j
    (idleFlank ((s.slot j).claims.filter fun c => !c.ofOverlap))) (.slot j)
  generalize ((w.modSlot j fun k => { k with claims := (s.slot j).claims.filter fun c => !c.ofOverlap }).withdrawWhere j
    (idleFlank ((s.slot j).claims.filter fun c => !c.ofOverlap))).note (.slot j) = t at hleave hmem
  have hmod : (w.modSlot j fun k => { k with claims := (s.slot j).claims.filter fun c => !c.ofOverlap }).slot j
      = { s.slot j with claims := (s.slot j).claims.filter fun c => !c.ofOverlap } := by
    rw [State.modSlot_slot_at, if_pos ⟨rfl, hwl⟩, hw]
  have hreqs : Freed w j (Loss.ofReqs ((s.slot j).remote.filter (idleFlank ((s.slot j).claims.filter fun c => !c.ofOverlap))))
      { s.slot j with
        claims := (s.slot j).claims.filter fun c => !c.ofOverlap
        remote := (s.slot j).remote.filter fun r => !idleFlank ((s.slot j).claims.filter fun c => !c.ofOverlap) r } t := by
    rw [hmod] at hleave
    exact hleave.congr (fun _ => (or_self_iff).symm) (fun _ => (or_self_iff).symm) (fun _ => (or_self_iff).symm) rfl rfl rfl
  have hgiven : Freed s j ⟨s.overlapSec j d, s.overlapPt j d, fun _ => False, [], []⟩ (s.slot j) v := by
    refine hlocks.congr (fun k => ?_) (fun k => ?_) (fun _ => (or_self_iff).symm) rfl rfl hsecs.slot.symm
    · show _ ↔ (k ∈ _ ∧ _) ∨ False
      have hc : d.sections.contains k = false ↔ k ∉ d.sections := by simp
      simp only [List.mem_filter, Bool.and_eq_true, Bool.not_eq_true', decide_eq_true_eq, or_false, State.overlapSec, hc]
      tauto
    · show _ ↔ False ∨ (k ∈ _ ∧ _)
      rw [(hsecs.ptOwner_of_kept (j := k) id).1]
      have hc : (d.points.any fun q => q.1 = k) = false ↔ k ∉ d.points.map Prod.fst := by
        rw [List.any_eq_false, List.mem_map]
        exact ⟨fun h ⟨q, hq, e⟩ => h q hq (decide_eq_true e), fun h q hq e => h ⟨q, hq, of_decide_eq_true e⟩⟩
      simp only [List.mem_filter, Bool.and_eq_true, Bool.not_eq_true', decide_eq_true_eq, false_or, State.overlapPt, hc]
      tauto
  exact {
    secFreed := fun k hk => by rw [hreqs.secKept k id, hcounts.sec, hgiven.secFreed k hk]; rfl
    secKept := fun k hk => by rw [hreqs.secKept k id, hcounts.sec, hgiven.secKept k hk]; rfl
    ptFreed := fun k hk => by rw [hreqs.ptKept k id, hcounts.pt, hgiven.ptFreed k hk]; simp only [Loss.ofReqs, countOn_nil, PointRec.less_zero]
    ptKept := fun k hk => by rw [hreqs.ptKept k id, hcounts.pt, hgiven.ptKept k hk]; simp only [Loss.ofReqs, countOn_nil, PointRec.less_zero]
    sig := fun k => by rw [hreqs.sigKept k id, hcounts.sig, hgiven.sigKept k id]; rfl
    due := fun h => hreqs.due.2 (.inl (by rw [hcounts.rest]; exact hgiven.due.2 (.inr (h.imp_right .inl))))
    slot := hreqs.slot
    noted := hmem
    slots := fun m hm => (hreqs.slots m hm).trans (by rw [hcounts.rest]; exact hgiven.slots m hm)
    link := fun l => by
      have hl : w.link l = s.link l := by
        rw [show w.link l = v.link l by rw [hcounts.rest]; rfl, hgiven.link l]
        simp [askGone]
      rw [hreqs.link l, hl]; rfl
    sections := by rw [hreqs.sections, hcounts.sections, hgiven.sections]
    points := by rw [hreqs.points, hcounts.points, hgiven.points]
    signals := by rw [hreqs.signals, hcounts.signals, hgiven.signals]
    slotsLength := hreqs.slotsLength.trans (by rw [hcounts.rest]; exact hgiven.slotsLength)
    links := hreqs.links.trans (by rw [hcounts.rest]; exact hgiven.links)
    queue := List.IsPrefix.trans (by rw [hcounts.rest]; exact hgiven.queue) hreqs.queue
    rest := by
      have h1 := hreqs.rest_links (fun q hq => idleFlank_asks (List.mem_filter.1 hq).2)
      have h2 := hgiven.rest_links (fun q hq => absurd hq List.not_mem_nil)
      rw [h1, hcounts.rest, h2] }

/-- The slot a route request is accepted into, as it is first written (R65). -/
def RouteDef.freshSlot (d : RouteDef) (o : Originator) : Slot :=
  { Slot.start with route := some d.number, kind := some d.kind, originator := some o, state := .setting }

/-- The state once the slot is written and the donor has given its overlap. -/
def State.handedOver (s : State) (o : Originator) (d : RouteDef) (i : Nat) : State :=
  (s.donor d).elim (s.modSlot i fun _ => d.freshSlot o) fun j => ((s.modSlot i fun _ => d.freshSlot o).takeOver j d).note (.slot j)

/-- Section `k` is one the donor's overlap locks and the new route does not use. -/
def State.givesSec (s : State) (d : RouteDef) (k : Nat) : Prop :=
  ∃ j, s.donor d = some j ∧ k ∈ (s.slotRoute j).overlapSecs ∧ k ∉ d.sections ∧ (s.sec k).owner = some (.slot j)
    ∧ (s.sec k).kind = some .overlap

def State.givesPt (s : State) (d : RouteDef) (k : Nat) : Prop :=
  ∃ j, s.donor d = some j ∧ k ∈ (s.slotRoute j).overlapPoints.map Prod.fst ∧ k ∉ d.points.map Prod.fst
    ∧ (s.pt k).owner = some (.slot j) ∧ (s.pt k).kind = some .overlap

/-- The donor's requests that no entry of its path claims names: they are withdrawn. -/
def State.givesReqs (s : State) (d : RouteDef) : List RemoteReq :=
  (s.donor d).elim [] fun j => (s.slot j).remote.filter (idleFlank ((s.slot j).claims.filter fun c => !c.ofOverlap))

/-- An outgoing request of link `l` is one of them. -/
def State.givenBack (s : State) (d : RouteDef) (l : Nat) (o : OutReq) : Bool :=
  (s.donor d).elim false fun j => askGone j (s.givesReqs d) l o

/-- What the slot written and the donor's overlap given make of the state. -/
structure HandsOver (s : State) (o : Originator) (d : RouteDef) (i : Nat) (t : State) : Prop where
  secFreed : ∀ k, s.givesSec d k → t.sec k = (s.sec k).unlocked.less (countOn (s.needOf d).absent ⟨.sect, k⟩)
  secKept : ∀ k, ¬s.givesSec d k → t.sec k = (s.sec k).less (countOn (s.needOf d).absent ⟨.sect, k⟩)
  ptFreed : ∀ k, s.givesPt d k → t.pt k = (s.pt k).unlocked.less (countOn (s.needOf d).absent ⟨.point, k⟩)
  ptKept : ∀ k, ¬s.givesPt d k → t.pt k = (s.pt k).less (countOn (s.needOf d).absent ⟨.point, k⟩)
  sig : ∀ k, t.sig k = (s.sig k).less (countOn (s.needOf d).absent ⟨.signal, k⟩)
  due : (∃ k, s.givesSec d k) ∨ (∃ k, s.givesPt d k) → t.releaseDue = true
  slot : t.slot i = d.freshSlot o
  donor : ∀ j, s.donor d = some j →
    t.slot j = { s.slot j with
      claims := (s.slot j).claims.filter fun c => !c.ofOverlap
      remote := (s.slot j).remote.filter fun r => !idleFlank ((s.slot j).claims.filter fun c => !c.ofOverlap) r }
    ∧ Ref.slot j ∈ t.slu.noticeQ
  slots : ∀ m, m ≠ i → some m ≠ s.donor d → t.slot m = s.slot m
  link : ∀ l, t.link l = { s.link l with outgoing := (s.link l).outgoing.filter (fun o => !s.givenBack d l o) }
  sections : t.est.sections.length = s.est.sections.length
  points : t.est.points.length = s.est.points.length
  signals : t.est.signals.length = s.est.signals.length
  slotsLength : t.rsu.slots.length = s.rsu.slots.length
  links : t.bdu.links.length = s.bdu.links.length
  queue : s.slu.noticeQ <+: t.slu.noticeQ
  rest : t = { s with
    est.sections := t.est.sections, est.points := t.est.points, est.signals := t.est.signals
    rsu.slots := t.rsu.slots, bdu.links := t.bdu.links, slu.noticeQ := t.slu.noticeQ, releaseDue := t.releaseDue }

/-- A donor is live. -/
theorem donor_live {s : State} {d : RouteDef} {j : Nat} (h : s.donor d = some j) : s.live j = true := by
  obtain ⟨⟨hs, -⟩, -⟩ := donor_some.1 h
  rw [State.live, decide_eq_true_eq]
  rcases hs with hs | hs <;> rw [hs] <;> decide

theorem handedOver_handsOver {s : State} {o : Originator} {d : RouteDef} {i : Nat} (hi : i < s.rsu.slots.length)
    (hfree : s.live i = false) : HandsOver s o d i (s.handedOver o d i) := by
  unfold State.handedOver
  have hneed : (s.needOf d).absent = (s.donor d).elim [] fun j => ((s.slot j).claims.filter Claim.ofOverlap).map Claim.what := by
    unfold State.needOf
    cases s.donor d <;> rfl
  cases hd : s.donor d with
  | none =>
    have h0 : (s.needOf d).absent = [] := by rw [hneed, hd]; rfl
    have hs : ∀ k, ¬s.givesSec d k := fun k ⟨j, hj, _⟩ => by rw [hd] at hj; cases hj
    have hp : ∀ k, ¬s.givesPt d k := fun k ⟨j, hj, _⟩ => by rw [hd] at hj; cases hj
    show HandsOver s o d i (s.modSlot i fun _ => d.freshSlot o)
    exact {
      secFreed := fun k hk => absurd hk (hs k)
      secKept := fun k _ => by rw [h0]; rfl
      ptFreed := fun k hk => absurd hk (hp k)
      ptKept := fun k _ => by rw [h0]; exact (PointRec.less_zero _).symm
      sig := fun k => by rw [h0]; rfl
      due := fun h => h.elim (fun ⟨k, hk⟩ => absurd hk (hs k)) (fun ⟨k, hk⟩ => absurd hk (hp k))
      slot := by rw [State.modSlot_slot_at, if_pos ⟨rfl, hi⟩]
      donor := fun j hj => by rw [hd] at hj; cases hj
      slots := fun m hm _ => by rw [State.modSlot_slot_at, if_neg (fun h : i = m ∧ _ => hm h.1.symm)]
      link := fun l => by simp [State.givenBack, hd, State.link]
      sections := rfl
      points := rfl
      signals := rfl
      slotsLength := List.length_modify _ _ _
      links := rfl
      queue := List.prefix_rfl
      rest := rfl }
  | some j =>
    have hij : j ≠ i := fun e => by rw [← e, donor_live hd] at hfree; cases hfree
    have hlive := lt_of_live (donor_live hd)
    have hneed' : (s.needOf d).absent = ((s.slot j).claims.filter Claim.ofOverlap).map Claim.what := by rw [hneed, hd]; rfl
    have hslot : (s.modSlot i fun _ => d.freshSlot o).slot j = s.slot j := by
      rw [State.modSlot_slot_at, if_neg (fun h : i = j ∧ _ => hij h.1.symm)]
    have hroute : (s.modSlot i fun _ => d.freshSlot o).slotRoute j = s.slotRoute j := by
      rw [State.slotRoute, State.slotRoute, hslot]; rfl
    have ht := takeOver_takesOver (s := s.modSlot i fun _ => d.freshSlot o) (d := d) (j := j)
      ((List.length_modify _ _ _).symm ▸ hlive)
    have hown : ∀ k, s.givesSec d k ↔ (s.modSlot i fun _ => d.freshSlot o).overlapSec j d k := fun k => by
      unfold State.overlapSec
      rw [hroute]
      exact ⟨fun ⟨m, hm, h⟩ => by rw [hd] at hm; obtain rfl := Option.some.inj hm; exact h, fun h => ⟨j, hd, h⟩⟩
    have hpown : ∀ k, s.givesPt d k ↔ (s.modSlot i fun _ => d.freshSlot o).overlapPt j d k := fun k => by
      unfold State.overlapPt
      rw [hroute]
      exact ⟨fun ⟨m, hm, h⟩ => by rw [hd] at hm; obtain rfl := Option.some.inj hm; exact h, fun h => ⟨j, hd, h⟩⟩
    show HandsOver s o d i (((s.modSlot i fun _ => d.freshSlot o).takeOver j d).note (.slot j))
    generalize ((s.modSlot i fun _ => d.freshSlot o).takeOver j d).note (.slot j) = t at ht
    obtain ⟨secFreed, secKept, ptFreed, ptKept, sig, due, slot, noted, slots, link, sections, points, signals, slotsLength, links, queue,
      rest⟩ := ht
    rw [hslot] at secFreed secKept ptFreed ptKept sig slot link
    exact {
      secFreed := fun k hk => hneed' ▸ secFreed k ((hown k).1 hk)
      secKept := fun k hk => hneed' ▸ secKept k (mt (hown k).2 hk)
      ptFreed := fun k hk => hneed' ▸ ptFreed k ((hpown k).1 hk)
      ptKept := fun k hk => hneed' ▸ ptKept k (mt (hpown k).2 hk)
      sig := fun k => hneed' ▸ sig k
      due := fun h => due (by simpa only [hown, hpown] using h)
      slot := (slots i fun e => hij e.symm).trans (by rw [State.modSlot_slot_at, if_pos ⟨rfl, hi⟩])
      donor := fun m hm => by
        rw [hd] at hm
        obtain rfl := Option.some.inj hm
        exact ⟨slot, noted⟩
      slots := fun m hm hmd => (slots m fun e => hmd (by rw [hd, e])).trans
        (by rw [State.modSlot_slot_at, if_neg (fun h : i = m ∧ _ => hm h.1.symm)])
      link := fun l => by
        rw [link l]
        simp only [State.givenBack, State.givesReqs, hd, Option.elim_some]
        rfl
      sections := sections
      points := points
      signals := signals
      slotsLength := slotsLength.trans (List.length_modify _ _ _)
      links := links
      queue := queue
      rest := rest.trans rfl }

end Sys2Proof.Machine

/-! ### The locks, the claims, the movements and the requests of an acceptance (R35, R36, R65, R96, R154) -/

namespace Sys2Proof.Machine

/-! #### Locks -/

/-- A section record locked by slot `i`: its marks go (R28). -/
def SectionRec.lockedBy (r : SectionRec) (i : Nat) (k : LockKind) : SectionRec :=
  { r with owner := some (.slot i), kind := some k, unexpected := false, vanished := false, sequence := false }

def PointRec.lockedBy (r : PointRec) (i : Nat) (k : LockKind) (p : Pos) : PointRec :=
  { r with owner := some (.slot i), kind := some k, lockedPos := some p }

theorem each_lockSec (s : State) (i : Nat) (kind : LockKind) (l : List Nat) :
    (∀ k, k ∈ l → k < s.est.sections.length →
        (s.each l fun t k => t.lockSec k (.slot i) (some kind)).sec k = (s.sec k).lockedBy i kind)
      ∧ (∀ k, ¬(k ∈ l ∧ k < s.est.sections.length) → (s.each l fun t k => t.lockSec k (.slot i) (some kind)).sec k = s.sec k)
      ∧ (s.each l fun t k => t.lockSec k (.slot i) (some kind)).est.sections.length = s.est.sections.length
      ∧ (s.each l fun t k => t.lockSec k (.slot i) (some kind)) =
        { s with est.sections := (s.each l fun t k => t.lockSec k (.slot i) (some kind)).est.sections } := by
  induction l generalizing s with
  | nil => exact ⟨fun _ h => absurd h List.not_mem_nil, fun _ _ => rfl, rfl, rfl⟩
  | cons j l ih =>
    obtain ⟨h1, h2, h3, h4⟩ := ih (s.lockSec j (.slot i) (some kind))
    have hj : ∀ k, (s.lockSec j (.slot i) (some kind)).sec k =
        if j = k ∧ k < s.est.sections.length then (s.sec k).lockedBy i kind else s.sec k := fun k => State.modSec_sec_at _ _ _ _
    have hl : (s.lockSec j (.slot i) (some kind)).est.sections.length = s.est.sections.length := List.length_modify _ _ _
    rw [hl] at h1 h2 h3
    refine ⟨fun k hk hlt => ?_, fun k hk => ?_, h3, h4⟩
    · by_cases hkl : k ∈ l
      · refine (h1 k hkl hlt).trans ?_
        rw [hj]
        split <;> rfl
      · refine (h2 k fun h => hkl h.1).trans ?_
        rw [hj, if_pos ⟨((List.mem_cons.1 hk).resolve_right hkl).symm, hlt⟩]
    · refine (h2 k fun h => hk ⟨List.mem_cons_of_mem _ h.1, h.2⟩).trans ?_
      rw [hj, if_neg]
      rintro ⟨rfl, h⟩
      exact hk ⟨List.mem_cons_self, h⟩

theorem each_lockPt (s : State) (i : Nat) (kind : LockKind) (l : List (Nat × Pos)) :
    (∀ k, k ∈ l.map Prod.fst → k < s.est.points.length → ∃ q ∈ l, q.1 = k
        ∧ (s.each l fun t q => t.lockPt q.1 (.slot i) (some kind) q.2).pt k = (s.pt k).lockedBy i kind q.2)
      ∧ (∀ k, ¬(k ∈ l.map Prod.fst ∧ k < s.est.points.length) →
        (s.each l fun t q => t.lockPt q.1 (.slot i) (some kind) q.2).pt k = s.pt k)
      ∧ (s.each l fun t q => t.lockPt q.1 (.slot i) (some kind) q.2).est.points.length = s.est.points.length
      ∧ (s.each l fun t q => t.lockPt q.1 (.slot i) (some kind) q.2) =
        { s with est.points := (s.each l fun t q => t.lockPt q.1 (.slot i) (some kind) q.2).est.points } := by
  induction l generalizing s with
  | nil => exact ⟨fun _ h => absurd h List.not_mem_nil, fun _ _ => rfl, rfl, rfl⟩
  | cons j l ih =>
    obtain ⟨h1, h2, h3, h4⟩ := ih (s.lockPt j.1 (.slot i) (some kind) j.2)
    have hj : ∀ k, (s.lockPt j.1 (.slot i) (some kind) j.2).pt k =
        if j.1 = k ∧ k < s.est.points.length then (s.pt k).lockedBy i kind j.2 else s.pt k := fun k => State.modPt_pt_at _ _ _ _
    have hl : (s.lockPt j.1 (.slot i) (some kind) j.2).est.points.length = s.est.points.length := List.length_modify _ _ _
    rw [hl] at h1 h2 h3
    refine ⟨fun k hk hlt => ?_, fun k hk => ?_, h3, h4⟩
    · by_cases hkl : k ∈ l.map Prod.fst
      · obtain ⟨q, hq, hqk, he⟩ := h1 k hkl hlt
        refine ⟨q, List.mem_cons_of_mem _ hq, hqk, he.trans ?_⟩
        rw [hj]
        split <;> rfl
      · have hjk : j.1 = k := by
          rw [List.map_cons, List.mem_cons] at hk
          exact (hk.resolve_right hkl).symm
        refine ⟨j, List.mem_cons_self, hjk, (h2 k fun h => hkl h.1).trans ?_⟩
        rw [hj, if_pos ⟨hjk, hlt⟩]
    · refine (h2 k fun h => hk ⟨by rw [List.map_cons]; exact List.mem_cons_of_mem _ h.1, h.2⟩).trans ?_
      rw [hj, if_neg]
      rintro ⟨rfl, h⟩
      exact hk ⟨by rw [List.map_cons]; exact List.mem_cons_self, h⟩

/-- The elements of a route locked for slot `i` (R65). -/
structure RouteLocked (s : State) (i : Nat) (d : RouteDef) (t : State) : Prop where
  secOverlap : ∀ k ∈ d.overlapSecs, k < s.est.sections.length → t.sec k = (s.sec k).lockedBy i .overlap
  secPath : ∀ k ∈ d.path, k ∉ d.overlapSecs → k < s.est.sections.length → t.sec k = (s.sec k).lockedBy i .path
  secKept : ∀ k, ¬(k ∈ d.sections ∧ k < s.est.sections.length) → t.sec k = s.sec k
  pt : ∀ k ∈ d.points.map Prod.fst, k < s.est.points.length → ∃ q ∈ d.points, q.1 = k
    ∧ t.pt k = (s.pt k).lockedBy i (if (d.overlapPoints.map Prod.fst).contains k then .overlap else .path) q.2
  ptKept : ∀ k, ¬(k ∈ d.points.map Prod.fst ∧ k < s.est.points.length) → t.pt k = s.pt k
  sig : ∀ k, t.sig k = if k = d.entry ∧ k < s.est.signals.length then { s.sig k with owner := some i } else s.sig k
  sections : t.est.sections.length = s.est.sections.length
  points : t.est.points.length = s.est.points.length
  signals : t.est.signals.length = s.est.signals.length
  rest : t = { s with est.sections := t.est.sections, est.points := t.est.points, est.signals := t.est.signals }

theorem lockRoute_locked (s : State) (i : Nat) (d : RouteDef) : RouteLocked s i d (s.lockRoute i d) := by
  obtain ⟨a1, a2, a3, a4⟩ := each_lockSec s i .path d.path
  have he : s.lockRoute i d = ((((s.each d.path fun t k => t.lockSec k (.slot i) (some .path)).each d.overlapSecs
      fun t k => t.lockSec k (.slot i) (some .overlap)).each d.pathPos fun t q => t.lockPt q.1 (.slot i) (some .path) q.2).each
      d.overlapPoints fun t q => t.lockPt q.1 (.slot i) (some .overlap) q.2).lockSig d.entry i := by
    rw [RouteDef.pathPos, each_map]; rfl
  rw [he]
  generalize s.each d.path (fun t k => t.lockSec k (.slot i) (some .path)) = t1 at a1 a2 a3 a4
  obtain ⟨b1, b2, b3, b4⟩ := each_lockSec t1 i .overlap d.overlapSecs
  generalize t1.each d.overlapSecs (fun t k => t.lockSec k (.slot i) (some .overlap)) = t2 at b1 b2 b3 b4
  obtain ⟨c1, c2, c3, c4⟩ := each_lockPt t2 i .path d.pathPos
  generalize t2.each d.pathPos (fun t q => t.lockPt q.1 (.slot i) (some .path) q.2) = t3 at c1 c2 c3 c4
  obtain ⟨e1, e2, e3, e4⟩ := each_lockPt t3 i .overlap d.overlapPoints
  generalize t3.each d.overlapPoints (fun t q => t.lockPt q.1 (.slot i) (some .overlap) q.2) = t4 at e1 e2 e3 e4
  have hsec : ∀ k, (t4.lockSig d.entry i).sec k = t2.sec k := fun k => by
    show t4.sec k = _
    rw [show t4.sec k = t3.sec k by rw [e4]; rfl, show t3.sec k = t2.sec k by rw [c4]; rfl]
  have hpt : ∀ k, t2.pt k = s.pt k := fun k => by
    rw [show t2.pt k = t1.pt k by rw [b4]; rfl, show t1.pt k = s.pt k by rw [a4]; rfl]
  have hpl : t2.est.points.length = s.est.points.length := by rw [b4, a4]
  have hsig : ∀ k, t4.sig k = s.sig k := fun k => by rw [e4, c4, b4, a4]; rfl
  have hgl : t4.est.signals.length = s.est.signals.length := by rw [e4, c4, b4, a4]
  have hpoints : d.points = d.pathPos ++ d.overlapPoints := rfl
  rw [a3] at b1 b2 b3
  rw [c3] at e1 e2 e3
  rw [hpl] at c1 c2 c3 e1 e2 e3
  exact {
    secOverlap := fun k hk hl => by
      rw [hsec, b1 k hk hl]
      by_cases hp : k ∈ d.path
      · rw [a1 k hp hl]; rfl
      · rw [a2 k fun h => hp h.1]
    secPath := fun k hk hno hl => by rw [hsec, b2 k fun h => hno h.1, a1 k hk hl]
    secKept := fun k hk => by
      rw [hsec, b2 k fun h => hk ⟨List.mem_append_right _ h.1, h.2⟩, a2 k fun h => hk ⟨List.mem_append_left _ h.1, h.2⟩]
    pt := fun k hk hl => by
      by_cases ho : k ∈ d.overlapPoints.map Prod.fst
      · obtain ⟨q, hq, hqk, h⟩ := e1 k ho hl
        refine ⟨q, hpoints ▸ List.mem_append_right _ hq, hqk, ?_⟩
        rw [if_pos (List.contains_iff_mem.2 ho)]
        refine h.trans ?_
        by_cases hp : k ∈ d.pathPos.map Prod.fst
        · obtain ⟨q', -, -, h'⟩ := c1 k hp hl
          rw [h', hpt]; rfl
        · rw [c2 k fun h => hp h.1, hpt]
      · rw [hpoints, List.map_append, List.mem_append] at hk
        obtain ⟨q, hq, hqk, h⟩ := c1 k (hk.resolve_right ho) hl
        refine ⟨q, hpoints ▸ List.mem_append_left _ hq, hqk, ?_⟩
        rw [if_neg (mt List.contains_iff_mem.1 ho)]
        exact (e2 k fun h => ho h.1).trans (h.trans (by rw [hpt]))
    ptKept := fun k hk => by
      rw [hpoints, List.map_append, List.mem_append] at hk
      exact (e2 k fun h => hk ⟨.inr h.1, h.2⟩).trans ((c2 k fun h => hk ⟨.inl h.1, h.2⟩).trans (hpt k))
    sig := fun k => by
      rw [State.lockSig, State.modSig_sig_at, hgl, hsig]
      simp only [eq_comm]
    sections := by
      rw [State.lockSig, State.modSig_sections, e4, c4]
      exact b3
    points := e3
    signals := (List.length_modify _ _ _).trans hgl
    rest := by
      have h : t4 = { s with est.sections := t4.est.sections, est.points := t4.est.points } := by rw [e4, c4, b4, a4]
      rw [State.lockSig, State.modSig, h] }

/-! #### Claims -/

def SectionRec.more (r : SectionRec) (n : Nat) : SectionRec := { r with claims := r.claims + n }
def SignalRec.more (r : SignalRec) (n : Nat) : SignalRec := { r with holds := r.holds + n }

/-- The counts have gained the entries of a list (R36, R37). -/
structure CountsPlaced (s : State) (cs : List ClaimOn) (t : State) : Prop where
  sec : ∀ k, t.sec k = if k < s.est.sections.length then (s.sec k).more (countOn cs ⟨.sect, k⟩) else s.sec k
  sig : ∀ k, t.sig k = if k < s.est.signals.length then (s.sig k).more (countOn cs ⟨.signal, k⟩) else s.sig k
  pt : ∀ k, k < s.est.points.length → ∀ x, (∀ y, ClaimOn.point k y ∈ cs → y = x) → t.pt k = { s.pt k with
    claimPos := if countOn cs ⟨.point, k⟩ ≠ 0 ∧ (s.pt k).claims = 0 then some x else (s.pt k).claimPos
    claims := (s.pt k).claims + countOn cs ⟨.point, k⟩ }
  ptFrame : ∀ k, k < s.est.points.length →
    t.pt k = { s.pt k with claimPos := (t.pt k).claimPos, claims := (s.pt k).claims + countOn cs ⟨.point, k⟩ }
  ptOut : ∀ k, ¬k < s.est.points.length → t.pt k = s.pt k
  sections : t.est.sections.length = s.est.sections.length
  points : t.est.points.length = s.est.points.length
  signals : t.est.signals.length = s.est.signals.length
  rest : t = { s with est.sections := t.est.sections, est.points := t.est.points, est.signals := t.est.signals }

theorem addCount_placed (s : State) (c : ClaimOn) : CountsPlaced s [c] (s.addCount c) := by
  cases c with
  | point j y =>
    have hpt : ∀ k, (s.addCount (.point j y)).pt k = if j = k ∧ k < s.est.points.length then
        { s.pt k with claimPos := if (s.pt k).claims = 0 then some y else (s.pt k).claimPos, claims := (s.pt k).claims + 1 }
      else s.pt k := fun k => State.modPt_pt_at _ _ _ _
    exact {
      sec := fun k => by simp [State.addCount, SectionRec.more, countOn, ClaimOn.elem?]
      sig := fun k => by simp [State.addCount, SignalRec.more, countOn, ClaimOn.elem?]
      pt := fun k hk x hx => by
        rw [hpt, countOn_singleton]
        by_cases hj : j = k
        · subst hj
          rw [if_pos ⟨rfl, hk⟩, hx y List.mem_cons_self]
          simp [ClaimOn.elem?]
        · simp [hj, ClaimOn.elem?]
      ptFrame := fun k hk => by
        rw [hpt, countOn_singleton]
        by_cases hj : j = k
        · subst hj
          simp [ClaimOn.elem?, hk]
        · simp [hj, ClaimOn.elem?]
      ptOut := fun k hk => by rw [hpt, if_neg fun h => hk h.2]
      sections := rfl
      points := List.length_modify _ _ _
      signals := rfl
      rest := rfl }
  | signal j =>
    exact {
      sec := fun k => by simp [State.addCount, SectionRec.more, countOn, ClaimOn.elem?]
      sig := fun k => by
        rw [State.addCount, State.modSig_sig_at, countOn_singleton]
        by_cases hj : j = k <;> simp [hj, ClaimOn.elem?, SignalRec.more]
      pt := fun k hk x hx => by simp [State.addCount, countOn, ClaimOn.elem?]
      ptFrame := fun k hk => by simp [State.addCount, countOn, ClaimOn.elem?]
      ptOut := fun k hk => rfl
      sections := rfl
      points := rfl
      signals := List.length_modify _ _ _
      rest := rfl }
  | sect j =>
    exact {
      sec := fun k => by
        rw [State.addCount, State.modSec_sec_at, countOn_singleton]
        by_cases hj : j = k <;> simp [hj, ClaimOn.elem?, SectionRec.more]
      sig := fun k => by simp [State.addCount, SignalRec.more, countOn, ClaimOn.elem?]
      pt := fun k hk x hx => by simp [State.addCount, countOn, ClaimOn.elem?]
      ptFrame := fun k hk => by simp [State.addCount, countOn, ClaimOn.elem?]
      ptOut := fun k hk => rfl
      sections := List.length_modify _ _ _
      points := rfl
      signals := rfl
      rest := rfl }
  | port j =>
    exact {
      sec := fun k => by simp [State.addCount, SectionRec.more, countOn, ClaimOn.elem?]
      sig := fun k => by simp [State.addCount, SignalRec.more, countOn, ClaimOn.elem?]
      pt := fun k hk x hx => by simp [State.addCount, countOn, ClaimOn.elem?]
      ptFrame := fun k hk => by simp [State.addCount, countOn, ClaimOn.elem?]
      ptOut := fun k hk => rfl
      sections := rfl
      points := rfl
      signals := rfl
      rest := rfl }

theorem CountsPlaced.trans {s t u : State} {cs ds : List ClaimOn} (h : CountsPlaced s cs t) (k : CountsPlaced t ds u) :
    CountsPlaced s (cs ++ ds) u where
  sec j := by
    rw [k.sec, h.sec, h.sections, countOn_append]
    split
    · simp only [SectionRec.more, Nat.add_assoc]
    · rfl
  sig j := by
    rw [k.sig, h.sig, h.signals, countOn_append]
    split
    · simp only [SignalRec.more, Nat.add_assoc]
    · rfl
  pt j hj x hx := by
    rw [k.pt j (h.points.symm ▸ hj) x fun y hy => hx y (List.mem_append_right _ hy),
      h.pt j hj x fun y hy => hx y (List.mem_append_left _ hy), countOn_append]
    simp only [PointRec.mk.injEq, true_and, and_true, Nat.add_assoc]
    by_cases h1 : countOn cs ⟨.point, j⟩ = 0
    · simp [h1]
    · simp [h1]
  ptFrame j hj := by
    rw [k.ptFrame j (h.points.symm ▸ hj), h.ptFrame j hj, countOn_append, Nat.add_assoc]
  ptOut j hj := by rw [k.ptOut j (h.points.symm ▸ hj), h.ptOut j hj]
  sections := k.sections.trans h.sections
  points := k.points.trans h.points
  signals := k.signals.trans h.signals
  rest := by rw [k.rest, h.rest]

theorem countsPlaced_nil (s : State) : CountsPlaced s [] s where
  sec k := by simp [SectionRec.more, countOn]
  sig k := by simp [SignalRec.more, countOn]
  pt k _ x _ := by simp [countOn]
  ptFrame k _ := rfl
  ptOut _ _ := rfl
  sections := rfl
  points := rfl
  signals := rfl
  rest := rfl

theorem placeCounts_placed (s : State) (cs : List Claim) : CountsPlaced s (cs.map Claim.what) (s.placeCounts cs) := by
  unfold State.placeCounts
  induction cs generalizing s with
  | nil => exact countsPlaced_nil s
  | cons c cs ih => exact (addCount_placed s c.what).trans (ih (s.addCount c.what))

/-! #### Movements -/

/-- A point record once a movement to `x` has begun, where it lay in the other position (R30, R96). -/
def PointRec.movedTo (r : PointRec) (ms : Nat) (x : Pos) : PointRec :=
  if r.pos = x.other.rest then { r with pos := .moving, commanded := some x, throwMs := some ms } else r

theorem PointRec.movedTo_movedTo (r : PointRec) (ms : Nat) (x y : Pos) : (r.movedTo ms x).movedTo ms y = 
    if r.pos = x.other.rest then r.movedTo ms x else r.movedTo ms y := by
  by_cases h : r.pos = x.other.rest
  · have hm : (r.movedTo ms x).pos = .moving := by rw [movedTo, if_pos h]
    rw [if_pos h]
    exact if_neg fun e => Pos.rest_ne_moving y.other (e.symm.trans hm)
  · rw [if_neg h, show r.movedTo ms x = r from if_neg h]

theorem PointRec.movedTo_frame (r : PointRec) (ms : Nat) (x : Pos) : r.movedTo ms x =
    { r with pos := (r.movedTo ms x).pos, commanded := (r.movedTo ms x).commanded, throwMs := (r.movedTo ms x).throwMs } := by
  unfold movedTo
  split <;> rfl

/-- Points are brought to the positions of a list (R65, R96). -/
structure PointsMoved (s : State) (l : List (Nat × Pos)) (t : State) : Prop where
  moved : ∀ k x, (∃ q ∈ l, q.1 = k) → (∀ q ∈ l, q.1 = k → q.2 = x) → t.pt k = (s.pt k).movedTo (s.throwLimit * 1000) x
  kept : ∀ k, (∀ q ∈ l, q.1 ≠ k) → t.pt k = s.pt k
  frame : ∀ k, t.pt k = { s.pt k with pos := (t.pt k).pos, commanded := (t.pt k).commanded, throwMs := (t.pt k).throwMs }
  points : t.est.points.length = s.est.points.length
  rest : t = { s with est.points := t.est.points }

theorem moveIfOther_pt (s : State) (i : Nat) (x : Pos) (k : Nat) : (s.moveIfOther i x).pt k =
    if i = k then (s.pt k).movedTo (s.throwLimit * 1000) x else s.pt k := by
  unfold State.moveIfOther
  by_cases h : (s.pt i).pos = x.other.rest
  · have hi : i < s.est.points.length := by
      by_contra hi
      rw [State.pt, List.getD_eq_default _ _ (not_lt.1 hi)] at h
      exact Pos.rest_ne_lost _ h.symm
    rw [if_pos h, State.beginMove]
    simp only [State.modPt_pt_at]
    by_cases hk : i = k
    · subst hk
      rw [if_pos ⟨rfl, hi⟩, if_pos rfl, PointRec.movedTo, if_pos h]
    · rw [if_neg fun e => hk e.1, if_neg hk]
  · rw [if_neg h]
    by_cases hk : i = k
    · subst hk
      rw [if_pos rfl, PointRec.movedTo, if_neg h]
    · rw [if_neg hk]

theorem moveIfOther_rest (s : State) (i : Nat) (x : Pos) :
    s.moveIfOther i x = { s with est.points := (s.moveIfOther i x).est.points }
      ∧ (s.moveIfOther i x).est.points.length = s.est.points.length := by
  unfold State.moveIfOther
  split
  · exact ⟨rfl, List.length_modify _ _ _⟩
  · exact ⟨rfl, rfl⟩

theorem each_moveIfOther (s : State) (l : List (Nat × Pos)) : PointsMoved s l (s.each l fun t q => t.moveIfOther q.1 q.2) := by
  induction l generalizing s with
  | nil => exact ⟨fun _ _ ⟨_, h, _⟩ => absurd h List.not_mem_nil, fun _ _ => rfl, fun _ => rfl, rfl, rfl⟩
  | cons q l ih =>
    have h := ih (s.moveIfOther q.1 q.2)
    have h1 := moveIfOther_pt s q.1 q.2
    obtain ⟨hr, hl⟩ := moveIfOther_rest s q.1 q.2
    have hlim : (s.moveIfOther q.1 q.2).throwLimit = s.throwLimit := by rw [hr]; rfl
    show PointsMoved s (q :: l) ((s.moveIfOther q.1 q.2).each l fun t q => t.moveIfOther q.1 q.2)
    generalize (s.moveIfOther q.1 q.2).each l (fun t q => t.moveIfOther q.1 q.2) = t at h
    exact {
      moved := fun k x hk hx => by
        by_cases hq : q.1 = k
        · have hqx := hx q List.mem_cons_self hq
          have hu : (s.moveIfOther q.1 q.2).pt k = (s.pt k).movedTo (s.throwLimit * 1000) x := by rw [h1, if_pos hq, hqx]
          by_cases hl : ∃ p ∈ l, p.1 = k
          · rw [h.moved k x hl fun p hp => hx p (List.mem_cons_of_mem _ hp), hlim, hu, PointRec.movedTo_movedTo, ite_self]
          · rw [h.kept k fun p hp e => hl ⟨p, hp, e⟩, hu]
        · obtain ⟨p, hp, hpk⟩ := hk
          have hp' : p ∈ l := (List.mem_cons.1 hp).resolve_left fun e => hq (e ▸ hpk)
          rw [h.moved k x ⟨p, hp', hpk⟩ fun p hp => hx p (List.mem_cons_of_mem _ hp), hlim, h1, if_neg hq]
      kept := fun k hk => by
        rw [h.kept k fun p hp => hk p (List.mem_cons_of_mem _ hp), h1, if_neg (hk q List.mem_cons_self)]
      frame := fun k => by
        rw [h.frame k, h1]
        split
        · rw [PointRec.movedTo_frame]
        · rfl
      points := h.points.trans hl
      rest := by rw [h.rest, hr] }

theorem mem_claimedPoints {cs : List Claim} {q : Nat × Pos} : q ∈ claimedPoints cs ↔ ∃ c ∈ cs, c.what = .point q.1 q.2 := by
  rw [claimedPoints, List.mem_filterMap]
  refine exists_congr fun c => and_congr_right fun _ => ?_
  obtain ⟨k, x⟩ := q
  cases c.what <;> simp

theorem beginClaimMoves_eq (s : State) (cs : List Claim) :
    s.beginClaimMoves cs = s.each (claimedPoints cs) fun t q => t.moveIfOther q.1 q.2 := by
  unfold State.beginClaimMoves
  induction cs generalizing s with
  | nil => rfl
  | cons c cs ih =>
    obtain ⟨w, prot, lost, been⟩ := c
    cases w with
    | point i p => exact ih (s.moveIfOther i p)
    | _ => exact ih s

end Sys2Proof.Machine

/-! ### The requests an acceptance posts (R65, R97, R154, R163) -/

namespace Sys2Proof.Machine

/-- The asks that a list of requests makes on link `l`, in order. -/
def asksOn (ps : List (RemoteWhat × Nat)) (l : Nat) : List Ask :=
  ps.filterMap fun x => match x.1 with
    | .ask a => if x.2 = l then some a else none
    | .acceptance _ => none

/-- Slot `i` has posted the requests `ps`: its list holds `new` besides, each with its tag. -/
structure Posted (s : State) (i : Nat) (ps : List (RemoteWhat × Nat)) (new : List RemoteReq) (t : State) : Prop where
  named : new.map (fun r => (r.what, r.link)) = ps
  pending : ∀ r ∈ new, r.status = .pending
  slot : t.slot i = { s.slot i with remote := (s.slot i).remote ++ new }
  slots : ∀ j, j ≠ i → t.slot j = s.slot j
  link : ∀ l, t.link l = { s.link l with outgoing := (t.link l).outgoing, nextTag := (t.link l).nextTag }
  outgoing : ∀ l, l < s.bdu.links.length → ∃ added, (t.link l).outgoing = (s.link l).outgoing ++ added
    ∧ added.map (fun o => (o.ask, o.slot)) = (asksOn ps l).map fun a => (a, i)
  out : ∀ l, ¬l < s.bdu.links.length → t.link l = s.link l
  stands : ∀ r ∈ new, ∀ a, r.what = .ask a → r.link < s.bdu.links.length → OutReq.mk r.tag a i ∈ (t.link r.link).outgoing
  port : ∀ p, (∀ x ∈ ps, x.1 ≠ .acceptance p) → t.port p = s.port p
  accepts : ∀ p, p < s.bdu.ports.length → (∃ x ∈ ps, x.1 = .acceptance p) → ∃ r ∈ new, r.what = .acceptance p
    ∧ t.port p = { s.port p with outAcc := some (r.tag, i) }
  slotsLength : t.rsu.slots.length = s.rsu.slots.length
  links : t.bdu.links.length = s.bdu.links.length
  ports : t.bdu.ports.length = s.bdu.ports.length
  rest : t = { s with rsu.slots := t.rsu.slots, bdu := t.bdu }

theorem posted_nil (s : State) (i : Nat) : Posted s i [] [] s where
  named := rfl
  pending _ h := absurd h List.not_mem_nil
  slot := by rw [List.append_nil]
  slots _ _ := rfl
  link _ := rfl
  outgoing l _ := ⟨[], (List.append_nil _).symm, rfl⟩
  out _ _ := rfl
  stands _ h := absurd h List.not_mem_nil
  port _ _ := rfl
  accepts _ _ h := absurd h (by simp)
  slotsLength := rfl
  links := rfl
  ports := rfl
  rest := rfl

theorem Posted.trans {s t u : State} {i : Nat} {ps qs : List (RemoteWhat × Nat)} {new more : List RemoteReq} (h : Posted s i ps new t)
    (k : Posted t i qs more u) : Posted s i (ps ++ qs) (new ++ more) u where
  named := by rw [List.map_append, h.named, k.named]
  pending r hr := (List.mem_append.1 hr).elim (h.pending r) (k.pending r)
  slot := by rw [k.slot, h.slot, List.append_assoc]
  slots j hj := (k.slots j hj).trans (h.slots j hj)
  link l := by rw [k.link l, h.link l]
  outgoing l hl := by
    obtain ⟨a, ha, ha'⟩ := h.outgoing l hl
    obtain ⟨b, hb, hb'⟩ := k.outgoing l (h.links.symm ▸ hl)
    exact ⟨a ++ b, by rw [hb, ha, List.append_assoc], by rw [List.map_append, ha', hb', asksOn, asksOn, asksOn, List.filterMap_append,
      List.map_append]⟩
  out l hl := (k.out l (h.links.symm ▸ hl)).trans (h.out l hl)
  stands r hr a ha hl := by
    rcases List.mem_append.1 hr with hr | hr
    · obtain ⟨b, hb, -⟩ := k.outgoing r.link (h.links.symm ▸ hl)
      rw [hb]
      exact List.mem_append_left _ (h.stands r hr a ha hl)
    · exact k.stands r hr a ha (h.links.symm ▸ hl)
  port p hp := (k.port p fun x hx => hp x (List.mem_append_right _ hx)).trans (h.port p fun x hx => hp x (List.mem_append_left _ hx))
  accepts p hp hx := by
    by_cases hq : ∃ x ∈ qs, x.1 = .acceptance p
    · obtain ⟨r, hr, hw, he⟩ := k.accepts p (h.ports.symm ▸ hp) hq
      refine ⟨r, List.mem_append_right _ hr, hw, he.trans ?_⟩
      by_cases hps : ∃ x ∈ ps, x.1 = .acceptance p
      · obtain ⟨r', -, -, he'⟩ := h.accepts p hp hps
        rw [he']
      · rw [h.port p fun x hx e => hps ⟨x, hx, e⟩]
    · have hps : ∃ x ∈ ps, x.1 = .acceptance p := by
        obtain ⟨x, hx, e⟩ := hx
        exact ⟨x, (List.mem_append.1 hx).resolve_right fun hx => hq ⟨x, hx, e⟩, e⟩
      obtain ⟨r, hr, hw, he⟩ := h.accepts p hp hps
      exact ⟨r, List.mem_append_left _ hr, hw, (k.port p fun x hx e => hq ⟨x, hx, e⟩).trans he⟩
  slotsLength := k.slotsLength.trans h.slotsLength
  links := k.links.trans h.links
  ports := k.ports.trans h.ports
  rest := by rw [k.rest, h.rest]

theorem post_posted {s : State} {i : Nat} (hi : i < s.rsu.slots.length) (w : RemoteWhat) (l : Nat) :
    Posted s i [(w, l)] [⟨w, l, s.freshTag l, .pending, none⟩] (s.post i w l) := by
  have hslot : ∀ u : State, u.rsu = s.rsu → ∀ j, (u.modSlot i fun k =>
      { k with remote := k.remote ++ [⟨w, l, s.freshTag l, .pending, none⟩] }).slot j =
        if i = j then { s.slot j with remote := (s.slot j).remote ++ [⟨w, l, s.freshTag l, .pending, none⟩] } else s.slot j :=
    fun u hu j => by
      have hs : u.slot j = s.slot j := by rw [State.slot, State.slot, hu]
      rw [State.modSlot_slot_at, hu, hs]
      by_cases hj : i = j
      · rw [if_pos ⟨hj, hj ▸ hi⟩, if_pos hj]
      · rw [if_neg fun e => hj e.1, if_neg hj]
  cases w with
  | acceptance p =>
    have he : s.post i (.acceptance p) l = ((s.modLink l fun k => { k with nextTag := (s.freshTag l + 1) % 256 }).modPort p
      fun q => { q with outAcc := some (s.freshTag l, i) }).modSlot i fun k =>
        { k with remote := k.remote ++ [⟨.acceptance p, l, s.freshTag l, .pending, none⟩] } := rfl
    have hs := hslot ((s.modLink l fun k => { k with nextTag := (s.freshTag l + 1) % 256 }).modPort p
      fun q => { q with outAcc := some (s.freshTag l, i) }) rfl
    have hl : ∀ j, (s.post i (.acceptance p) l).link j =
        if l = j ∧ j < s.bdu.links.length then { s.link j with nextTag := (s.freshTag l + 1) % 256 } else s.link j :=
      fun j => State.modLink_link_at _ _ _ _
    have hp : ∀ j, (s.post i (.acceptance p) l).port j =
        if p = j ∧ j < s.bdu.ports.length then { s.port j with outAcc := some (s.freshTag l, i) } else s.port j :=
      fun j => State.modPort_port_at _ _ _ _
    rw [← he] at hs
    exact {
      named := rfl
      pending := fun r hr => by rw [List.mem_singleton.1 hr]
      slot := by rw [hs, if_pos rfl]
      slots := fun j hj => by rw [hs, if_neg hj.symm]
      link := fun j => by rw [hl]; split <;> rfl
      outgoing := fun j _ => ⟨[], by rw [hl, List.append_nil]; split <;> rfl, rfl⟩
      out := fun j hj => by rw [hl, if_neg fun e => hj e.2]
      stands := fun r hr a ha => by rw [List.mem_singleton.1 hr] at ha; cases ha
      port := fun j hj => by rw [hp, if_neg fun e => hj _ (List.mem_singleton_self _) (by rw [e.1])]
      accepts := fun j hj hx => by
        obtain ⟨x, hx, e⟩ := hx
        rw [List.mem_singleton.1 hx] at e
        obtain rfl := RemoteWhat.acceptance.inj e
        exact ⟨_, List.mem_singleton_self _, rfl, by rw [hp, if_pos ⟨rfl, hj⟩]⟩
      slotsLength := List.length_modify _ _ _
      links := List.length_modify _ _ _
      ports := List.length_modify _ _ _
      rest := rfl }
  | ask a =>
    have he : s.post i (.ask a) l = ((s.modLink l fun k => { k with nextTag := (s.freshTag l + 1) % 256 }).modLink l
      fun k => { k with outgoing := k.outgoing ++ [OutReq.mk (s.freshTag l) a i] }).modSlot i fun k =>
        { k with remote := k.remote ++ [⟨.ask a, l, s.freshTag l, .pending, none⟩] } := rfl
    have hs := hslot ((s.modLink l fun k => { k with nextTag := (s.freshTag l + 1) % 256 }).modLink l
      fun k => { k with outgoing := k.outgoing ++ [OutReq.mk (s.freshTag l) a i] }) rfl
    have hl : ∀ j, (s.post i (.ask a) l).link j = if l = j ∧ j < s.bdu.links.length then
        { s.link j with nextTag := (s.freshTag l + 1) % 256, outgoing := (s.link j).outgoing ++ [OutReq.mk (s.freshTag l) a i] }
        else s.link j := fun j => by
      rw [he, State.modSlot_link, State.modLink_link_at, State.modLink_link_at, State.modLink_links, List.length_modify]
      split <;> rfl
    rw [← he] at hs
    exact {
      named := rfl
      pending := fun r hr => by rw [List.mem_singleton.1 hr]
      slot := by rw [hs, if_pos rfl]
      slots := fun j hj => by rw [hs, if_neg hj.symm]
      link := fun j => by rw [hl]; split <;> rfl
      outgoing := fun j hj => by
        by_cases hlj : l = j
        · exact ⟨[OutReq.mk (s.freshTag l) a i], by rw [hl, if_pos ⟨hlj, hj⟩], by simp [asksOn, hlj]⟩
        · exact ⟨[], by rw [hl, if_neg fun e => hlj e.1, List.append_nil], by simp [asksOn, hlj]⟩
      out := fun j hj => by rw [hl, if_neg fun e => hj e.2]
      stands := fun r hr b hb hlt => by
        obtain rfl := List.mem_singleton.1 hr
        obtain rfl := RemoteWhat.ask.inj hb
        rw [hl, if_pos ⟨rfl, hlt⟩]
        exact List.mem_append_right _ (List.mem_singleton_self _)
      port := fun j _ => rfl
      accepts := fun j _ hx => by
        obtain ⟨x, hx, e⟩ := hx
        rw [List.mem_singleton.1 hx] at e
        cases e
      slotsLength := List.length_modify _ _ _
      links := (List.length_modify _ _ _).trans (List.length_modify _ _ _)
      ports := rfl
      rest := rfl }

theorem each_post {s : State} {i : Nat} (hi : i < s.rsu.slots.length) (ps : List (RemoteWhat × Nat)) :
    ∃ new, Posted s i ps new (s.each ps fun t x => t.post i x.1 x.2) := by
  induction ps generalizing s with
  | nil => exact ⟨[], posted_nil s i⟩
  | cons x ps ih =>
    have h := post_posted hi x.1 x.2
    obtain ⟨new, hn⟩ := ih (s := s.post i x.1 x.2) (h.slotsLength.symm ▸ hi)
    exact ⟨_, h.trans hn⟩

end Sys2Proof.Machine

/-! ### The acceptance, stage by stage (R65, R66) -/

namespace Sys2Proof.Machine

/-- The state on which an acceptance makes the test of R69: all is locked, claimed, begun and posted. -/
def State.prepared (s : State) (o : Originator) (d : RouteDef) (i : Nat) (cs : List Claim) : State :=
  let s4 := (((((s.handedOver o d i).lockRoute i d).placeCounts cs).noteMoved s (s.needOf d).absent).takenToZero (s.needOf d).absent).each
    (claimedPoints cs ++ d.points) fun t q => t.moveIfOther q.1 q.2
  ((((s4.modSlot i fun k => { k with claims := s4.placed cs }).each (s.postsOf d cs) fun t x => t.post i x.1 x.2).modSlot i fun k =>
    { k with timerMs := some (s.settingTimeout * 1000) }).refreshPending i)

theorem acceptRoute_eq (s : State) (o : Originator) (d : RouteDef) (i : Nat) (cs : List Claim) :
    s.acceptRoute o d i cs = ((s.prepared o d i cs).tryClear i).note (.slot i) := by
  have hmoves : ∀ u : State, (u.beginClaimMoves cs).each d.points (fun t q => t.moveIfOther q.1 q.2)
      = u.each (claimedPoints cs ++ d.points) fun t q => t.moveIfOther q.1 q.2 := fun u => by
    rw [beginClaimMoves_eq]; exact (List.foldl_append ..).symm
  unfold State.acceptRoute State.prepared
  simp only [hmoves]
  unfold State.handedOver
  cases s.donor d <;> rfl

/-- What an acceptance makes of `s` before the test of R69: `a` once the donor has given its overlap, `b` with all locked, `c` with the
claims counted, `m` with the movements begun, `u` with the requests `new` posted. -/
structure Prepared (s : State) (o : Originator) (d : RouteDef) (i : Nat) (cs : List Claim) (a b c m : State) (new : List RemoteReq)
    (u : State) : Prop where
  gives : HandsOver s o d i a
  locks : RouteLocked a i d b
  counts : CountsPlaced b (cs.map Claim.what) c
  moves : PointsMoved c (claimedPoints cs ++ d.points) m
  slot : u.slot i = { d.freshSlot o with
    claims := u.placed cs, remote := new, timerMs := some (s.settingTimeout * 1000), pendingPts := u.pendingOf i }
  slots : ∀ j, j ≠ i → u.slot j = a.slot j
  est : u.est = m.est
  posts : ∃ v w, v.bdu = a.bdu ∧ w.bdu = u.bdu ∧ Posted v i (s.postsOf d cs) new w
  queue : c.slu.noticeQ <+: u.slu.noticeQ
  noted : ∀ w ∈ (s.needOf d).absent, s.claimMoved c w = true → ∀ x, (w.elem? = some ⟨.sect, x⟩ → Ref.sect x ∈ u.slu.noticeQ)
    ∧ (w.elem? = some ⟨.point, x⟩ → Ref.point x ∈ u.slu.noticeQ) ∧ (w.elem? = some ⟨.signal, x⟩ → Ref.signal x ∈ u.slu.noticeQ)
  due : a.releaseDue = true ∨ (∃ w ∈ (s.needOf d).absent, w.elem? ≠ none ∧ c.claimCount w = 0) → u.releaseDue = true
  slotsLength : u.rsu.slots.length = s.rsu.slots.length
  rest : u = { s with
    est.sections := u.est.sections, est.points := u.est.points, est.signals := u.est.signals
    rsu.slots := u.rsu.slots, bdu := u.bdu, slu.noticeQ := u.slu.noticeQ, releaseDue := u.releaseDue }

theorem mem_noteClaimed (s : State) (w : ClaimOn) (x : Nat) : (w.elem? = some ⟨.sect, x⟩ → Ref.sect x ∈ (s.noteClaimed w).slu.noticeQ)
    ∧ (w.elem? = some ⟨.point, x⟩ → Ref.point x ∈ (s.noteClaimed w).slu.noticeQ)
    ∧ (w.elem? = some ⟨.signal, x⟩ → Ref.signal x ∈ (s.noteClaimed w).slu.noticeQ) := by
  have hm := mem_note s
  cases w with
  | point k y => exact ⟨fun h => (by cases h), fun h => (by cases h; exact hm _), fun h => (by cases h)⟩
  | signal k => exact ⟨fun h => (by cases h), fun h => (by cases h), fun h => (by cases h; exact hm _)⟩
  | sect k => exact ⟨fun h => (by cases h; exact hm _), fun h => (by cases h), fun h => (by cases h)⟩
  | port k => exact ⟨fun h => (by cases h), fun h => (by cases h), fun h => (by cases h)⟩

theorem each_noteClaimed (s : State) (l : List ClaimOn) : Noted s (s.each l State.noteClaimed) ∧ ∀ w ∈ l, ∀ x,
    (w.elem? = some ⟨.sect, x⟩ → Ref.sect x ∈ (s.each l State.noteClaimed).slu.noticeQ)
      ∧ (w.elem? = some ⟨.point, x⟩ → Ref.point x ∈ (s.each l State.noteClaimed).slu.noticeQ)
      ∧ (w.elem? = some ⟨.signal, x⟩ → Ref.signal x ∈ (s.each l State.noteClaimed).slu.noticeQ) := by
  induction l generalizing s with
  | nil => exact ⟨Noted.refl s, fun _ h => absurd h List.not_mem_nil⟩
  | cons w l ih =>
    obtain ⟨hn, hm⟩ := ih (s.noteClaimed w)
    refine ⟨(Freed.noteClaimed_noted s w).trans hn, fun v hv x => ?_⟩
    rcases List.mem_cons.1 hv with rfl | hv
    · obtain ⟨h1, h2, h3⟩ := mem_noteClaimed s v x
      exact ⟨fun h => hn.queue.subset (h1 h), fun h => hn.queue.subset (h2 h), fun h => hn.queue.subset (h3 h)⟩
    · exact hm v hv x

theorem elemIntact_congr {s t : State} (h : t.est = s.est) (w : ClaimOn) : t.elemIntact w = s.elemIntact w := by
  have hp : ∀ k, t.pt k = s.pt k := fun k => by rw [State.pt, State.pt, h]
  have hg : ∀ k, t.sig k = s.sig k := fun k => by rw [State.sig, State.sig, h]
  have hs : ∀ k, t.sec k = s.sec k := fun k => by rw [State.sec, State.sec, h]
  cases w <;> simp only [State.elemIntact, State.atRest, State.secClear, hp, hg, hs]

theorem placed_congr {s t : State} (h : t.est = s.est) (cs : List Claim) : t.placed cs = s.placed cs := by
  unfold State.placed
  simp only [elemIntact_congr h]

theorem PointsMoved.congr {s n t : State} {l : List (Nat × Pos)} (h : PointsMoved n l t) (he : n.est = s.est)
    (hl : n.throwLimit = s.throwLimit) : PointsMoved s l { s with est.points := t.est.points } where
  moved k x hk hx := by
    rw [← hl, ← show n.pt k = s.pt k by rw [State.pt, State.pt, he]]
    exact h.moved k x hk hx
  kept k hk := by
    rw [← show n.pt k = s.pt k by rw [State.pt, State.pt, he]]
    exact h.kept k hk
  frame k := by
    rw [← show n.pt k = s.pt k by rw [State.pt, State.pt, he]]
    exact h.frame k
  points := h.points.trans (by rw [he])
  rest := rfl

theorem prepared_stages {s : State} {o : Originator} {d : RouteDef} {i : Nat} {cs : List Claim} (hi : i < s.rsu.slots.length)
    (hfree : s.live i = false) : ∃ a b c m new, Prepared s o d i cs a b c m new (s.prepared o d i cs) := by
  have ha := handedOver_handsOver (o := o) (d := d) hi hfree
  have hb := lockRoute_locked (s.handedOver o d i) i d
  have hc := placeCounts_placed ((s.handedOver o d i).lockRoute i d) cs
  unfold State.prepared
  generalize s.handedOver o d i = a at ha hb hc ⊢
  generalize a.lockRoute i d = b at hb hc ⊢
  generalize b.placeCounts cs = c at hc ⊢
  have hn := each_noteClaimed c ((s.needOf d).absent.filter (s.claimMoved c))
  rw [State.noteMoved]
  generalize c.each ((s.needOf d).absent.filter (s.claimMoved c)) State.noteClaimed = n at hn ⊢
  obtain ⟨hn, hmem⟩ := hn
  have hz : (n.takenToZero (s.needOf d).absent) = { n with releaseDue := (n.takenToZero (s.needOf d).absent).releaseDue } := by
    unfold State.takenToZero
    split <;> rfl
  have hzd : n.releaseDue = true ∨ (∃ w ∈ (s.needOf d).absent, w.elem? ≠ none ∧ n.claimCount w = 0) →
      (n.takenToZero (s.needOf d).absent).releaseDue = true := by
    unfold State.takenToZero
    rintro (h | ⟨w, hw, he, h0⟩)
    · split
      · rfl
      · exact h
    · rw [if_pos]
      · rfl
      · exact List.any_eq_true.2 ⟨w, hw, by simp [h0, Option.isSome_iff_ne_none, he]⟩
  generalize n.takenToZero (s.needOf d).absent = z at hz hzd ⊢
  have hm := each_moveIfOther z (claimedPoints cs ++ d.points)
  generalize z.each (claimedPoints cs ++ d.points) (fun t q => t.moveIfOther q.1 q.2) = m at hm ⊢
  have hzest : z.est = c.est := by rw [hz, hn.est]
  have hslot : m.slot i = d.freshSlot o := by
    rw [← ha.slot, hm.rest, hz, hn.eq, hc.rest, hb.rest]; rfl
  have hil : i < (m.modSlot i fun k => { k with claims := m.placed cs }).rsu.slots.length := by
    rw [State.modSlot_slots, List.length_modify, hm.rest, hz, hn.eq, hc.rest, hb.rest]
    exact ha.slotsLength.symm ▸ hi
  obtain ⟨new, hp⟩ := each_post (s := m.modSlot i fun k => { k with claims := m.placed cs }) (i := i) hil (s.postsOf d cs)
  show ∃ a b c m' new, Prepared s o d i cs a b c m' new
    ((((m.modSlot i fun k => { k with claims := m.placed cs }).each (s.postsOf d cs) fun t x => t.post i x.1 x.2).modSlot i fun k =>
      { k with timerMs := some (s.settingTimeout * 1000) }).refreshPending i)
  generalize (m.modSlot i fun k => { k with claims := m.placed cs }).each (s.postsOf d cs) (fun t x => t.post i x.1 x.2) = p at hp ⊢
  have hpl : i < (p.modSlot i fun k => { k with timerMs := some (s.settingTimeout * 1000) }).rsu.slots.length := by
    rw [State.modSlot_slots, List.length_modify]
    exact hp.slotsLength.symm ▸ hil
  have hpend := pendingOf_modSlot (p.modSlot i fun k => { k with timerMs := some (s.settingTimeout * 1000) }) i i
    (f := fun k => { k with pendingPts := (p.modSlot i fun k => { k with timerMs := some (s.settingTimeout * 1000) }).pendingOf i })
    (fun _ => rfl) fun _ => rfl
  change ((p.modSlot i fun k => { k with timerMs := some (s.settingTimeout * 1000) }).refreshPending i).pendingOf i = _ at hpend
  have hmrest : m = { z with est.points := m.est.points } := hm.rest
  have hslots : ∀ j, j ≠ i → ((p.modSlot i fun k => { k with timerMs := some (s.settingTimeout * 1000) }).refreshPending i).slot j
      = a.slot j := fun j hj => by
    have hne : ∀ u : State, ∀ f, (u.modSlot i f).slot j = u.slot j := fun u f => by
      rw [State.modSlot_slot_at, if_neg fun e => hj e.1.symm]
    rw [State.refreshPending, hne, hne, hp.slots j hj, hne, hmrest, hz, hn.eq, hc.rest, hb.rest]; rfl
  have hest : ((p.modSlot i fun k => { k with timerMs := some (s.settingTimeout * 1000) }).refreshPending i).est = m.est := by
    show p.est = _
    rw [hp.rest]; rfl
  have hslotu : ((p.modSlot i fun k => { k with timerMs := some (s.settingTimeout * 1000) }).refreshPending i).slot i =
      { d.freshSlot o with claims := m.placed cs, remote := new, timerMs := some (s.settingTimeout * 1000)
                           pendingPts := (p.modSlot i fun k => { k with timerMs := some (s.settingTimeout * 1000) }).pendingOf i } := by
    rw [State.refreshPending, State.modSlot_slot_at, if_pos ⟨rfl, hpl⟩, State.modSlot_slot_at, if_pos ⟨rfl, hp.slotsLength.symm ▸ hil⟩,
      hp.slot, State.modSlot_slot_at, if_pos ⟨rfl, by rwa [State.modSlot_slots, List.length_modify] at hil⟩, hslot]
    rfl
  have hqueue : ((p.modSlot i fun k => { k with timerMs := some (s.settingTimeout * 1000) }).refreshPending i).slu.noticeQ
      = n.slu.noticeQ := by
    show p.slu.noticeQ = _
    rw [hp.rest]
    show m.slu.noticeQ = _
    rw [hm.rest, hz]
  have hdue : ((p.modSlot i fun k => { k with timerMs := some (s.settingTimeout * 1000) }).refreshPending i).releaseDue
      = z.releaseDue := by
    show p.releaseDue = _
    rw [hp.rest]
    show m.releaseDue = _
    rw [hm.rest]
  have hcn : ∀ w, n.claimCount w = c.claimCount w := fun w => by
    cases w <;> simp only [State.claimCount, State.pt, State.sec, State.sig, hn.est]
  refine ⟨a, b, c, { c with est.points := m.est.points }, new, ?_⟩
  exact {
    gives := ha
    locks := hb
    counts := hc
    moves := hm.congr hzest (by rw [hz, hn.eq]; rfl)
    slot := by rw [hslotu, placed_congr hest, hpend]
    slots := hslots
    est := by
      rw [hest, hm.rest, ← hzest]
    posts := ⟨_, p, by rw [hm.rest, hz, hn.eq, hc.rest, hb.rest]; rfl, rfl, hp⟩
    queue := by rw [hqueue]; exact hn.queue
    noted := fun w hw hcm => by
      rw [hqueue]
      exact hmem w (List.mem_filter.2 ⟨hw, hcm⟩)
    due := fun h => by
      rw [hdue]
      refine hzd (h.imp (fun h => ?_) fun ⟨w, hw, he, h0⟩ => ⟨w, hw, he, (hcn w).trans h0⟩)
      rw [hn.eq, hc.rest, hb.rest]
      exact h
    slotsLength := by
      rw [State.refreshPending, State.modSlot_slots, List.length_modify, State.modSlot_slots, List.length_modify, hp.slotsLength,
        State.modSlot_slots, List.length_modify, hm.rest, hz, hn.eq, hc.rest, hb.rest]
      exact ha.slotsLength
    rest := by
      have h : p = { s with
          est.sections := p.est.sections, est.points := p.est.points, est.signals := p.est.signals
          rsu.slots := p.rsu.slots, bdu := p.bdu, slu.noticeQ := p.slu.noticeQ, releaseDue := p.releaseDue } := by
        rw [hp.rest, State.modSlot, hm.rest, hz, hn.eq, hc.rest, hb.rest, ha.rest]
      rw [State.refreshPending, State.modSlot, State.modSlot, h] }

end Sys2Proof.Machine

/-! ### What the checks of a route request guarantee (R59 to R62) -/

namespace Sys2Proof.Machine

/-- The eight checks pass for route `d`, with slot `i` and the claims `cs`. -/
structure Admitted (s : State) (d : RouteDef) (i : Nat) (cs : List Claim) : Prop where
  operational : s.operational = true
  slot : i < s.rsu.slots.length
  free : s.live i = false
  lowest : ∀ j, j < i → s.live j = true
  secs : ∀ k ∈ d.sections, (s.sec k).occ = .clear ∧ ((s.sec k).owner ≠ none → s.absentLock d (s.sec k).owner (s.sec k).kind)
    ∧ (s.sec k).claims - countOn (s.needOf d).absent ⟨.sect, k⟩ = 0
  pts : ∀ q ∈ d.points, (s.pt q.1).pos ≠ .moving ∧ ((s.pt q.1).owner ≠ none → s.absentLock d (s.pt q.1).owner (s.pt q.1).kind)
    ∧ ((s.pt q.1).claims - countOn (s.needOf d).absent ⟨.point, q.1⟩ ≠ 0 → (s.pt q.1).claimPos ≠ some q.2.other)
  entry : (s.sig d.entry).owner = none ∧ (s.sig d.entry).holds = 0
  port : d.kind = .exit → (s.port d.exit).view = .out
  fits : ListFits s (s.needOf d) cs

theorem check8_found {s : State} {d : RouteDef} {i : Nat} {cs : List Claim} (h : s.check8 d = .accepted i cs) :
    s.freeSlot = some i ∧ s.takenOf (s.needOf d) d = none ∧ s.searchAll (s.needOf d) d.protPoints [] = .success cs := by
  unfold State.check8 at h
  cases hs : s.freeSlot with
  | none => simp [hs] at h
  | some m =>
    simp only [hs] at h
    cases ht : s.takenOf (s.needOf d) d with
    | some e => simp [ht] at h
    | none =>
      simp only [ht] at h
      cases hf : s.searchAll (s.needOf d) d.protPoints [] with
      | limit => simp [hf] at h
      | conflict p => simp [hf] at h
      | success list =>
        simp only [hf] at h
        split at h
        · obtain ⟨rfl, rfl⟩ := Verdict8.accepted.inj h
          exact ⟨rfl, rfl, rfl⟩
        · cases h

theorem routeChecks_found {s : State} {o : Originator} {route i : Nat} {retry : Bool} {cs : List Claim} {d : RouteDef}
    (h : s.routeChecks o route retry = .accepted i cs) (hd : s.routeDef? route = some d) :
    s.portUsable d = true ∧ s.check8 d = .accepted i cs := by
  obtain ⟨-, -, hc⟩ := routeChecks_cases s o route retry
  obtain ⟨c1, c2⟩ := hc d (routeChecks_operational h) hd
  have hh : s.holds o (s.sigDef d.entry).area = true := by_contra fun hn => by rw [c1 hn] at h; cases h
  obtain ⟨c3, c4⟩ := c2 hh
  have hu : s.duplicate route retry = false := Bool.eq_false_iff.2 fun hn => by rw [c3 hn] at h; cases h
  obtain ⟨c5, c6⟩ := c4 hu
  have hb : s.blockedBy d = none := Option.eq_none_iff_forall_ne_some.2 fun e he => by rw [c5 e he] at h; cases h
  obtain ⟨c7, c8⟩ := c6 hb
  have hf : s.faultyOf d = none := Option.eq_none_iff_forall_ne_some.2 fun e he => by rw [c7 e he] at h; cases h
  obtain ⟨c9, c10⟩ := c8 hf
  have hp : s.portUsable d = true := Bool.not_eq_false _ ▸ fun hn => by rw [c9 hn] at h; cases h
  exact ⟨hp, (c10 hp).symm.trans h⟩

theorem routeChecks_admitted {s : State} {o : Originator} {route i : Nat} {retry : Bool} {cs : List Claim} {d : RouteDef}
    (h : s.routeChecks o route retry = .accepted i cs) (hd : s.routeDef? route = some d) : Admitted s d i cs := by
  obtain ⟨hp, h8⟩ := routeChecks_found h hd
  obtain ⟨hf, ht, hs⟩ := check8_found h8
  obtain ⟨h1, h2, h3⟩ := freeSlot_some hf
  have hg : ((s.sig d.entry).owner.isSome || decide ((s.sig d.entry).holds ≠ 0)) = true ↔
      (s.sig d.entry).owner ≠ none ∨ (s.sig d.entry).holds ≠ 0 := by
    rw [Bool.or_eq_true, Option.isSome_iff_ne_none, decide_eq_true_eq]
  obtain ⟨k1, k2, k3⟩ := (firstFailing_firstElement (d := d) (fun _ => sectionTaken_iff) (fun _ => pointTaken_iff) hg).none.1 ht
  exact {
    operational := routeChecks_operational h
    slot := h1
    free := h2
    lowest := h3
    secs := fun k hk => by
      have := k1 k hk
      tauto
    pts := fun q hq => by
      have := k2 q hq
      tauto
    entry := by tauto
    port := fun hx => (portUsable_iff.1 hp hx).1
    fits := searchAll_fits _ (listFits_nil _ _) hs }

end Sys2Proof.Machine

/-! ### The state an acceptance ends in (R65, R69) -/

namespace Sys2Proof.Machine

/-- The slot's route is `d` (R65). -/
theorem slotRoute_eq {s : State} {i : Nat} {d : RouteDef} (hr : (s.slot i).route = some d.number) (hd : s.routeDef? d.number = some d) :
    s.slotRoute i = d := by
  rw [State.slotRoute, hr]
  simp [hd]

theorem number_of_routeDef {s : State} {route : Nat} {d : RouteDef} (hd : s.routeDef? route = some d) : d.number = route := by
  simpa using List.find?_some hd

/-- The aspect `d` clears to (R69). -/
def RouteDef.clears (d : RouteDef) : Aspect := if d.kind = .shunt then .restricted else .proceed

theorem clearAspect_kind (d : RouteDef) : clearAspect (some d.kind) = d.clears := by
  unfold clearAspect RouteDef.clears
  cases d.kind <;> rfl

/-- The test of R69 has been made on `u` for slot `i`, and `b` is what comes of it. -/
structure Tested (u : State) (d : RouteDef) (i : Nat) (b : State) : Prop where
  secs : b.est.sections = u.est.sections
  pts : b.est.points = u.est.points
  sig : ∀ k, b.sig k = if u.clearTest i = true ∧ k = d.entry ∧ k < u.est.signals.length then
    { u.sig k with commanded := d.clears } else u.sig k
  slot : b.slot i = if u.clearTest i = true then { u.slot i with figures := some (u.figuresOf d), state := .clearing } else u.slot i
  slots : ∀ j, j ≠ i → b.slot j = u.slot j
  bdu : b.bdu = u.bdu
  due : b.releaseDue = u.releaseDue
  queue : u.slu.noticeQ <+: b.slu.noticeQ
  noted : Ref.slot i ∈ b.slu.noticeQ
  signals : b.est.signals.length = u.est.signals.length
  slotsLength : b.rsu.slots.length = u.rsu.slots.length
  rest : b = { u with est.signals := b.est.signals, rsu.slots := b.rsu.slots, slu.noticeQ := b.slu.noticeQ }

theorem tested {u : State} {d : RouteDef} {i : Nat} (hi : i < u.rsu.slots.length) (hr : u.slotRoute i = d)
    (hk : (u.slot i).kind = some d.kind) : Tested u d i ((u.tryClear i).note (.slot i)) := by
  have hn := note_eq (u.tryClear i) (.slot i)
  have hm := mem_note (u.tryClear i) (.slot i)
  have hq := note_prefix (u.tryClear i) (.slot i)
  generalize (u.tryClear i).note (.slot i) = b at hn hm hq ⊢
  have hb : ∀ k, b.sig k = (u.tryClear i).sig k := fun k => by rw [hn]; rfl
  have hs : ∀ k, b.slot k = (u.tryClear i).slot k := fun k => by rw [hn]; rfl
  by_cases hc : u.clearTest i = true
  · have he : u.tryClear i = (u.modSlot i fun k => { k with figures := some (u.figuresOf d), state := .clearing }).setAspect d.entry
        d.clears := by
      rw [State.tryClear, if_pos hc, ← clearAspect_kind, ← hk, ← hr]; rfl
    rw [he] at hn hq hb hs
    exact {
      secs := by rw [hn]; rfl
      pts := by rw [hn]; rfl
      sig := fun k => by
        rw [hb, State.setAspect, State.modSig_sig_at]
        simp only [hc, true_and, State.modSlot_sig, @eq_comm _ d.entry k]
        rfl
      slot := by
        rw [hs, if_pos hc, State.setAspect, State.modSig_slot, State.modSlot_slot_at, if_pos ⟨rfl, hi⟩]
      slots := fun j hj => by
        rw [hs, State.setAspect, State.modSig_slot, State.modSlot_slot_at, if_neg fun e => hj e.1.symm]
      bdu := by rw [hn]; rfl
      due := by rw [hn]; rfl
      queue := hq
      noted := hm
      signals := by rw [hn]; exact List.length_modify _ _ _
      slotsLength := by rw [hn]; exact List.length_modify _ _ _
      rest := by rw [hn]; rfl }
  · have he : u.tryClear i = u := if_neg hc
    rw [he] at hn hq hb hs
    exact {
      secs := by rw [hn]
      pts := by rw [hn]
      sig := fun k => by rw [hb, if_neg fun e => hc e.1]
      slot := by rw [hs, if_neg hc]
      slots := fun j _ => hs j
      bdu := by rw [hn]
      due := by rw [hn]
      queue := hq
      noted := hm
      signals := by rw [hn]
      slotsLength := by rw [hn]
      rest := by rw [hn] }

/-! #### Reading the prepared state -/

/-- Entries and route points ask one position of each point (R84, R89). -/
theorem Admitted.claim_agrees {s : State} {d : RouteDef} {i : Nat} {cs : List Claim} (ad : Admitted s d i cs) {p : Nat} {x : Pos}
    (hc : ∃ c ∈ cs, c.what = .point p x) {q : Nat × Pos} (hq : q ∈ claimedPoints cs ++ d.points) (hqp : q.1 = p) : q.2 = x := by
  obtain ⟨c, hc, hw⟩ := hc
  rcases List.mem_append.1 hq with hq | hq
  · obtain ⟨c', hc', hw'⟩ := mem_claimedPoints.1 hq
    rw [hqp] at hw'
    exact (ad.fits.single c' hc' c hc p q.2 x hw' hw)
  · have hl := (ad.fits.point c hc p x hw).1
    rw [State.lockAgrees, Bool.and_eq_true, List.all_eq_true] at hl
    have hl := of_decide_eq_true (hl.2 q hq)
    exact hl.resolve_left fun h => h hqp

theorem Admitted.route_agrees {s : State} {d : RouteDef} {i : Nat} {cs : List Claim} (ad : Admitted s d i cs)
    (hn : (d.points.map Prod.fst).Nodup) {q q' : Nat × Pos} (hq : q ∈ d.points) (hq' : q' ∈ claimedPoints cs ++ d.points)
    (he : q'.1 = q.1) : q'.2 = q.2 := by
  rcases List.mem_append.1 hq' with hc | hp
  · obtain ⟨c, hc, hw⟩ := mem_claimedPoints.1 hc
    exact (ad.claim_agrees ⟨c, hc, hw⟩ (List.mem_append_right _ hq) he.symm).symm
  · exact congrArg Prod.snd (List.inj_on_of_nodup_map hn hp hq he)

namespace Prepared
variable {s : State} {o : Originator} {d : RouteDef} {i : Nat} {cs : List Claim} {a b c m u : State} {new : List RemoteReq}
  (h : Prepared s o d i cs a b c m new u)
include h

theorem sections_length : b.est.sections.length = s.est.sections.length := h.locks.sections.trans h.gives.sections
theorem points_length : b.est.points.length = s.est.points.length := h.locks.points.trans h.gives.points
theorem signals_length : b.est.signals.length = s.est.signals.length := h.locks.signals.trans h.gives.signals

theorem sec_eq (k : Nat) : u.sec k = if k < s.est.sections.length then (b.sec k).more (countOn (cs.map Claim.what) ⟨.sect, k⟩)
    else b.sec k := by
  rw [← h.sections_length, ← h.counts.sec, State.sec, State.sec, h.est, h.moves.rest]

theorem sig_eq (k : Nat) : u.sig k = if k < s.est.signals.length then (b.sig k).more (countOn (cs.map Claim.what) ⟨.signal, k⟩)
    else b.sig k := by
  rw [← h.signals_length, ← h.counts.sig, State.sig, State.sig, h.est, h.moves.rest]

theorem pt_eq (k : Nat) : u.pt k = m.pt k := by rw [State.pt, State.pt, h.est]

/-- A section of the route is locked. -/
theorem sec_route {k : Nat} (hk : k ∈ d.sections) (hl : k < s.est.sections.length) : u.sec k =
    ((a.sec k).lockedBy i (if d.overlapSecs.contains k then .overlap else .path)).more (countOn (cs.map Claim.what) ⟨.sect, k⟩) := by
  have hla : k < a.est.sections.length := h.gives.sections.symm ▸ hl
  rw [h.sec_eq, if_pos hl]
  by_cases ho : k ∈ d.overlapSecs
  · rw [h.locks.secOverlap k ho hla, if_pos (List.contains_iff_mem.2 ho)]
  · rw [h.locks.secPath k ((List.mem_append.1 hk).resolve_right ho) ho hla, if_neg (mt List.contains_iff_mem.1 ho)]

theorem sec_other {k : Nat} (hk : ¬(k ∈ d.sections ∧ k < s.est.sections.length)) : u.sec k =
    if k < s.est.sections.length then (a.sec k).more (countOn (cs.map Claim.what) ⟨.sect, k⟩) else a.sec k := by
  rw [h.sec_eq, h.locks.secKept k (by rwa [h.gives.sections])]

/-- What is reported of a section stays; its count is that of the entries. -/
theorem sec_reports (k : Nat) : (u.sec k).occ = (s.sec k).occ ∧ (u.sec k).sweep = (s.sec k).sweep ∧ (u.sec k).last = (s.sec k).last
    ∧ (k < s.est.sections.length → (u.sec k).claims = (s.sec k).claims - countOn (s.needOf d).absent ⟨.sect, k⟩
      + countOn (cs.map Claim.what) ⟨.sect, k⟩) := by
  have ha : (a.sec k).occ = (s.sec k).occ ∧ (a.sec k).sweep = (s.sec k).sweep ∧ (a.sec k).last = (s.sec k).last
      ∧ (a.sec k).claims = (s.sec k).claims - countOn (s.needOf d).absent ⟨.sect, k⟩ := by
    by_cases hg : s.givesSec d k
    · rw [h.gives.secFreed k hg]; exact ⟨rfl, rfl, rfl, rfl⟩
    · rw [h.gives.secKept k hg]; exact ⟨rfl, rfl, rfl, rfl⟩
  obtain ⟨h1, h2, h3, h4⟩ := ha
  rw [← h1, ← h2, ← h3, ← h4]
  by_cases hk : k ∈ d.sections ∧ k < s.est.sections.length
  · rw [h.sec_route hk.1 hk.2]; exact ⟨rfl, rfl, rfl, fun _ => rfl⟩
  · rw [h.sec_other hk]
    by_cases hl : k < s.est.sections.length
    · rw [if_pos hl]; exact ⟨rfl, rfl, rfl, fun _ => rfl⟩
    · rw [if_neg hl]; exact ⟨rfl, rfl, rfl, fun e => absurd e hl⟩

/-- The marks and the lock of a section the route does not use. -/
theorem sec_unused {k : Nat} (hk : k ∉ d.sections) : (u.sec k).unexpected = (s.sec k).unexpected ∧ (u.sec k).vanished = (s.sec k).vanished
    ∧ (u.sec k).sequence = (s.sec k).sequence ∧ (s.givesSec d k → (u.sec k).owner = none ∧ (u.sec k).kind = none)
    ∧ (¬s.givesSec d k → (u.sec k).owner = (s.sec k).owner ∧ (u.sec k).kind = (s.sec k).kind) := by
  have hu : (u.sec k).unexpected = (a.sec k).unexpected ∧ (u.sec k).vanished = (a.sec k).vanished
      ∧ (u.sec k).sequence = (a.sec k).sequence ∧ (u.sec k).owner = (a.sec k).owner ∧ (u.sec k).kind = (a.sec k).kind := by
    rw [h.sec_other fun e => hk e.1]
    split <;> exact ⟨rfl, rfl, rfl, rfl, rfl⟩
  obtain ⟨h1, h2, h3, h4, h5⟩ := hu
  rw [h1, h2, h3, h4, h5]
  by_cases hg : s.givesSec d k
  · rw [h.gives.secFreed k hg]; exact ⟨rfl, rfl, rfl, fun _ => ⟨rfl, rfl⟩, fun e => absurd hg e⟩
  · rw [h.gives.secKept k hg]; exact ⟨rfl, rfl, rfl, fun e => absurd e hg, fun _ => ⟨rfl, rfl⟩⟩

/-- A signal keeps what is commanded and reported; the entry signal is locked. -/
theorem sig_at (k : Nat) : (u.sig k).commanded = (s.sig k).commanded ∧ (u.sig k).reported = (s.sig k).reported
    ∧ (u.sig k).lamp = (s.sig k).lamp
    ∧ (u.sig k).owner = (if k = d.entry ∧ k < s.est.signals.length then some i else (s.sig k).owner)
    ∧ (k < s.est.signals.length → (u.sig k).holds = (s.sig k).holds - countOn (s.needOf d).absent ⟨.signal, k⟩
      + countOn (cs.map Claim.what) ⟨.signal, k⟩) := by
  rw [h.sig_eq, h.locks.sig, h.gives.sig, h.gives.signals]
  by_cases hl : k < s.est.signals.length
  · rw [if_pos hl]
    by_cases he : k = d.entry
    · rw [if_pos ⟨he, hl⟩, if_pos ⟨he, hl⟩]; exact ⟨rfl, rfl, rfl, rfl, fun _ => rfl⟩
    · rw [if_neg fun e => he e.1, if_neg fun e => he e.1]; exact ⟨rfl, rfl, rfl, rfl, fun _ => rfl⟩
  · rw [if_neg hl, if_neg fun e => hl e.2, if_neg fun e => hl e.2]; exact ⟨rfl, rfl, rfl, rfl, fun e => absurd e hl⟩

end Prepared

end Sys2Proof.Machine

/-! ### The points and the requests of an acceptance -/

namespace Sys2Proof.Machine
namespace Prepared
variable {s : State} {o : Originator} {d : RouteDef} {i : Nat} {cs : List Claim} {a b c m u : State} {new : List RemoteReq}
  (h : Prepared s o d i cs a b c m new u)
include h

/-- The donor's part of a point record: its lock and its claims may go, nothing else. -/
theorem pt_given (k : Nat) : a.pt k = { s.pt k with
    owner := (a.pt k).owner, kind := (a.pt k).kind, lockedPos := (a.pt k).lockedPos
    claimPos := if countOn (s.needOf d).absent ⟨.point, k⟩ ≠ 0 ∧ (s.pt k).claims ≤ countOn (s.needOf d).absent ⟨.point, k⟩ then none
      else (s.pt k).claimPos
    claims := (s.pt k).claims - countOn (s.needOf d).absent ⟨.point, k⟩ } := by
  by_cases hg : s.givesPt d k
  · rw [h.gives.ptFreed k hg]; rfl
  · rw [h.gives.ptKept k hg]; rfl

/-- The locks change nothing but the lock of a point. -/
theorem pt_locked (k : Nat) : b.pt k = { a.pt k with
    owner := (b.pt k).owner, kind := (b.pt k).kind, lockedPos := (b.pt k).lockedPos } := by
  by_cases hk : k ∈ d.points.map Prod.fst ∧ k < a.est.points.length
  · obtain ⟨q, -, -, e⟩ := h.locks.pt k hk.1 hk.2
    rw [e]; rfl
  · rw [h.locks.ptKept k hk]

/-- The claims change nothing but the claims of a point. -/
theorem pt_counted (k : Nat) : c.pt k = { b.pt k with claimPos := (c.pt k).claimPos, claims := (c.pt k).claims } := by
  by_cases hk : k < b.est.points.length
  · rw [h.counts.ptFrame k hk]
  · rw [h.counts.ptOut k hk]

theorem pt_reports (k : Nat) : (u.pt k).last = (s.pt k).last ∧ (u.pt k).detectionLost = (s.pt k).detectionLost
    ∧ (u.pt k).owner = (b.pt k).owner ∧ (u.pt k).kind = (b.pt k).kind ∧ (u.pt k).lockedPos = (b.pt k).lockedPos
    ∧ (u.pt k).claimPos = (c.pt k).claimPos ∧ (u.pt k).claims = (c.pt k).claims := by
  rw [h.pt_eq, h.moves.frame k, h.pt_counted, h.pt_locked, h.pt_given]
  exact ⟨rfl, rfl, rfl, rfl, rfl, rfl, rfl⟩

theorem pt_claims {k : Nat} (hk : k < s.est.points.length) : (u.pt k).claims =
    (s.pt k).claims - countOn (s.needOf d).absent ⟨.point, k⟩ + countOn (cs.map Claim.what) ⟨.point, k⟩ := by
  obtain ⟨-, -, -, -, -, -, e⟩ := h.pt_reports k
  rw [e, h.counts.ptFrame k (h.points_length.symm ▸ hk), h.pt_locked, h.pt_given]

/-- A point of the route is locked in the position of one of the route's entries for it. -/
theorem pt_route {k : Nat} (hk : k ∈ d.points.map Prod.fst) (hl : k < s.est.points.length) : (u.pt k).owner = some (.slot i)
    ∧ (u.pt k).kind = some (if (d.overlapPoints.map Prod.fst).contains k then .overlap else .path)
    ∧ ∃ q ∈ d.points, q.1 = k ∧ (u.pt k).lockedPos = some q.2 := by
  obtain ⟨-, -, h1, h2, h3, -, -⟩ := h.pt_reports k
  obtain ⟨q, hq, hqk, e⟩ := h.locks.pt k hk (h.gives.points.symm ▸ hl)
  rw [h1, h2, h3, e]
  exact ⟨rfl, rfl, q, hq, hqk, rfl⟩

theorem pt_unused {k : Nat} (hk : k ∉ d.points.map Prod.fst) :
    (s.givesPt d k → (u.pt k).owner = none ∧ (u.pt k).kind = none ∧ (u.pt k).lockedPos = none)
    ∧ (¬s.givesPt d k → (u.pt k).owner = (s.pt k).owner ∧ (u.pt k).kind = (s.pt k).kind ∧ (u.pt k).lockedPos = (s.pt k).lockedPos) := by
  obtain ⟨-, -, h1, h2, h3, -, -⟩ := h.pt_reports k
  rw [h1, h2, h3, h.locks.ptKept k fun e => hk e.1]
  refine ⟨fun hg => ?_, fun hg => ?_⟩
  · rw [h.gives.ptFreed k hg]; exact ⟨rfl, rfl, rfl⟩
  · rw [h.gives.ptKept k hg]; exact ⟨rfl, rfl, rfl⟩

theorem pt_motion (k : Nat) : (c.pt k).pos = (s.pt k).pos ∧ (c.pt k).commanded = (s.pt k).commanded
    ∧ (c.pt k).throwMs = (s.pt k).throwMs := by
  rw [h.pt_counted, h.pt_locked, h.pt_given]
  exact ⟨rfl, rfl, rfl⟩

theorem throwLimit_eq : c.throwLimit = s.throwLimit := by
  rw [h.counts.rest, h.locks.rest, h.gives.rest]; rfl

/-- A point that all entries ask in one position begins its movement where it lies in the other. -/
theorem pt_moved {k : Nat} {x : Pos} (hk : ∃ q ∈ claimedPoints cs ++ d.points, q.1 = k)
    (hx : ∀ q ∈ claimedPoints cs ++ d.points, q.1 = k → q.2 = x) :
    ((s.pt k).pos = x.other.rest → (u.pt k).pos = .moving ∧ (u.pt k).commanded = some x
        ∧ (u.pt k).throwMs = some (s.throwLimit * 1000))
    ∧ ((s.pt k).pos ≠ x.other.rest → (u.pt k).pos = (s.pt k).pos ∧ (u.pt k).commanded = (s.pt k).commanded
        ∧ (u.pt k).throwMs = (s.pt k).throwMs) := by
  obtain ⟨h1, h2, h3⟩ := h.pt_motion k
  rw [h.pt_eq, h.moves.moved k x hk hx, h.throwLimit_eq, ← h1, ← h2, ← h3]
  refine ⟨fun e => ?_, fun e => ?_⟩
  · rw [PointRec.movedTo, if_pos e]; exact ⟨rfl, rfl, rfl⟩
  · rw [PointRec.movedTo, if_neg e]; exact ⟨rfl, rfl, rfl⟩

theorem pt_unmoved {k : Nat} (hk : ∀ q ∈ claimedPoints cs ++ d.points, q.1 ≠ k) : (u.pt k).pos = (s.pt k).pos
    ∧ (u.pt k).commanded = (s.pt k).commanded ∧ (u.pt k).throwMs = (s.pt k).throwMs := by
  rw [h.pt_eq, h.moves.kept k hk]
  exact h.pt_motion k

/-- The claim position of a point no entry names: it goes with the donor's last claim. -/
theorem claimPos_unclaimed {k : Nat} (hk : ∀ x, ¬∃ e ∈ cs, e.what = .point k x) : (u.pt k).claimPos =
    if countOn (s.needOf d).absent ⟨.point, k⟩ ≠ 0 ∧ (s.pt k).claims ≤ countOn (s.needOf d).absent ⟨.point, k⟩ then none
    else (s.pt k).claimPos := by
  obtain ⟨-, -, -, -, -, e, -⟩ := h.pt_reports k
  have h0 : countOn (cs.map Claim.what) ⟨.point, k⟩ = 0 := by
    by_contra hn
    obtain ⟨w, hw, he⟩ := countOn_pos hn
    obtain ⟨f, hf, rfl⟩ := List.mem_map.1 hw
    cases hx : f.what with
    | point j x =>
      rw [hx] at he
      cases he
      exact hk x ⟨f, hf, hx⟩
    | signal j => rw [hx] at he; cases he
    | sect j => rw [hx] at he; cases he
    | port j => rw [hx] at he; cases he
  rw [e]
  by_cases hl : k < b.est.points.length
  · rw [h.counts.pt k hl .normal fun y hy => absurd ((List.mem_map.1 hy).imp fun _ e => e) (hk y), h0, h.pt_locked, h.pt_given]
    simp only [ne_eq, not_true_eq_false, false_and, if_false]
  · rw [h.counts.ptOut k hl, h.pt_locked, h.pt_given]

/-- The claim position of a point that entries name: theirs, where no other claim was left; else as before. -/
theorem claimPos_claimed (ad : Admitted s d i cs) {k : Nat} {x : Pos} (hl : k < s.est.points.length)
    (hk : ∃ e ∈ cs, e.what = .point k x) : (u.pt k).claimPos =
      if (s.pt k).claims - countOn (s.needOf d).absent ⟨.point, k⟩ = 0 then some x else (s.pt k).claimPos := by
  obtain ⟨-, -, -, -, -, e, -⟩ := h.pt_reports k
  obtain ⟨f, hf, hw⟩ := hk
  have hn : countOn (cs.map Claim.what) ⟨.point, k⟩ ≠ 0 := countOn_ne_zero (List.mem_map_of_mem hf) (by rw [hw]; rfl)
  have hone : ∀ y, ClaimOn.point k y ∈ cs.map Claim.what → y = x := fun y hy => by
    obtain ⟨g, hg, hgw⟩ := List.mem_map.1 hy
    exact ad.fits.single g hg f hf k y x hgw hw
  rw [e, h.counts.pt k (h.points_length.symm ▸ hl) x hone, h.pt_locked, h.pt_given]
  show (if countOn _ _ ≠ 0 ∧ (s.pt k).claims - _ = 0 then some x else if _ then none else _) = _
  by_cases h0 : (s.pt k).claims - countOn (s.needOf d).absent ⟨.point, k⟩ = 0
  · rw [if_pos ⟨hn, h0⟩, if_pos h0]
  · rw [if_neg (fun e : _ ∧ _ => h0 e.2), if_neg h0, if_neg (fun e : _ ∧ _ => h0 (by omega))]

end Prepared
end Sys2Proof.Machine

/-! ### What an acceptance comes to (R65, R66, R69) -/

namespace Sys2Proof.Machine

/-! #### Lists without repeats -/

theorem mem_eraseDups_iff {a : Nat} (n : Nat) {l : List Nat} (hn : l.length ≤ n) : a ∈ l.eraseDups ↔ a ∈ l := by
  induction n generalizing l with
  | zero => rw [List.length_eq_zero_iff.1 (Nat.le_zero.1 hn)]; simp
  | succ n ih =>
    cases l with
    | nil => simp
    | cons b l =>
      rw [List.eraseDups_cons, List.mem_cons, List.mem_cons,
        ih ((List.length_filter_le _ l).trans (Nat.le_of_succ_le_succ hn)), List.mem_filter]
      by_cases h : a = b <;> simp [h]

theorem nodup_eraseDups (n : Nat) {l : List Nat} (hn : l.length ≤ n) : l.eraseDups.Nodup := by
  induction n generalizing l with
  | zero => rw [List.length_eq_zero_iff.1 (Nat.le_zero.1 hn)]; simp
  | succ n ih =>
    cases l with
    | nil => simp
    | cons b l =>
      have hl := (List.length_filter_le (fun x => !x == b) l).trans (Nat.le_of_succ_le_succ hn)
      rw [List.eraseDups_cons, List.nodup_cons, mem_eraseDups_iff n hl, List.mem_filter]
      exact ⟨by simp, ih hl⟩

theorem mem_flankPorts {cs : List Claim} {p : Nat} : p ∈ flankPorts cs ↔ ∃ c ∈ cs, c.what = .port p := by
  rw [flankPorts, mem_eraseDups_iff _ le_rfl, List.mem_filterMap]
  refine exists_congr fun c => and_congr_right fun _ => ?_
  cases c.what <;> simp

/-- Only the acceptance of an EXIT route's own port is asked for (R65). -/
theorem acceptance_posted {s : State} {d : RouteDef} {cs : List Claim} {x : RemoteWhat × Nat} {p : Nat} (hx : x ∈ s.postsOf d cs)
    (he : x.1 = .acceptance p) : d.kind = .exit ∧ p = d.exit := by
  unfold State.postsOf at hx
  rcases List.mem_append.1 hx with hx | hx
  · rcases List.mem_append.1 hx with hx | hx
    · obtain ⟨q, -, rfl⟩ := List.mem_map.1 hx
      cases he
    · split at hx
      · rename_i hk
        rw [List.mem_singleton.1 hx] at he
        exact ⟨hk, (RemoteWhat.acceptance.inj he).symm⟩
      · cases hx
  · obtain ⟨q, -, rfl⟩ := List.mem_map.1 hx
    cases he

theorem posted_acceptance (s : State) {d : RouteDef} (cs : List Claim) (hk : d.kind = .exit) :
    (RemoteWhat.acceptance d.exit, (s.portDef d.exit).link) ∈ s.postsOf d cs := by
  unfold State.postsOf
  rw [if_pos hk]
  exact List.mem_append_left _ (List.mem_append_right _ (List.mem_singleton_self _))

/-- What the donor's requests take back from a link. -/
theorem givenBack_eq (s : State) (d : RouteDef) (l : Nat) (o : OutReq) : (decide (some o.slot = s.donor d)
      && (s.slot o.slot).remote.any fun r => idleFlank ((s.donor d).elim [] fun j => (s.slot j).claims.filter fun c => !c.ofOverlap) r
        && decide (r.link = l ∧ r.tag = o.tag)) = s.givenBack d l o := by
  unfold State.givenBack State.givesReqs
  cases s.donor d with
  | none => rfl
  | some j =>
    simp only [Option.elim_some, askGone, Option.some.injEq, List.any_filter]
    by_cases ho : o.slot = j
    · subst ho
      simp only [decide_true, Bool.true_and]
      refine congrArg _ (funext fun r => ?_)
      by_cases hr : idleFlank ((s.slot o.slot).claims.filter fun c => !c.ofOverlap) r = true
      · rw [hr, idleFlank_asks hr, Bool.and_true]
      · rw [Bool.not_eq_true] at hr
        rw [hr, Bool.false_and, Bool.false_and]
    · simp [ho]

/-! #### The test of R69, read off the records -/

theorem clearTest_iff {s : State} {i : Nat} {d : RouteDef} (hr : s.slotRoute i = d) : s.clearTest i = true ↔
    s.pendingOf i = [] ∧ (∀ c ∈ (s.slot i).claims, s.stands i c.what)
      ∧ (∀ r ∈ (s.slot i).remote, r.status = .granted ∧ (s.link r.link).state = .up) ∧ (∀ x ∈ d.sections, (s.sec x).occ = .clear)
      ∧ ((s.sig d.entry).lamp = false ∧ (s.sigRestr d.entry).noClear = false ∧ ¬s.ctrlLost d.entry) ∧ s.operational = true := by
  have hc : (!s.entryCause d.entry) = true ↔
      (s.sig d.entry).lamp = false ∧ (s.sigRestr d.entry).noClear = false ∧ ¬s.ctrlLost d.entry := by
    simp only [State.entryCause, Bool.not_eq_true', Bool.or_eq_false_iff, ← sigCtrlLost_iff, Bool.not_eq_true, and_assoc]
  unfold State.clearTest
  simp only [hr, Bool.and_eq_true, List.isEmpty_iff, List.all_eq_true, intact_iff, secClear_iff, State.neighboursGrant, hc,
    RemoteReq.granted, decide_eq_true_eq, linkUp_iff, and_assoc]

/-- What an entry asks is read off few fields. -/
theorem stands_congr {s t : State} {i : Nat} (hp : ∀ k, (t.pt k).pos = (s.pt k).pos) (hs : ∀ k, (t.sec k).occ = (s.sec k).occ)
    (hr : (t.slot i).remote = (s.slot i).remote) (hl : ∀ l, (t.link l).state = (s.link l).state) (him : t.image = s.image) {w : ClaimOn}
    (hg : ∀ k, w = .signal k → (t.sig k).commanded = (s.sig k).commanded ∧ (t.sig k).reported = (s.sig k).reported
      ∧ (t.sig k).lamp = (s.sig k).lamp) : t.stands i w ↔ s.stands i w := by
  cases w with
  | point k x => simp only [State.stands, State.elemStands, hp]
  | signal k =>
    obtain ⟨h1, h2, h3⟩ := hg k rfl
    simp only [State.stands, State.elemStands, h1, h2, h3]
  | sect k => simp only [State.stands, State.elemStands, hs]
  | port p =>
    have hd : t.portDef p = s.portDef p := by rw [State.portDef, State.portDef, him]
    simp only [State.stands, State.flankAnswered, hr, hl, hd]

theorem pendingOf_congr {s t : State} {i : Nat} (hr : t.slotRoute i = s.slotRoute i) (hc : (t.slot i).claims = (s.slot i).claims)
    (hp : t.est.points = s.est.points) : t.pendingOf i = s.pendingOf i := by
  have h : ∀ k x, t.atRest k x = s.atRest k x := fun k x => by
    have hk : t.pt k = s.pt k := by rw [State.pt, State.pt, hp]
    simp only [State.atRest, hk]
  simp only [State.pendingOf, hr, hc, h]

/-! #### What the test of R69 leaves -/

section
variable {u b : State} {d : RouteDef} {i : Nat} (ht : Tested u d i b)
include ht

theorem Tested.sec_eq (k : Nat) : b.sec k = u.sec k := by rw [State.sec, State.sec, ht.secs]
theorem Tested.pt_eq (k : Nat) : b.pt k = u.pt k := by rw [State.pt, State.pt, ht.pts]
theorem Tested.link_eq (l : Nat) : b.link l = u.link l := by rw [State.link, State.link, ht.bdu]
theorem Tested.port_eq (p : Nat) : b.port p = u.port p := by rw [State.port, State.port, ht.bdu]

end

/-! #### The new slot -/

section
variable {s : State} {o : Originator} {d : RouteDef} {i : Nat} {cs : List Claim} {a g c m u b : State} {new : List RemoteReq}
  (hp : Prepared s o d i cs a g c m new u) (ht : Tested u d i b)
include hp ht

/-- What the test of R69 writes to the slot is its state and its figures. -/
theorem Prepared.slot_tested : ∃ f x, b.slot i = { d.freshSlot o with
    claims := u.placed cs, remote := new, timerMs := some (s.settingTimeout * 1000), pendingPts := u.pendingOf i
    figures := f, state := x } := by
  rw [ht.slot, hp.slot]
  split
  · exact ⟨_, _, rfl⟩
  · exact ⟨_, _, rfl⟩

theorem Prepared.slot_kept : (b.slot i).route = (u.slot i).route ∧ (b.slot i).claims = (u.slot i).claims
    ∧ (b.slot i).remote = (u.slot i).remote := by
  obtain ⟨f, x, e⟩ := hp.slot_tested ht
  rw [e, hp.slot]
  exact ⟨rfl, rfl, rfl⟩

theorem Prepared.image_eq : u.image = s.image ∧ b.image = s.image := by
  have hu : u.image = s.image := by rw [hp.rest]; rfl
  exact ⟨hu, by rw [ht.rest]; exact hu⟩

theorem Prepared.slotRoute_eq (hn : s.routeDef? d.number = some d) : u.slotRoute i = d ∧ b.slotRoute i = d := by
  have hnu : u.routeDef? d.number = some d := by rw [hp.rest]; exact hn
  have hnb : b.routeDef? d.number = some d := by rw [ht.rest]; exact hnu
  have hru : (u.slot i).route = some d.number := by rw [hp.slot]; rfl
  exact ⟨Machine.slotRoute_eq hru hnu, Machine.slotRoute_eq ((hp.slot_kept ht).1.trans hru) hnb⟩

theorem Prepared.pendingOf_eq (hn : s.routeDef? d.number = some d) : b.pendingOf i = u.pendingOf i := by
  obtain ⟨h1, h2⟩ := hp.slotRoute_eq ht hn
  exact pendingOf_congr (h2.trans h1.symm) (hp.slot_kept ht).2.1 ht.pts

theorem Prepared.sig_commanded (g : Nat) : (b.sig g).reported = (s.sig g).reported ∧ (b.sig g).lamp = (s.sig g).lamp
    ∧ (b.sig g).owner = (u.sig g).owner ∧ (b.sig g).holds = (u.sig g).holds
    ∧ (g ≠ d.entry → (b.sig g).commanded = (s.sig g).commanded)
    ∧ (u.clearTest i = false → (b.sig g).commanded = (s.sig g).commanded) := by
  obtain ⟨h1, h2, h3, -, -⟩ := hp.sig_at g
  rw [ht.sig]
  by_cases hc : u.clearTest i = true ∧ g = d.entry ∧ g < u.est.signals.length
  · rw [if_pos hc]
    exact ⟨h2, h3, rfl, rfl, fun e => absurd hc.2.1 e, fun e => by rw [hc.1] at e; cases e⟩
  · rw [if_neg hc]
    exact ⟨h2, h3, rfl, rfl, fun _ => h1, fun _ => h1⟩

/-- It is CLEARING exactly where the test passes. -/
theorem Prepared.clearing_iff : (b.slot i).state = .clearing ↔ u.clearTest i = true := by
  rw [ht.slot]
  by_cases hc : u.clearTest i = true
  · rw [if_pos hc]; exact iff_of_true rfl hc
  · rw [if_neg hc, hp.slot]; exact iff_of_false (by simp [RouteDef.freshSlot]) hc

/-! #### Records at the end of the acceptance -/

/-- What the slot's requests have made of the links and ports, read from the state before them. -/
theorem Prepared.posted : ∃ v w : State, Posted v i (s.postsOf d cs) new w ∧ v.bdu = a.bdu ∧ w.bdu = b.bdu
    ∧ (∀ l, v.link l = { s.link l with outgoing := (s.link l).outgoing.filter fun o => !s.givenBack d l o })
    ∧ (∀ l, w.link l = b.link l) ∧ (∀ p, v.port p = s.port p) ∧ ∀ p, w.port p = b.port p := by
  obtain ⟨v, w, hv, hw, hposts⟩ := hp.posts
  have hwb : w.bdu = b.bdu := hw.trans ht.bdu.symm
  refine ⟨v, w, hposts, hv, hwb, fun l => ?_, fun l => ?_, fun p => ?_, fun p => ?_⟩
  · rw [State.link, hv]; exact hp.gives.link l
  · rw [State.link, State.link, hwb]
  · rw [State.port, hv, hp.gives.rest]; rfl
  · rw [State.port, State.port, hwb]

/-- The entry signal's aspect apart, the test of R69 reads the same once it is made. -/
theorem Prepared.stands_before (w : ClaimOn) : (b.setAspect d.entry (s.sig d.entry).commanded).stands i w ↔ u.stands i w := by
  obtain ⟨hiu, hib⟩ := hp.image_eq ht
  refine stands_congr (s := u) (t := b.setAspect d.entry (s.sig d.entry).commanded) (fun x => congrArg _ (ht.pt_eq x))
    (fun x => congrArg _ (ht.sec_eq x)) (hp.slot_kept ht).2.2 (fun l => congrArg _ (ht.link_eq l)) (hib.trans hiu.symm) fun g _ => ?_
  obtain ⟨h1, h2, -, -, h5, -⟩ := hp.sig_commanded ht g
  obtain ⟨k1, k2, k3, -, -⟩ := hp.sig_at g
  have hb : (b.setAspect d.entry (s.sig d.entry).commanded).sig g = if d.entry = g ∧ g < b.est.signals.length then
      { b.sig g with commanded := (s.sig d.entry).commanded } else b.sig g := getD_modify_eq _ _ _ _ _
  rw [k1, k2, k3, ← h1, ← h2, hb]
  by_cases hg : d.entry = g
  · subst hg
    by_cases hl : d.entry < b.est.signals.length
    · rw [if_pos ⟨rfl, hl⟩]; exact ⟨rfl, rfl, rfl⟩
    · rw [if_neg fun e => hl e.2]
      refine ⟨?_, rfl, rfl⟩
      rw [ht.sig, if_neg fun e => hl (ht.signals.symm ▸ e.2.2), k1]
  · rw [if_neg fun e => hg e.1]
    exact ⟨h5 (Ne.symm hg), rfl, rfl⟩

/-- The test of R69, read at the end with the aspect as before. -/
theorem Prepared.clearing_iff_stands (ad : Admitted s d i cs) (hn : s.routeDef? d.number = some d) : (b.slot i).state = .clearing ↔
    b.pendingOf i = [] ∧ (∀ c ∈ (b.slot i).claims, (b.setAspect d.entry (s.sig d.entry).commanded).stands i c.what)
      ∧ (∀ r ∈ (b.slot i).remote, r.status = .granted ∧ (b.link r.link).state = .up) ∧ (∀ x ∈ d.sections, (b.sec x).occ = .clear)
      ∧ (b.sig d.entry).lamp = false ∧ (b.sigRestr d.entry).noClear = false ∧ ¬b.ctrlLost d.entry := by
  obtain ⟨-, h2, -, -, -, -⟩ := hp.sig_commanded ht d.entry
  obtain ⟨-, -, k3, -, -⟩ := hp.sig_at d.entry
  have hrest : (b.sigRestr d.entry).noClear = (u.sigRestr d.entry).noClear ∧ (b.ctrlLost d.entry ↔ u.ctrlLost d.entry)
      ∧ u.operational = true := by
    rw [ht.rest, hp.rest]
    exact ⟨rfl, Iff.rfl, ad.operational⟩
  obtain ⟨hr1, hr2, hr3⟩ := hrest
  rw [hp.clearing_iff ht, clearTest_iff (hp.slotRoute_eq ht hn).1]
  simp only [hp.pendingOf_eq ht hn, (hp.slot_kept ht).2.1, (hp.slot_kept ht).2.2, hp.stands_before ht, ht.sec_eq, ht.link_eq,
    h2.trans k3.symm, hr1, hr2, hr3, and_true]

/-- Been intact is set where the entry is intact (R82). -/
theorem Prepared.been_iff (ad : Admitted s d i cs) {e : Claim} (he : e ∈ (b.slot i).claims) : e.been = true ↔ b.stands i e.what := by
  obtain ⟨hiu, hib⟩ := hp.image_eq ht
  rw [(hp.slot_kept ht).2.1, hp.slot] at he
  obtain ⟨e', he', rfl⟩ := List.mem_map.1 he
  have hst : b.stands i e'.what ↔ u.stands i e'.what :=
    stands_congr (s := u) (t := b) (fun x => congrArg _ (ht.pt_eq x)) (fun x => congrArg _ (ht.sec_eq x)) (hp.slot_kept ht).2.2
      (fun l => congrArg _ (ht.link_eq l)) (hib.trans hiu.symm) fun x hx => by
        obtain ⟨h1, h2, -, -, h5, -⟩ := hp.sig_commanded ht x
        obtain ⟨k1, k2, k3, -, -⟩ := hp.sig_at x
        rw [h1, h2, k1, k2, k3]
        exact ⟨h5 fun e => (ad.fits.signal e' he' x hx).1 (by rw [e]; rfl), rfl, rfl⟩
  rw [hst, ← intact_iff]
  cases hw : e'.what with
  | point k x => simp only [State.intact]
  | signal k => simp only [State.intact]
  | sect k => simp only [State.intact]
  | port p =>
    obtain ⟨v, w, hposts, -⟩ := hp.posted ht
    simp only [Bool.false_eq_true, false_iff, State.intact, Bool.and_eq_true, flankGranted_iff, State.flankAnswered, hp.slot]
    rintro ⟨⟨r, hr, hg, -⟩, -⟩
    rw [hposts.pending r hr] at hg
    cases hg

/-- Where a point's claim position stood with its count, the entries' position is its claim position now (R37). -/
theorem Prepared.claimPos_named (ad : Admitted s d i cs) {p : Nat} {x : Pos} (hl : p < s.est.points.length)
    (hc : ∃ e ∈ cs, e.what = .point p x) (hiff : (s.pt p).claims = 0 ↔ (s.pt p).claimPos = none) : (b.pt p).claimPos = some x := by
  rw [ht.pt_eq, hp.claimPos_claimed ad hl hc]
  split
  · rfl
  · rename_i h0
    have hne : (s.pt p).claimPos ≠ none := fun e => h0 (by rw [hiff.2 e, Nat.zero_sub])
    obtain ⟨e, he, hw⟩ := hc
    have ha := claimAgrees_false.not.1 (Bool.eq_false_iff.not_left.2 (ad.fits.point e he p x hw).2)
    obtain ⟨y, hy⟩ := Option.ne_none_iff_exists'.1 hne
    rw [hy]
    by_contra hyx
    exact ha ⟨h0, hy.trans (congrArg some (Pos.ne_iff_eq_other.1 fun e => hyx (congrArg some e)))⟩

/-- The withdrawn requests of the donor are on no link (R97). -/
theorem Prepared.not_outgoing {j : Nat} (hj : s.donor d = some j) (hji : j ≠ i) {r : RemoteReq} (hr : r ∈ (s.slot j).remote)
    (hi : idleFlank ((s.slot j).claims.filter fun c => !c.ofOverlap) r = true) {o : OutReq} (ho : o ∈ (b.link r.link).outgoing) :
    ¬(o.tag = r.tag ∧ o.slot = j) := by
  rintro ⟨htag, hslot⟩
  obtain ⟨v, w, hposts, hv, hw, hlv, hlw, -⟩ := hp.posted ht
  rw [← hlw] at ho
  by_cases hl : r.link < s.bdu.links.length
  · obtain ⟨added, h1, h2⟩ := hposts.outgoing r.link (by rw [hv, hp.gives.links]; exact hl)
    rw [h1, List.mem_append, hlv] at ho
    rcases ho with ho | ho
    · obtain ⟨-, hk⟩ := List.mem_filter.1 ho
      have hback : s.givenBack d r.link o = true := by
        simp only [State.givenBack, State.givesReqs, hj, Option.elim_some, askGone, Bool.and_eq_true, decide_eq_true_eq, List.any_eq_true]
        exact ⟨hslot, r, List.mem_filter.2 ⟨hr, hi⟩, ⟨rfl, htag.symm⟩, idleFlank_asks hi⟩
      rw [hback] at hk; cases hk
    · have hm := List.mem_map_of_mem (f := fun o : OutReq => (o.ask, o.slot)) ho
      rw [h2] at hm
      obtain ⟨x, -, hx⟩ := List.mem_map.1 hm
      exact hji (hslot.symm.trans (Prod.mk.inj hx).2.symm)
  · rw [hposts.out r.link (by rw [hv, hp.gives.links]; exact hl), hlv, State.link, List.getD_eq_default _ _ (not_lt.1 hl)] at ho
    cases ho

/-- Counts and claim positions are those of the state in which they were placed. -/
theorem Prepared.counts_final : (∀ x, b.sec x = c.sec x) ∧ (∀ x, (b.sig x).holds = (c.sig x).holds)
    ∧ (∀ x, (b.pt x).claimPos = (c.pt x).claimPos ∧ (b.pt x).claims = (c.pt x).claims) ∧ ∀ w, b.claimCount w = c.claimCount w := by
  have hsec : ∀ x, b.sec x = c.sec x := fun x => by rw [ht.sec_eq, State.sec, State.sec, hp.est, hp.moves.rest]
  have hsig : ∀ x, (b.sig x).holds = (c.sig x).holds := fun x => by
    rw [(hp.sig_commanded ht x).2.2.2.1, State.sig, State.sig, hp.est, hp.moves.rest]
  have hpt : ∀ x, (b.pt x).claimPos = (c.pt x).claimPos ∧ (b.pt x).claims = (c.pt x).claims := fun x => by
    obtain ⟨-, -, -, -, -, h6, h7⟩ := hp.pt_reports x
    rw [ht.pt_eq]; exact ⟨h6, h7⟩
  refine ⟨hsec, hsig, hpt, fun w => ?_⟩
  cases w with
  | point k x => exact (hpt k).2
  | signal k => exact hsig k
  | sect k => exact congrArg SectionRec.claims (hsec k)
  | port p => rfl

/-- An element whose count or claim position the takeover changes is enqueued (R41). -/
theorem Prepared.noted_final {w : ClaimOn} (hw : w ∈ (s.needOf d).absent) (x : Nat) :
    (w.elem? = some ⟨.sect, x⟩ → (b.sec x).claims ≠ (s.sec x).claims → Ref.sect x ∈ b.slu.noticeQ)
    ∧ (w.elem? = some ⟨.point, x⟩ → (b.pt x).claims ≠ (s.pt x).claims ∨ (b.pt x).claimPos ≠ (s.pt x).claimPos → Ref.point x ∈ b.slu.noticeQ)
    ∧ (w.elem? = some ⟨.signal, x⟩ → (b.sig x).holds ≠ (s.sig x).holds → Ref.signal x ∈ b.slu.noticeQ) := by
  obtain ⟨hsec, hsig, hpt, -⟩ := hp.counts_final ht
  have hin : s.claimMoved b w = true → (w.elem? = some ⟨.sect, x⟩ → Ref.sect x ∈ b.slu.noticeQ)
      ∧ (w.elem? = some ⟨.point, x⟩ → Ref.point x ∈ b.slu.noticeQ) ∧ (w.elem? = some ⟨.signal, x⟩ → Ref.signal x ∈ b.slu.noticeQ) := fun hmv => by
    have hmoved : s.claimMoved b w = s.claimMoved c w := by
      cases w with
      | point k x => simp only [State.claimMoved, hpt]
      | signal k => simp only [State.claimMoved, hsig]
      | sect k => simp only [State.claimMoved, hsec]
      | port p => rfl
    obtain ⟨h1, h2, h3⟩ := hp.noted w hw (hmoved ▸ hmv) x
    exact ⟨fun h => ht.queue.subset (h1 h), fun h => ht.queue.subset (h2 h), fun h => ht.queue.subset (h3 h)⟩
  refine ⟨fun he hne => ?_, fun he hne => ?_, fun he hne => ?_⟩
  · refine (hin ?_).1 he
    cases w <;> cases he
    exact decide_eq_true hne.symm
  · refine (hin ?_).2.1 he
    cases w <;> cases he
    exact decide_eq_true (hne.imp Ne.symm Ne.symm)
  · refine (hin ?_).2.2 he
    cases w <;> cases he
    exact decide_eq_true hne.symm

end

/-- A lock counts as absent exactly where a donor holds it with its overlap (R63). -/
theorem absentLock_iff {s : State} {d : RouteDef} {o : Option Owner} {k : Option LockKind} :
    s.absentLock d o k ↔ ∃ j, s.donor d = some j ∧ o = some (.slot j) ∧ k = some .overlap := by
  constructor
  · rintro ⟨hk, ho, hd⟩
    obtain ⟨w, rfl⟩ := Option.ne_none_iff_exists'.1 ho
    obtain ⟨j, hj, rfl⟩ := Option.map_eq_some_iff.1 hd.symm
    exact ⟨j, hj, rfl, hk⟩
  · rintro ⟨j, hj, rfl, hk⟩
    exact ⟨hk, Option.some_ne_none _, by rw [hj]; rfl⟩

/-- Settles O26, from the stages of the acceptance. -/
theorem acceptanceEffect : Obligations.AcceptanceEffect := by
  intro s o route i retry cs d hc hd
  have ad := routeChecks_admitted hc hd
  have hnum : s.routeDef? d.number = some d := by rw [number_of_routeDef hd, hd]
  obtain ⟨a, g, c, m, new, hp⟩ := prepared_stages (s := s) (o := o) (d := d) (cs := cs) ad.slot ad.free
  have ht : Tested (s.prepared o d i cs) d i (s.acceptRoute o d i cs) := by
    rw [acceptRoute_eq]
    refine tested (hp.slotsLength.symm ▸ ad.slot) (slotRoute_eq (by rw [hp.slot]; rfl) ?_) (by rw [hp.slot]; rfl)
    rw [hp.rest]; exact hnum
  generalize s.prepared o d i cs = u at hp ht
  intro b k
  change Tested u d i b at ht
  have hk : k = b.slot i := rfl
  clear_value b k
  subst hk
  obtain ⟨hru, hrb⟩ := hp.slotRoute_eq ht hnum
  obtain ⟨v, w, hposts, hv, hw, hlv, hlw, hpv, hpw⟩ := hp.posted ht
  refine ⟨⟨ad.free, ad.lowest, ?_⟩, fun x hx hl => ?_, fun x hx hl => ?_, fun hn q hq hl => ?_, fun hl => ?_, ?_,
    hp.clearing_iff_stands ht ad hnum, ?_, ?_⟩
  · have hplaced : (u.placed cs).map (fun c => (c.what, c.prot)) = cs.map fun c => (c.what, c.prot) := by
      rw [State.placed, List.map_map]; rfl
    have hlost : ∀ c ∈ u.placed cs, c.lost = false := fun c hc => by
      obtain ⟨e, -, rfl⟩ := List.mem_map.1 hc; rfl
    rw [hp.pendingOf_eq ht hnum]
    obtain ⟨f, x, e⟩ := hp.slot_tested ht
    rw [e]
    exact ⟨rfl, rfl, rfl, rfl, rfl, rfl, rfl, rfl, rfl, hplaced, hlost, rfl, hposts.named, hposts.pending, ht.noted⟩
  · rw [ht.sec_eq, hp.sec_route (List.mem_append_left _ hx) hl]
    exact ⟨rfl, rfl⟩
  · rw [ht.sec_eq, hp.sec_route (List.mem_append_right _ hx) hl, if_pos (List.contains_iff_mem.2 hx)]
    exact ⟨rfl, rfl⟩
  · obtain ⟨h1, h2, q', hq', he, h3⟩ := hp.pt_route (List.mem_map_of_mem hq) hl
    obtain ⟨h4, h5⟩ := hp.pt_moved ⟨q, List.mem_append_right _ hq, rfl⟩ fun p hp he => ad.route_agrees hn hq hp he
    obtain rfl := List.inj_on_of_nodup_map hn hq' hq he
    rw [ht.pt_eq]
    exact ⟨h1, h3, h2, fun e => (h5 (by rw [e]; exact (Pos.other_rest_ne _).symm)).1.trans e, h4⟩
  · rw [(hp.sig_commanded ht d.entry).2.2.1, (hp.sig_at d.entry).2.2.2.1, if_pos ⟨rfl, hl⟩]
  · by_cases hc : u.clearTest i = true
    · obtain ⟨hpend, -⟩ := (clearTest_iff hru).1 hc
      refine .inr ⟨(hp.clearing_iff ht).2 hc, ?_, ?_, fun hl => ?_⟩
      · rw [ht.slot, if_pos hc, hp.rest]; rfl
      · rw [ht.slot, if_pos hc, ← hpend, hp.slot]
      · rw [ht.sig, if_pos ⟨hc, rfl, by rw [hp.est, hp.moves.rest, hp.counts.signals, hp.signals_length]; exact hl⟩]; rfl
    · refine .inl ⟨?_, ?_, (hp.sig_commanded ht d.entry).2.2.2.2.2 (Bool.eq_false_iff.2 hc)⟩
      · rw [ht.slot, if_neg hc, hp.slot]; rfl
      · rw [ht.slot, if_neg hc, hp.slot]; rfl
  · intro mine gone left claimed emptied unmoved takenBack asks
    have hgone : gone = (s.needOf d).absent := rfl
    clear_value gone
    subst hgone
    have hleft : left = (s.donor d).elim [] fun j => (s.slot j).claims.filter fun c => !c.ofOverlap := by
      simp only [left]
      cases s.donor d <;> rfl
    have hun : ∀ x, (∀ q ∈ claimedPoints cs ++ d.points, q.1 ≠ x) → unmoved x := fun x hx => by
      show (b.pt x).pos = _ ∧ (b.pt x).commanded = _ ∧ (b.pt x).throwMs = _
      rw [ht.pt_eq]; exact hp.pt_unmoved hx
    have hclaimed : ∀ x y, claimed x y → ∃ q ∈ claimedPoints cs ++ d.points, q.1 = x := fun x y ⟨e, he, hw⟩ =>
      ⟨(x, y), List.mem_append_left _ (mem_claimedPoints.2 ⟨e, he, hw⟩), rfl⟩
    refine ⟨fun p x hl hc => ⟨hp.claimPos_named ht ad hl hc, fun _ => ?_⟩,
      fun p hno => ⟨fun he => ?_, fun he => ?_, fun hm => hun p fun q hq hqp => ?_⟩,
      fun hn q hq hne => ?_, fun _ => hp.been_iff ht ad, fun x hx hl => ?_, fun x hx => ?_, fun x => ?_, fun x => ?_, fun x => ?_, ?_, fun l => ?_,
      fun l hl => ?_, fun r hr a ha hl => ?_, ?_, fun p hex => ?_, fun hex hl => ?_, ?_, ?_⟩
    · obtain ⟨h1, h2⟩ := hp.pt_moved (hclaimed p x hc) fun q hq e => ad.claim_agrees hc hq e
      rw [← ht.pt_eq] at h1 h2
      exact ⟨h1, h2⟩
    · rw [ht.pt_eq, hp.claimPos_unclaimed hno, if_pos he]
    · rw [ht.pt_eq, hp.claimPos_unclaimed hno, if_neg he]
    · rcases List.mem_append.1 hq with hq | hq
      · obtain ⟨e, he, hw⟩ := mem_claimedPoints.1 hq
        exact hno q.2 ⟨e, he, by rw [hw, hqp]⟩
      · exact hm (hqp ▸ List.mem_map_of_mem hq)
    · obtain ⟨-, h2⟩ := hp.pt_moved ⟨q, List.mem_append_right _ hq, rfl⟩ fun p hp he => ad.route_agrees hn hq hp he
      rw [← ht.pt_eq] at h2
      exact h2 hne
    · rw [ht.sec_eq, hp.sec_route hx hl]; exact ⟨rfl, rfl, rfl⟩
    · rw [ht.sec_eq]
      obtain ⟨h1, h2, h3, -⟩ := hp.sec_unused hx
      exact ⟨h1, h2, h3⟩
    · rw [ht.sec_eq]
      obtain ⟨h1, h2, h3, -⟩ := hp.sec_reports x
      exact ⟨h1, h2, h3⟩
    · rw [ht.pt_eq]
      obtain ⟨h1, h2, -⟩ := hp.pt_reports x
      exact ⟨h1, h2⟩
    · obtain ⟨h1, h2, -⟩ := hp.sig_commanded ht x
      exact ⟨h1, h2⟩
    · rw [← hw, hposts.links, hv]; exact hp.gives.links
    · rw [← hlw, hposts.link l, hlv]
    · obtain ⟨added, h1, h2⟩ := hposts.outgoing l (by rw [hv, hp.gives.links]; exact hl)
      have hback : ∀ o, takenBack l o = s.givenBack d l o := fun o => by rw [← givenBack_eq, ← hleft]
      have hout : (v.link l).outgoing = (s.link l).outgoing.filter fun o => !takenBack l o := by simp only [hlv, hback]
      rw [hlw, hout] at h1
      rw [h1]
      exact ⟨List.prefix_append _ _, by rw [List.drop_left]; exact h2⟩
    · rw [(hp.slot_kept ht).2.2, hp.slot] at hr
      rw [← hlw]
      exact hposts.stands r hr a ha (by rw [hv, hp.gives.links]; exact hl)
    · rw [← hw, hposts.ports, hv, hp.gives.rest]
    · rw [← hpw, hposts.port p ?_, hpv]
      intro x hx e
      obtain ⟨h1, h2⟩ := acceptance_posted hx e
      exact hex.elim (fun h => h h1) fun h => h h2
    · rw [(hp.slot_kept ht).2.2, hp.slot, ← hpw, ← hpv]
      exact hposts.accepts d.exit (by rw [hv, hp.gives.rest]; exact hl) ⟨_, posted_acceptance s cs hex, rfl⟩
    · refine List.IsPrefix.trans ?_ (hp.queue.trans ht.queue)
      rw [hp.counts.rest, hp.locks.rest]
      exact hp.gives.queue
    · rw [ht.rest, hp.rest]
  · intro gone given prior
    have hgone : gone = (s.needOf d).absent := rfl
    clear_value gone
    subst hgone
    have hprior : ∀ j, s.donor d = some j → prior = s.slotRoute j := fun j hj => by simp only [prior, hj]
    have hsecs : ∀ x, x ∉ d.sections → ((x ∈ prior.overlapSecs ∧ given (s.sec x).owner (s.sec x).kind) ↔ s.givesSec d x) := fun x hx => by
      refine (and_congr_right fun _ => absentLock_iff).trans ⟨?_, ?_⟩
      · rintro ⟨hm, j, hj, ho, hk⟩
        exact ⟨j, hj, hprior j hj ▸ hm, hx, ho, hk⟩
      · rintro ⟨j, hj, hm, -, ho, hk⟩
        exact ⟨hprior j hj ▸ hm, j, hj, ho, hk⟩
    have hpts : ∀ x, x ∉ d.points.map Prod.fst →
        ((x ∈ prior.overlapPoints.map Prod.fst ∧ given (s.pt x).owner (s.pt x).kind) ↔ s.givesPt d x) := fun x hx => by
      refine (and_congr_right fun _ => absentLock_iff).trans ⟨?_, ?_⟩
      · rintro ⟨hm, j, hj, ho, hk⟩
        exact ⟨j, hj, hprior j hj ▸ hm, hx, ho, hk⟩
      · rintro ⟨j, hj, hm, -, ho, hk⟩
        exact ⟨hprior j hj ▸ hm, j, hj, ho, hk⟩
    have hdue : (∃ x, s.givesSec d x) ∨ (∃ x, s.givesPt d x) → b.releaseDue = true := fun hg => by
      rw [ht.due]
      exact hp.due (.inl (hp.gives.due hg))
    have hother : ∀ j, s.donor d = some j → j ≠ i := fun j hj e => by
      have hf := ad.free
      rw [← e, donor_live hj] at hf; cases hf
    refine ⟨fun x hx hxd => ?_, fun j hj => ⟨?_, ?_, fun r hr hi o => hp.not_outgoing ht hj (hother j hj) hr hi⟩,
      fun x hx => ⟨fun hm hg => ?_, fun hn => ?_⟩, fun x hx => ⟨fun hm hg => ?_, fun hn => ?_⟩, fun x hx => ?_, fun x hl => ?_,
      fun x hl => ?_, fun x hl => ?_, fun ⟨w, hw, he, h0⟩ => ?_, fun w hw => hp.noted_final ht hw, fun p => mem_flankPorts,
      nodup_eraseDups _ le_rfl⟩
    · rw [ht.slots x hx, hp.slots x hx, hp.gives.slots x hx hxd]
    · rw [ht.slots j (hother j hj), hp.slots j (hother j hj)]
      exact (hp.gives.donor j hj).1
    · have hq : a.slu.noticeQ = c.slu.noticeQ := by rw [hp.counts.rest, hp.locks.rest]
      exact ht.queue.subset (hp.queue.subset (hq ▸ (hp.gives.donor j hj).2))
    · obtain ⟨-, -, -, h4, -⟩ := hp.sec_unused hx
      have hgs := (hsecs x hx).1 ⟨hm, hg⟩
      rw [ht.sec_eq]
      exact ⟨(h4 hgs).1, (h4 hgs).2, hdue (.inl ⟨x, hgs⟩)⟩
    · obtain ⟨-, -, -, -, h5⟩ := hp.sec_unused hx
      rw [ht.sec_eq]
      exact h5 (mt (hsecs x hx).2 hn)
    · have hgs := (hpts x hx).1 ⟨hm, hg⟩
      obtain ⟨h1, h2, h3⟩ := (hp.pt_unused hx).1 hgs
      rw [ht.pt_eq]
      exact ⟨h1, h2, h3, hdue (.inr ⟨x, hgs⟩)⟩
    · rw [ht.pt_eq]
      exact (hp.pt_unused hx).2 (mt (hpts x hx).2 hn)
    · obtain ⟨-, -, h3, -, h5, -⟩ := hp.sig_commanded ht x
      rw [h3, (hp.sig_at x).2.2.2.1, if_neg fun e => hx e.1]
      exact ⟨rfl, h5 hx⟩
    · rw [ht.sec_eq]; exact (hp.sec_reports x).2.2.2 hl
    · rw [ht.pt_eq]; exact hp.pt_claims hl
    · rw [(hp.sig_commanded ht x).2.2.2.1]; exact (hp.sig_at x).2.2.2.2 hl
    · rw [ht.due]
      exact hp.due (.inr ⟨w, hw, he, ((hp.counts_final ht).2.2.2 w).symm.trans h0⟩)

end Sys2Proof.Machine

/-! ### A failed start check leaves the signals as they were -/

namespace Sys2Proof.Machine

/-- A start check runs over a blank stored image while the mode still reads OPERATIONAL and a signal is commanded PROCEED. -/
def clearedInCheck : State :=
  { State.reset with mdc.mode := .operational, est.signals := [{ SignalRec.start with commanded := .proceed }], pending := [.startCheckComplete] }

/-- The same once the check has failed: the mode has left OPERATIONAL, the signal has not left PROCEED. -/
theorem clearedInCheck_fails : ∃ t, step clearedInCheck = .next t ∧ t.mdc.mode = .unconfigured
    ∧ t.est.signals = [{ SignalRec.start with commanded := .proceed }] :=
  ⟨_, rfl, by decide +kernel, by decide +kernel⟩

/-- Refutes O7: its first part asks nothing of a part in its start check, whose failure enters UNCONFIGURED (R18) without a command to
the signals. A start check reached by a start has no signals; the statement ranges over every state. -/
theorem not_signalsStopKept : ¬ Obligations.SignalsStopKept := by
  rintro ⟨h, -⟩
  obtain ⟨t, ht, hm, hs⟩ := clearedInCheck_fails
  have hstop := h clearedInCheck t (fun hne => absurd rfl hne) ht (by rw [hm]; decide) _ (by rw [hs]; exact List.mem_singleton_self _)
  exact absurd hstop (by decide)

end Sys2Proof.Machine

/-! ### What locks and claims hold

The invariants of locks, claims and line directions read of each record only its `hold`; `Quiet` says that an operation leaves the holds of
all records alone. -/

namespace Sys2Proof.Machine

def SectionRec.hold (r : SectionRec) : Option Owner × Nat := (r.owner, r.claims)
def PointRec.hold (r : PointRec) : Option Owner × Option LockKind × Option Pos × Option Pos × Nat :=
  (r.owner, r.kind, r.lockedPos, r.claimPos, r.claims)
def SignalRec.hold (r : SignalRec) : Option Nat × Nat := (r.owner, r.holds)
def Slot.hold (k : Slot) : Option Nat × Option RouteKind × Bool × List ClaimOn :=
  (k.route, k.kind, decide (k.state ≠ .free), k.claims.map Claim.what)
def RemoteEntry.hold (x : RemoteEntry) : Ask × Bool × Option ElemRef × List ClaimOn := (x.ask, x.decided, x.lock, x.claims.map Claim.what)
def Link.hold (k : Link) : List (Option (Ask × Bool × Option ElemRef × List ClaimOn)) := k.table.map (Option.map RemoteEntry.hold)
def Port.hold (q : Port) : View × Bool := (q.view, q.incGranted)

/-- The holds of all records, the active image and the power condition are as they were; the points' movements still agree. -/
structure Quiet (s t : State) : Prop where
  secs : t.est.sections.map SectionRec.hold = s.est.sections.map SectionRec.hold
  pts : t.est.points.map PointRec.hold = s.est.points.map PointRec.hold
  sigs : t.est.signals.map SignalRec.hold = s.est.signals.map SignalRec.hold
  slots : t.rsu.slots.map Slot.hold = s.rsu.slots.map Slot.hold
  links : t.bdu.links.map Link.hold = s.bdu.links.map Link.hold
  ports : t.bdu.ports.map Port.hold = s.bdu.ports.map Port.hold
  image : t.image = s.image
  power : t.mdc.power = s.mdc.power
  agree : s.pointsAgree → t.pointsAgree

namespace Quiet

theorem refl (s : State) : Quiet s s := ⟨rfl, rfl, rfl, rfl, rfl, rfl, rfl, rfl, id⟩

theorem trans {s t u : State} (h : Quiet s t) (k : Quiet t u) : Quiet s u :=
  ⟨k.secs.trans h.secs, k.pts.trans h.pts, k.sigs.trans h.sigs, k.slots.trans h.slots, k.links.trans h.links, k.ports.trans h.ports,
    k.image.trans h.image, k.power.trans h.power, k.agree ∘ h.agree⟩

theorem ite {s t u : State} {c : Prop} [Decidable c] (h : Quiet s t) (k : Quiet s u) : Quiet s (if c then t else u) := by
  split
  · exact h
  · exact k

theorem each {α : Type} (s : State) (l : List α) (f : State → α → State) (h : ∀ t x, Quiet t (f t x)) : Quiet s (s.each l f) := by
  suffices ∀ t, Quiet s t → Quiet s (l.foldl f t) from this s (refl s)
  induction l with
  | nil => exact fun t ht => ht
  | cons x l ih => exact fun t ht => ih _ (ht.trans (h t x))

end Quiet

theorem map_modify_of_eq {α β : Type} (g : α → β) (f : α → α) (h : ∀ a, g (f a) = g a) (l : List α) (i : Nat) :
    (l.modify i f).map g = l.map g := by
  refine List.ext_getElem (by simp) fun k hk hl => ?_
  simp only [List.getElem_map, List.getElem_modify]
  split
  · exact h _
  · rfl

/-! #### Writing records -/

namespace Quiet
variable (s : State)

theorem modSec (k : Nat) {f : SectionRec → SectionRec} (h : ∀ r, (f r).hold = r.hold := by intro _; rfl) : Quiet s (s.modSec k f) :=
  { refl s with secs := map_modify_of_eq _ _ h _ _ }

/-- A point's movement changes, its lock and its claims do not. -/
theorem modPt (k : Nat) {f : PointRec → PointRec} (h : ∀ r, (f r).hold = r.hold) (ha : ∀ r, r.agreeing → (f r).agreeing) :
    Quiet s (s.modPt k f) :=
  { refl s with
    pts := map_modify_of_eq _ _ h _ _
    agree := fun hs r hr => by
      obtain ⟨j, hj, rfl⟩ := List.mem_iff_getElem.1 hr
      have hj' : j < s.est.points.length := by simpa [State.modPt] using hj
      simp only [State.modPt, List.getElem_modify]
      split
      · exact ha _ (hs _ (List.getElem_mem hj'))
      · exact hs _ (List.getElem_mem hj') }

theorem modSig (k : Nat) {f : SignalRec → SignalRec} (h : ∀ r, (f r).hold = r.hold := by intro _; rfl) : Quiet s (s.modSig k f) :=
  { refl s with sigs := map_modify_of_eq _ _ h _ _ }

theorem modSlot (i : Nat) {f : Slot → Slot} (h : ∀ r, (f r).hold = r.hold := by intro _; rfl) : Quiet s (s.modSlot i f) :=
  { refl s with slots := map_modify_of_eq _ _ h _ _ }

theorem modLink (l : Nat) {f : Link → Link} (h : ∀ r, (f r).hold = r.hold := by intro _; rfl) : Quiet s (s.modLink l f) :=
  { refl s with links := map_modify_of_eq _ _ h _ _ }

theorem modPort (p : Nat) {f : Port → Port} (h : ∀ r, (f r).hold = r.hold := by intro _; rfl) : Quiet s (s.modPort p f) :=
  { refl s with ports := map_modify_of_eq _ _ h _ _ }

theorem modCtrl (a : Nat) (f : Ctrl → Ctrl) : Quiet s (s.modCtrl a f) := { refl s with }
theorem setHolder (a : Nat) (h : Holder) : Quiet s (s.setHolder a h) := { refl s with }
theorem setRx (x : Rx) : Quiet s (s.setRx x) := { refl s with }
theorem respond (f : Frame) : Quiet s (s.respond f) := { refl s with }
theorem leaveStore (n : Nat) (r : Removal) : Quiet s (s.leaveStore n r) := { refl s with }
theorem releaseEvent : Quiet s s.releaseEvent := { refl s with }
theorem note (r : Ref) : Quiet s (s.note r) := by rw [note_eq]; exact { refl s with }
theorem setGate (o : Originator) (g : Option Gate) : Quiet s (s.setGate o g) := by cases o <;> exact { refl s with }
theorem setAspect (k : Nat) (a : Aspect) : Quiet s (s.setAspect k a) := modSig s k
theorem stopEntry (i : Nat) : Quiet s (s.stopEntry i) := ite (setAspect s _ _) (refl s)
theorem refreshPending (i : Nat) : Quiet s (s.refreshPending i) := modSlot s i

/-! #### Points -/

theorem beginMove (k : Nat) (p : Pos) : Quiet s (s.beginMove k p) := modPt s k (fun _ => rfl) fun _ _ => ⟨rfl, rfl⟩
theorem moveIfOther (k : Nat) (p : Pos) : Quiet s (s.moveIfOther k p) := ite (beginMove s k p) (refl s)

theorem beginClaimMoves (cs : List Claim) : Quiet s (s.beginClaimMoves cs) := by
  rw [beginClaimMoves_eq]
  exact each s _ _ fun t q => moveIfOther t _ _

/-! #### Queues -/

theorem faultReport (f : Faults) (h : Option (Nat × Nat × Nat)) : Quiet s (s.faultReport f h) := ite (refl s) (respond s _)
theorem enqueue (q : QCmd) : Quiet s (s.enqueue q) := ite (faultReport s _ _) { refl s with }

theorem arbiter : Quiet s s.arbiter := by
  obtain ⟨a, b, c, d, h⟩ := arbiter_keeps s
  rw [h]; exact { refl s with }

end Quiet
end Sys2Proof.Machine

/-! ### The operations that leave locks, claims and views alone -/

namespace Sys2Proof.Machine

/-! #### Points in agreement (R29 to R31) -/

theorem PointRec.report_hold (r : PointRec) (x : Option Pos) : (r.report x).hold = r.hold := by
  unfold PointRec.report PointRec.reportStill
  cases x <;> simp only [] <;> (repeat' split) <;> rfl

theorem rest_agreeing {r : PointRec} {p : Pos} (hp : r.pos = p.rest) (hc : r.commanded = some p) (ht : r.throwMs = none) : r.agreeing := by
  cases p <;> simp only [PointRec.agreeing, hp, Pos.rest, hc, ht, and_self]

theorem lost_agreeing {r : PointRec} (hp : r.pos = .lost) (hc : r.commanded = none) (ht : r.throwMs = none) : r.agreeing := by
  simp only [PointRec.agreeing, hp, hc, ht, and_self]

/-- Only a moving point's timer runs. -/
theorem throwMs_of_agreeing {r : PointRec} (h : r.agreeing) (hm : r.pos ≠ .moving) : r.throwMs = none := by
  unfold PointRec.agreeing at h
  cases hp : r.pos <;> rw [hp] at h
  · exact h.2
  · exact h.2
  · exact absurd hp hm
  · exact h.2

theorem PointRec.agreeing_congr {r r' : PointRec} (hp : r'.pos = r.pos) (hc : r'.commanded = r.commanded) (ht : r'.throwMs = r.throwMs) :
    r'.agreeing ↔ r.agreeing := by
  unfold PointRec.agreeing
  rw [hp, hc, ht]

theorem PointRec.reportStill_agreeing {r : PointRec} (h : r.agreeing) (hm : r.pos ≠ .moving) (x : Option Pos) :
    (r.reportStill x).agreeing := by
  have ht := throwMs_of_agreeing h hm
  have hr : ∀ l d, PointRec.agreeing { r with last := l, detectionLost := d } := fun _ _ => (agreeing_congr rfl rfl rfl).2 h
  unfold PointRec.reportStill
  cases x with
  | none =>
    simp only []
    split
    · exact hr _ _
    · split
      · exact hr _ _
      · exact lost_agreeing rfl rfl ht
  | some y =>
    simp only []
    split
    · split
      · exact rest_agreeing rfl rfl ht
      · exact hr _ _
    · split
      · exact hr _ _
      · exact lost_agreeing rfl rfl ht

theorem PointRec.report_agreeing {r : PointRec} (h : r.agreeing) (x : Option Pos) : (r.report x).agreeing := by
  have hr : ∀ l, PointRec.agreeing { r with last := l } := fun _ => (agreeing_congr rfl rfl rfl).2 h
  unfold PointRec.report
  split
  · cases x with
    | none => exact hr _
    | some p =>
      simp only []
      split
      · exact rest_agreeing rfl ‹_› rfl
      · exact hr _
  · exact reportStill_agreeing h ‹_› x

theorem PointRec.tick_agreeing {r : PointRec} (h : r.agreeing) : r.tick.agreeing := by
  have hf : (fall r.throwMs).isSome = r.throwMs.isSome := by cases r.throwMs <;> rfl
  have hn : fall r.throwMs = none ↔ r.throwMs = none := by cases r.throwMs <;> simp [fall]
  unfold PointRec.agreeing at h ⊢
  unfold PointRec.tick
  cases hp : r.pos <;> rw [hp] at h <;> simp only [hf, hn] <;> exact h

theorem SectionRec.report_hold (r : SectionRec) (x : Occ) : (r.report x).hold = r.hold := by
  unfold SectionRec.report
  cases r.occ <;> cases x <;> simp only [] <;> (try split) <;> rfl

namespace Quiet
variable (s : State)

/-! #### The field bus -/

theorem reportPoint (k : Nat) (x : Option Pos) : Quiet s (s.reportPoint k x) := by
  have h := modPt s k (f := fun r => r.report x) (fun r => r.report_hold x) fun r hr => r.report_agreeing hr x
  exact ite (h.trans (releaseEvent _)) h

theorem losePoint (k : Nat) : Quiet s (s.losePoint k) := by
  have h := modPt s k (f := PointRec.lose) (fun _ => rfl) fun _ _ => lost_agreeing rfl rfl rfl
  exact ite (h.trans (releaseEvent _)) h

theorem takeReports (a : Nat) (codes : List Nat) : Quiet s (s.takeReports a codes) :=
  ((each s _ _ fun t k => modSec t k fun r => r.report_hold _).trans (each _ _ _ fun t k => reportPoint t k _)).trans
    (each _ _ _ fun t k => modSig t k)

theorem loseController (a : Nat) : Quiet s (s.loseController a) :=
  (((modCtrl s a _).trans (each _ _ _ fun t k => modSec t k)).trans (each _ _ _ fun t k => losePoint t k)).trans
    (each _ _ _ fun t k => modSig t k)

theorem loseUnknown : Quiet s s.loseUnknown := each s _ _ fun t a => loseController t a

theorem missPoll (a : Nat) : Quiet s (s.missPoll a) := by
  unfold State.missPoll
  simp only
  split
  · exact ite ((modCtrl s a _).trans (loseController _ a)) (modCtrl s a _)
  · exact modCtrl s a _

theorem missAnswer : Quiet s s.missAnswer := by
  unfold State.missAnswer
  split
  · exact missPoll s _
  · exact refl s

theorem takeAnswer (bs : List Byte) : Quiet s (s.takeAnswer bs) := by
  unfold State.takeAnswer
  split
  · exact ite ((modCtrl s _ _).trans (takeReports _ _ _)) (missPoll s _)
  · exact refl s

theorem sendPoll : Quiet s s.sendPoll := by
  unfold State.sendPoll
  split
  · exact { refl s with }
  · exact refl s

theorem endPoll : Quiet s s.endPoll := { refl s with }

theorem throwExpiry (k : Nat) : Quiet s (s.throwExpiry k) :=
  ite (refl s) ((modPt s k (by intro _; rfl) (by intro r hr; exact lost_agreeing rfl rfl rfl)).trans (releaseEvent _))

theorem expireEntry (n : Nat) : Quiet s (s.expireEntry n) := ite ((leaveStore s n _).trans (note _ _)) (refl s)

/-! #### Marks, causes, aspects, requests of a slot -/

theorem watchClaims (old : State) (i : Nat) : Quiet s (Machine.watchClaims old s i) := by
  have h : Quiet s (s.modSlot i fun k => { k with claims := (s.slot i).claims.map fun c => c.watch (s.intact i c.what) }) :=
    { refl s with
      slots := by
        refine List.ext_getElem (by simp [State.modSlot]) fun j hj hl => ?_
        simp only [State.modSlot, List.getElem_map, List.getElem_modify]
        split
        · rename_i e
          subst e
          have hs : s.slot i = s.rsu.slots[i]'(by simpa using hl) := by
            rw [State.slot, List.getD_eq_getElem?_getD, List.getElem?_eq_getElem, Option.getD_some]
          simp only [Slot.hold, List.map_map, hs]
          rfl
        · rfl }
  unfold Machine.watchClaims
  simp only
  split
  · exact h.trans (note _ _)
  · exact h

theorem markUnexpected (i k : Nat) : Quiet s (s.markUnexpected i k) :=
  ((modSlot s i).trans (modSec _ k)).trans (note _ _)

theorem markSequence (i k : Nat) : Quiet s (s.markSequence i k) :=
  ((modSlot s i).trans (modSec _ k)).trans (note _ _)

theorem markVanished (i k : Nat) : Quiet s (s.markVanished i k) :=
  ((modSlot s i).trans (modSec _ k)).trans (note _ _)

theorem markPassed (i : Nat) : Quiet s (s.markPassed i) := (modSlot s i).trans (note _ _)

theorem markOccupied (old : State) (i : Nat) (l : List Nat) : Quiet s (Machine.markOccupied old s i l) :=
  each s _ _ fun t k => markUnexpected t i k

theorem tryVanished (old : State) (i : Nat) (d : RouteDef) (h : Nat) : Quiet s (Machine.tryVanished old s i d h) := by
  unfold Machine.tryVanished
  split
  · exact markVanished s i _
  · exact refl s

theorem withdraw (i : Nat) (r : RemoteReq) : Quiet s (s.withdraw i r) := by
  unfold State.withdraw
  split
  · refine modPort s _ fun q => ?_
    split <;> rfl
  · exact modLink s _

theorem writeAnswer (i l tag : Nat) (a : Option AnsStatus) : Quiet s (s.writeAnswer i l tag a) := modSlot s i

theorem takeAccAns (p : Nat) (a : AccAns) (tag : Option Nat) : Quiet s (s.takeAccAns p a tag) := by
  have h := modPort s p (f := fun q => { q with nbAcc := a, nbAccTag := if a = .none then none else tag }) fun _ => rfl
  unfold State.takeAccAns
  simp only
  split
  · exact h.trans (writeAnswer _ _ _ _ _)
  · exact h

theorem takeAnswers (l : Nat) (as : List AnsItem) : Quiet s (s.takeAnswers l as) := each s _ _ fun t _ => writeAnswer t _ _ _ _

/-! #### Telegrams and notices -/

theorem noteSequence (l seq : Nat) : Quiet s (s.noteSequence l seq) := modLink s l
theorem send (l : Nat) : Quiet s (s.send l) := modLink s l
theorem sendChanges : Quiet s s.sendChanges := each s _ _ fun t l => ite (send t l) (refl t)
theorem noteIf (n : Nat) (c : Nat → Bool) (r : Nat → Ref) : Quiet s (s.noteIf n c r) := each s _ _ fun t _ => note t _
theorem noteAll : Quiet s s.noteAll := each s _ _ fun t r => note t r

theorem noteChanges (old : State) : Quiet s (Machine.noteChanges old s) :=
  (((((((noteIf s _ _ .sect).trans (noteIf _ _ _ .point)).trans (noteIf _ _ _ .signal)).trans (noteIf _ _ _ .port)).trans
    (noteIf _ _ _ .link)).trans (noteIf _ _ _ .slot)).trans (ite (note _ .store) (refl _))).trans (ite (note _ .system) (refl _))

theorem watchTables : Quiet s s.watchTables := by
  have hx : ∀ x, (s.watchEntry x).hold = x.hold := fun x => by
    have hc : ∀ x : RemoteEntry, (x.claims.map fun c => if x.beenGranted then c.watch (s.elemIntact c.what) else c.seen (s.elemIntact c.what)).map
        Claim.what = x.claims.map Claim.what := fun x => by
      rw [List.map_map]
      refine List.map_congr_left fun c _ => ?_
      simp only [Function.comp_apply]
      split <;> rfl
    have hy := hc x
    unfold State.watchEntry
    simp only
    split
    · simp only [RemoteEntry.hold, hy]
    · split
      · split
        · simp only [RemoteEntry.hold, hy]
        · simp only [RemoteEntry.hold, hy]
      · split
        · simp only [RemoteEntry.hold, hy]
        · simp only [RemoteEntry.hold, hy]
      · simp only [RemoteEntry.hold, hy]
  have hl : ∀ k : Link, Link.hold { k with table := k.table.map fun x => x.map s.watchEntry } = k.hold := fun k => by
    simp only [Link.hold, List.map_map]
    refine List.map_congr_left fun x _ => ?_
    cases x with
    | none => rfl
    | some y => simp only [Function.comp_apply, Option.map_some, hx]
  exact { refl s with
    links := by
      simp only [State.watchTables, List.map_map]
      exact List.map_congr_left fun k _ => hl k }

/-! #### The clock -/

theorem tick : Quiet s s.tick := by
  unfold State.tick
  refine ite (refl s) ?_
  exact { refl s with
    pts := by
      simp only [List.map_map]
      exact List.map_congr_left fun _ _ => rfl
    slots := by
      simp only [List.map_map]
      exact List.map_congr_left fun _ _ => rfl
    links := by
      simp only [List.map_map]
      exact List.map_congr_left fun _ _ => rfl
    agree := fun h r hr => by
      simp only [List.mem_map] at hr
      obtain ⟨r', hr', rfl⟩ := hr
      exact r'.tick_agreeing (h r' hr') }

end Quiet
end Sys2Proof.Machine

/-! ### Reading the holds -/

namespace Sys2Proof.Machine

/-- A statement true of the default record holds of all records of a list exactly if it holds at every index. -/
theorem forall_mem_iff_getD {α : Type} {P : α → Prop} {d : α} (hd : P d) (l : List α) : (∀ r ∈ l, P r) ↔ ∀ k, P (l.getD k d) := by
  refine ⟨fun h k => ?_, fun h r hr => ?_⟩
  · by_cases hk : k < l.length
    · rw [List.getD_eq_getElem _ _ hk]; exact h _ (List.getElem_mem hk)
    · rw [List.getD_eq_default _ _ (not_lt.1 hk)]; exact hd
  · obtain ⟨k, hk, rfl⟩ := List.mem_iff_getElem.1 hr
    have := h k
    rwa [List.getD_eq_getElem _ _ hk] at this

theorem getD_of_map_eq {α β : Type} {f : α → β} {l l' : List α} (h : l'.map f = l.map f) (k : Nat) (d : α) :
    f (l'.getD k d) = f (l.getD k d) := by
  rw [← List.getD_map (f := f), ← List.getD_map (f := f), h]

theorem length_of_map_eq {α β : Type} {f : α → β} {l l' : List α} (h : l'.map f = l.map f) : l'.length = l.length := by
  simpa using congrArg List.length h

theorem slotRoute_congr {s t : State} {i : Nat} (hr : (t.slot i).route = (s.slot i).route) (hi : t.image = s.image) :
    t.slotRoute i = s.slotRoute i := by
  unfold State.slotRoute State.routeDef?
  rw [hr, hi]

namespace Quiet
variable {s t : State} (h : Quiet s t)
include h

theorem sec_hold (k : Nat) : (t.sec k).hold = (s.sec k).hold := getD_of_map_eq h.secs k _
theorem pt_hold (k : Nat) : (t.pt k).hold = (s.pt k).hold := getD_of_map_eq h.pts k _
theorem sig_hold (k : Nat) : (t.sig k).hold = (s.sig k).hold := getD_of_map_eq h.sigs k _
theorem slot_hold (i : Nat) : (t.slot i).hold = (s.slot i).hold := getD_of_map_eq h.slots i _
theorem link_hold (l : Nat) : (t.link l).hold = (s.link l).hold := getD_of_map_eq h.links l _
theorem port_hold (p : Nat) : (t.port p).hold = (s.port p).hold := getD_of_map_eq h.ports p _

theorem sections_length : t.est.sections.length = s.est.sections.length := length_of_map_eq h.secs
theorem points_length : t.est.points.length = s.est.points.length := length_of_map_eq h.pts
theorem signals_length : t.est.signals.length = s.est.signals.length := length_of_map_eq h.sigs
theorem slots_length : t.rsu.slots.length = s.rsu.slots.length := length_of_map_eq h.slots
theorem links_length : t.bdu.links.length = s.bdu.links.length := length_of_map_eq h.links
theorem table_length (l : Nat) : (t.link l).table.length = (s.link l).table.length := length_of_map_eq (h.link_hold l)

theorem route (i : Nat) : (t.slot i).route = (s.slot i).route := congrArg Prod.fst (h.slot_hold i)
theorem kind (i : Nat) : (t.slot i).kind = (s.slot i).kind := congrArg (fun x => x.2.1) (h.slot_hold i)
theorem live (i : Nat) : t.live i = s.live i := congrArg (fun x => x.2.2.1) (h.slot_hold i)
theorem claims (i : Nat) : (t.slot i).claims.map Claim.what = (s.slot i).claims.map Claim.what := congrArg (fun x => x.2.2.2) (h.slot_hold i)
theorem slotRoute (i : Nat) : t.slotRoute i = s.slotRoute i := slotRoute_congr (h.route i) h.image

theorem claims_nil (i : Nat) : (t.slot i).claims = [] ↔ (s.slot i).claims = [] := by
  rw [← List.map_eq_nil_iff (f := Claim.what), h.claims, List.map_eq_nil_iff]

theorem entry (l e : Nat) : (t.entry l e).map RemoteEntry.hold = (s.entry l e).map RemoteEntry.hold := by
  unfold State.entry
  exact getD_of_map_eq (h.link_hold l) e none

/-- An entry after the operation stood before, with the same hold. -/
theorem entry_some {l e : Nat} {x : RemoteEntry} (hx : t.entry l e = some x) : ∃ y, s.entry l e = some y ∧ x.hold = y.hold := by
  have := h.entry l e
  rw [hx] at this
  obtain ⟨y, hy, he⟩ := Option.map_eq_some_iff.1 this.symm
  exact ⟨y, hy, he.symm⟩

end Quiet

/-! #### All claim entries -/

theorem mem_allClaims {s : State} {w : ClaimOn} : w ∈ s.allClaims ↔ (∃ i, w ∈ (s.slot i).claims.map Claim.what)
    ∨ ∃ l e x, s.entry l e = some x ∧ w ∈ x.claims.map Claim.what := by
  unfold State.allClaims
  rw [List.mem_append, List.mem_flatMap, List.mem_flatMap]
  refine or_congr ⟨fun ⟨k, hk, hw⟩ => ?_, fun ⟨i, hw⟩ => ?_⟩ ⟨fun ⟨k, hk, hw⟩ => ?_, fun ⟨l, e, x, hx, hw⟩ => ?_⟩
  · obtain ⟨i, hi, rfl⟩ := List.mem_iff_getElem.1 hk
    exact ⟨i, by rwa [State.slot, List.getD_eq_getElem _ _ hi]⟩
  · by_cases hi : i < s.rsu.slots.length
    · rw [State.slot, List.getD_eq_getElem _ _ hi] at hw
      exact ⟨_, List.getElem_mem hi, hw⟩
    · rw [State.slot, List.getD_eq_default _ _ (not_lt.1 hi)] at hw
      cases hw
  · obtain ⟨l, hl, rfl⟩ := List.mem_iff_getElem.1 hk
    obtain ⟨y, hy, hw⟩ := List.mem_flatMap.1 hw
    obtain ⟨e, he, rfl⟩ := List.mem_iff_getElem.1 hy
    cases hx : s.bdu.links[l].table[e] with
    | none => rw [hx] at hw; cases hw
    | some x =>
      rw [hx] at hw
      refine ⟨l, e, x, ?_, hw⟩
      rw [State.entry, State.link, List.getD_eq_getElem _ _ hl, List.getD_eq_getElem _ _ he, hx]
  · by_cases hl : l < s.bdu.links.length
    · refine ⟨_, List.getElem_mem hl, List.mem_flatMap.2 ⟨some x, ?_, hw⟩⟩
      rw [State.entry, State.link, List.getD_eq_getElem _ _ hl] at hx
      by_cases he : e < s.bdu.links[l].table.length
      · rw [List.getD_eq_getElem _ _ he] at hx
        exact hx ▸ List.getElem_mem he
      · rw [List.getD_eq_default _ _ (not_lt.1 he)] at hx; cases hx
    · rw [State.entry, State.link, List.getD_eq_default _ _ (not_lt.1 hl)] at hx
      have hn : ∀ e, Link.start.table.getD e none = none := fun e => by
        by_cases he : e < 16
        · exact (List.getD_eq_getElem _ _ (by simpa [Link.start] using he)).trans (List.getElem_replicate _)
        · exact List.getD_eq_default _ _ (by simpa [Link.start] using he)
      rw [hn] at hx; cases hx

/-- The claims of one slot of a list of slots change, the others stay. -/
theorem countOn_flatMap_set {α : Type} (f : α → List ClaimOn) (l : List α) (i : Nat) (hi : i < l.length) (a : α) (e : ElemRef) :
    countOn ((l.set i a).flatMap f) e + countOn (f l[i]) e = countOn (l.flatMap f) e + countOn (f a) e := by
  induction l generalizing i with
  | nil => cases hi
  | cons b l ih =>
    cases i with
    | zero => simp only [List.set_cons_zero, List.flatMap_cons, countOn_append, List.getElem_cons_zero]; omega
    | succ i =>
      have := ih i (Nat.lt_of_succ_lt_succ hi)
      simp only [List.set_cons_succ, List.flatMap_cons, countOn_append, List.getElem_cons_succ]; omega

/-- The claims of a slot's list. -/
def State.slotClaims (s : State) : List ClaimOn := s.rsu.slots.flatMap fun k => k.claims.map Claim.what

/-- The claims of the entries of a link's table. -/
def Link.claims (k : Link) : List ClaimOn := k.table.flatMap fun x => (x.map fun y => y.claims.map Claim.what).getD []

/-- The claims of all remote claim entries. -/
def State.tableClaims (s : State) : List ClaimOn := s.bdu.links.flatMap Link.claims

theorem allClaims_eq (s : State) : s.allClaims = s.slotClaims ++ s.tableClaims := rfl

theorem slotClaims_congr {s t : State} (h : t.rsu.slots.map Slot.hold = s.rsu.slots.map Slot.hold) : t.slotClaims = s.slotClaims := by
  have hf : ∀ u : State, u.slotClaims = (u.rsu.slots.map Slot.hold).flatMap fun x => x.2.2.2 := fun u => by
    rw [List.flatMap_map]; rfl
  rw [hf, hf, h]

theorem tableClaims_congr {s t : State} (h : t.bdu.links.map Link.hold = s.bdu.links.map Link.hold) : t.tableClaims = s.tableClaims := by
  have hf : ∀ u : State, u.tableClaims = (u.bdu.links.map Link.hold).flatMap fun x => x.flatMap fun y => (y.map fun z => z.2.2.2).getD [] :=
    fun u => by
      rw [List.flatMap_map]
      refine congrArg (fun f => List.flatMap f u.bdu.links) (funext fun k => ?_)
      rw [Link.hold, List.flatMap_map]
      refine congrArg (fun f => List.flatMap f k.table) (funext fun x => ?_)
      cases x <;> rfl
  rw [hf, hf, h]

theorem Quiet.allClaims {s t : State} (h : Quiet s t) : t.allClaims = s.allClaims := by
  rw [allClaims_eq, allClaims_eq, slotClaims_congr h.slots, tableClaims_congr h.links]

/-- Only slot `i` has another list. -/
theorem slotClaims_count {s t : State} {i : Nat} (hi : i < s.rsu.slots.length) (hl : t.rsu.slots.length = s.rsu.slots.length)
    (h : ∀ j, j ≠ i → t.slot j = s.slot j) (e : ElemRef) : countOn t.slotClaims e + countOn ((s.slot i).claims.map Claim.what) e
      = countOn s.slotClaims e + countOn ((t.slot i).claims.map Claim.what) e := by
  have hset : t.rsu.slots = s.rsu.slots.set i (t.slot i) := by
    refine List.ext_getElem (by simpa using hl) fun j hj hj' => ?_
    rw [List.getElem_set]
    have ht : t.rsu.slots[j] = t.slot j := (List.getD_eq_getElem _ Slot.start hj).symm
    split
    · subst_vars; exact ht
    · rename_i hne
      have hs : s.slot j = s.rsu.slots[j]'(hl ▸ hj) := List.getD_eq_getElem _ Slot.start _
      rw [ht, h j (Ne.symm hne), hs]
  have hs : s.slot i = s.rsu.slots[i] := List.getD_eq_getElem _ Slot.start hi
  rw [State.slotClaims, hset, hs]
  exact countOn_flatMap_set _ _ i hi _ e

/-- The entry `e` of link `l` is written. -/
theorem tableClaims_setEntry {s : State} {l e : Nat} (hl : l < s.bdu.links.length) (he : e < (s.link l).table.length)
    (x : Option RemoteEntry) (r : ElemRef) :
    countOn (s.setEntry l e x).tableClaims r + countOn (((s.entry l e).map fun y => y.claims.map Claim.what).getD []) r
      = countOn s.tableClaims r + countOn ((x.map fun y => y.claims.map Claim.what).getD []) r := by
  have hlink : s.link l = s.bdu.links[l] := List.getD_eq_getElem _ Link.start hl
  have hset : (s.setEntry l e x).bdu.links = s.bdu.links.set l { s.link l with table := (s.link l).table.set e x } := by
    rw [hlink]
    exact (List.modify_eq_set _ _ _).trans (by rw [List.getElem?_eq_getElem hl]; rfl)
  have h1 := countOn_flatMap_set Link.claims s.bdu.links l hl { s.link l with table := (s.link l).table.set e x } r
  have hentry : s.entry l e = (s.link l).table[e] := List.getD_eq_getElem _ none he
  have h2 := countOn_flatMap_set (fun x : Option RemoteEntry => (x.map fun y => y.claims.map Claim.what).getD []) (s.link l).table e he x r
  rw [State.tableClaims, hset, hentry]
  rw [← hlink] at h1
  unfold State.tableClaims
  change countOn _ r + countOn (s.link l).claims r = _ at h1
  have h3 : Link.claims { s.link l with table := (s.link l).table.set e x } = ((s.link l).table.set e x).flatMap
    fun x => (x.map fun y => y.claims.map Claim.what).getD [] := rfl
  have h4 : (s.link l).claims = (s.link l).table.flatMap fun x => (x.map fun y => y.claims.map Claim.what).getD [] := rfl
  rw [← h3, ← h4] at h2
  omega

theorem setEntry_entry (s : State) (l e : Nat) (x : Option RemoteEntry) (l' e' : Nat) : (s.setEntry l e x).entry l' e' =
    if l = l' ∧ e = e' ∧ l < s.bdu.links.length ∧ e < (s.link l).table.length then x else s.entry l' e' := by
  have hlink : (s.setEntry l e x).link l' = if l = l' ∧ l' < s.bdu.links.length then
      { s.link l' with table := (s.link l').table.set e x } else s.link l' := getD_modify_eq _ _ _ _ _
  unfold State.entry
  rw [hlink]
  by_cases hl : l = l' ∧ l' < s.bdu.links.length
  · rw [if_pos hl]
    obtain ⟨rfl, hl⟩ := hl
    by_cases he : e = e' ∧ e < (s.link l).table.length
    · obtain ⟨rfl, he⟩ := he
      rw [if_pos ⟨rfl, rfl, hl, he⟩, List.getD_eq_getElem _ _ (by simpa using he), List.getElem_set_self]
    · rw [if_neg (fun h : l = l ∧ e = e' ∧ _ ∧ _ => he ⟨h.2.1, h.2.2.2⟩), List.getD_eq_getElem?_getD, List.getElem?_set,
        List.getD_eq_getElem?_getD]
      split
      · rename_i hee
        subst hee
        rw [if_neg fun h => he ⟨rfl, h⟩, List.getElem?_eq_none (not_lt.1 fun h => he ⟨rfl, h⟩)]
      · rfl
  · rw [if_neg hl, if_neg (fun h : l = l' ∧ _ => hl ⟨h.1, h.1 ▸ h.2.2.1⟩)]

end Sys2Proof.Machine

/-! ### The changes of locks, claims and views

Every act is a chain of the changes below; an invariant that each of them keeps is kept by every step. -/

namespace Sys2Proof.Machine

theorem map_eq_of_getD {α β : Type} {f : α → β} {l l' : List α} {d : α} (hl : l'.length = l.length)
    (h : ∀ k, f (l'.getD k d) = f (l.getD k d)) : l'.map f = l.map f := by
  refine List.ext_getElem (by simpa using hl) fun k hk hk' => ?_
  have hk1 : k < l'.length := by simpa using hk
  have hk2 : k < l.length := by simpa using hk'
  have := h k
  rw [List.getD_eq_getElem _ _ hk1, List.getD_eq_getElem _ _ hk2] at this
  simpa using this

/-- Slot `i` has given up `g` and its record is `x`; no other hold changes. -/
structure Yields (s : State) (i : Nat) (g : Loss) (x : Slot) (t : State) : Prop where
  secFreed : ∀ k, g.secs k → t.sec k = (s.sec k).unlocked.less (countOn g.claims ⟨.sect, k⟩)
  secKept : ∀ k, ¬g.secs k → t.sec k = (s.sec k).less (countOn g.claims ⟨.sect, k⟩)
  ptFreed : ∀ k, g.pts k → t.pt k = (s.pt k).unlocked.less (countOn g.claims ⟨.point, k⟩)
  ptKept : ∀ k, ¬g.pts k → t.pt k = (s.pt k).less (countOn g.claims ⟨.point, k⟩)
  sigFreed : ∀ k, g.sigs k → t.sig k = (s.sig k).unlocked.less (countOn g.claims ⟨.signal, k⟩)
  sigKept : ∀ k, ¬g.sigs k → t.sig k = (s.sig k).less (countOn g.claims ⟨.signal, k⟩)
  room : i < s.rsu.slots.length
  slot : t.slot i = x
  slots : ∀ j, j ≠ i → t.slot j = s.slot j
  slotsLength : t.rsu.slots.length = s.rsu.slots.length
  sections : t.est.sections.length = s.est.sections.length
  points : t.est.points.length = s.est.points.length
  signals : t.est.signals.length = s.est.signals.length
  links : t.bdu.links.map Link.hold = s.bdu.links.map Link.hold
  ports : t.bdu.ports.map Port.hold = s.bdu.ports.map Port.hold
  image : t.image = s.image
  power : t.mdc.power = s.mdc.power

theorem Freed.yields {s t : State} {i : Nat} {g : Loss} {x : Slot} (h : Freed s i g x t) (hi : i < s.rsu.slots.length) :
    Yields s i g x t where
  secFreed := h.secFreed
  secKept := h.secKept
  ptFreed := h.ptFreed
  ptKept := h.ptKept
  sigFreed := h.sigFreed
  sigKept := h.sigKept
  room := hi
  slot := h.slot
  slots := h.slots
  slotsLength := h.slotsLength
  sections := h.sections
  points := h.points
  signals := h.signals
  links := map_eq_of_getD (d := Link.start) h.links fun l => show (t.link l).hold = (s.link l).hold by rw [h.link l]; rfl
  ports := map_eq_of_getD (d := Port.start) h.ports fun p => show (t.port p).hold = (s.port p).hold by rw [h.port p]; rfl
  image := by rw [h.rest]; rfl
  power := by rw [h.rest]

/-- What slot `i` gives up is its own, and what its record keeps is what it had. -/
structure Given (s : State) (i : Nat) (g : Loss) (x : Slot) : Prop where
  secs : ∀ k, g.secs k → (s.sec k).owner = some (.slot i)
  pts : ∀ k, g.pts k → (s.pt k).owner = some (.slot i)
  route : x.route = (s.slot i).route
  kind : x.kind = (s.slot i).kind
  claims : ∀ e, countOn g.claims e + countOn (x.claims.map Claim.what) e = countOn ((s.slot i).claims.map Claim.what) e
  kept : ∀ w ∈ x.claims.map Claim.what, w ∈ (s.slot i).claims.map Claim.what
  live : x.state ≠ .free → s.live i = true
  ended : x.state = .free → x.claims = [] ∧ (∀ k, (s.sec k).owner = some (.slot i) → g.secs k)
    ∧ (∀ k, (s.pt k).owner = some (.slot i) → g.pts k) ∧ ∀ k, (s.sig k).owner = some i → g.sigs k

/-- Where a route's elements are locked, its points are no neighbour's, and what is claimed of them is claimed in the route's positions. -/
structure Lockable (s : State) (i : Nat) (d : RouteDef) : Prop where
  live : s.live i = true
  route : s.slotRoute i = d
  own : ∀ q ∈ d.points, ∀ l e, (s.pt q.1).owner ≠ some (.remote l e)
  agree : s.positionsAgree → ∀ q ∈ d.points, (s.pt q.1).claims ≠ 0 → (s.pt q.1).claimPos = some q.2

/-- Entries that may be placed: they ask the position a point is locked or claimed in, one position of each point, and there is room. -/
structure Fits (s : State) (ws : List ClaimOn) : Prop where
  agree : s.positionsAgree → ∀ k p, ClaimOn.point k p ∈ ws → ((s.pt k).owner ≠ none → (s.pt k).lockedPos = some p)
    ∧ ((s.pt k).claims ≠ 0 → (s.pt k).claimPos = some p)
  single : ∀ k p q, ClaimOn.point k p ∈ ws → ClaimOn.point k q ∈ ws → p = q
  sec : ∀ k, countOn ws ⟨.sect, k⟩ ≠ 0 → (s.sec k).claims + countOn ws ⟨.sect, k⟩ ≤ 48
  pt : ∀ k, countOn ws ⟨.point, k⟩ ≠ 0 → (s.pt k).claims + countOn ws ⟨.point, k⟩ ≤ 48
  sig : ∀ k, countOn ws ⟨.signal, k⟩ ≠ 0 → (s.sig k).holds + countOn ws ⟨.signal, k⟩ ≤ 48

/-- The entry is free, or stands undecided. -/
def State.vacant (s : State) (l e : Nat) : Prop := ∀ x, s.entry l e = some x → x.decided = false

/-- What the entry holds of a point is locked for it already, in the position it asks. -/
structure Enterable (s : State) (l e : Nat) (x : RemoteEntry) : Prop where
  link : l < s.bdu.links.length
  place : e < (s.link l).table.length
  vacant : s.vacant l e
  lock : ∀ k, x.lock = some ⟨.point, k⟩ → k < s.est.points.length → x.claims = [] ∧ (s.pt k).owner = some (.remote l e)
    ∧ (s.pt k).lockedPos = some x.ask.position
  undecided : x.decided = false → x.claims = [] ∧ x.lock = none

/-- The entry `e` of link `l`, which was `x`, has been released (R158). -/
structure EntryLeft (s : State) (l e : Nat) (x : RemoteEntry) (t : State) : Prop where
  stood : s.entry l e = some x
  secOwner : ∀ k i, (t.sec k).owner = some (.slot i) → (s.sec k).owner = some (.slot i)
  secClaims : ∀ k, (t.sec k).claims = (s.sec k).claims - countOn (x.claims.map Claim.what) ⟨.sect, k⟩
  ptFreed : ∀ k, x.lock = some ⟨.point, k⟩ → (s.pt k).owner = some (.remote l e) →
    t.pt k = (s.pt k).unlocked.less (countOn (x.claims.map Claim.what) ⟨.point, k⟩)
  ptKept : ∀ k, ¬(x.lock = some ⟨.point, k⟩ ∧ (s.pt k).owner = some (.remote l e)) →
    t.pt k = (s.pt k).less (countOn (x.claims.map Claim.what) ⟨.point, k⟩)
  sig : ∀ k, t.sig k = (s.sig k).less (countOn (x.claims.map Claim.what) ⟨.signal, k⟩)
  sections : t.est.sections.length = s.est.sections.length
  points : t.est.points.length = s.est.points.length
  signals : t.est.signals.length = s.est.signals.length
  slots : t.rsu.slots = s.rsu.slots
  bdu : t.bdu = (s.setEntry l e none).bdu
  image : t.image = s.image
  power : t.mdc.power = s.mdc.power

/-- The port stays OUT while an EXIT slot targets it, and IN while an acceptance stands (R148, R155). -/
structure PortFits (s : State) (p : Nat) (q : Port) : Prop where
  out : (s.port p).view = .out → q.view = .out ∨ s.exitTargets p = false
  into : ((s.port p).incGranted = true → (s.port p).view = .into) → q.incGranted = true → q.view = .into

/-- One change of what locks, claims and views hold. -/
inductive Change (s : State) : State → Prop
  /-- None. -/
  | quiet {t : State} (h : Quiet s t) : Change s t
  /-- A slot gives up some of what it holds, or ends. -/
  | yields {i : Nat} {g : Loss} {x : Slot} {t : State} (h : Yields s i g x t) (hg : Given s i g x) : Change s t
  /-- A FREE slot takes a route. -/
  | opened {i : Nat} {k : Slot} (hi : i < s.rsu.slots.length) (hf : s.live i = false) (hc : k.claims = [])
      (hv : k.kind = some .exit → (s.port ((s.modSlot i fun _ => k).slotRoute i).exit).view = .out) : Change s (s.modSlot i fun _ => k)
  /-- The elements of its route are locked. -/
  | locked {i : Nat} {d : RouteDef} {t : State} (h : RouteLocked s i d t) (hl : Lockable s i d) : Change s t
  /-- The claims found for it are placed. -/
  | seated {i : Nat} {cs : List Claim} {u : State} (h : CountsPlaced s (cs.map Claim.what) u) (hi : i < s.rsu.slots.length)
      (hl : s.live i = true) (hc : (s.slot i).claims = []) (hf : Fits s (cs.map Claim.what)) :
      Change s (u.modSlot i fun k => { k with claims := cs })
  /-- A section is locked for a neighbour, or a lock on one goes. -/
  | lockSec {k : Nat} {w : Owner} {m : Option LockKind} (hw : ∀ i, w ≠ .slot i) : Change s (s.lockSec k w m)
  | freeSec {k : Nat} {w : Owner} : Change s (s.freeSec k w)
  /-- A point is locked for a neighbour. -/
  | lockPt {k l e : Nat} {p : Pos} (ho : (s.pt k).owner = none) (hc : (s.pt k).claims ≠ 0 → (s.pt k).claimPos = some p) :
      Change s (s.lockPt k (.remote l e) none p)
  /-- A remote claim entry is written with what it holds. -/
  | entered {l e : Nat} {x : RemoteEntry} {u : State} (h : CountsPlaced s (x.claims.map Claim.what) u) (he : Enterable s l e x)
      (hf : Fits s (x.claims.map Claim.what)) : Change s (u.setEntry l e (some x))
  /-- One is released. -/
  | left {l e : Nat} {x : RemoteEntry} {t : State} (h : EntryLeft s l e x t) : Change s t
  /-- A port's view or acceptance changes. -/
  | port {p : Nat} {f : Port → Port} (h : PortFits s p (f (s.port p))) : Change s (s.modPort p f)

/-- A chain of changes. -/
abbrev Changes : State → State → Prop := Relation.ReflTransGen Change

theorem CountsPlaced.image {s t : State} {ws : List ClaimOn} (h : CountsPlaced s ws t) : t.image = s.image := by rw [h.rest]; rfl

theorem Change.power {s t : State} (h : Change s t) : t.mdc.power = s.mdc.power := by
  cases h with
  | quiet h => exact h.power
  | yields h _ => exact h.power
  | opened => rfl
  | locked h _ => rw [h.rest]
  | seated h => exact congrArg (fun u => u.mdc.power) h.rest
  | lockSec => rfl
  | freeSec => unfold State.freeSec; split <;> [rw [note_eq]; skip] <;> rfl
  | lockPt => rfl
  | entered h => exact congrArg (fun u => u.mdc.power) h.rest
  | left h => exact h.power
  | port => rfl

end Sys2Proof.Machine

/-! ### What the changes keep: movements, live owners, views, bounds -/

namespace Sys2Proof.Machine

/-! #### The invariants, index by index -/

theorem pointsAgree_iff (s : State) : s.pointsAgree ↔ ∀ k, (s.pt k).agreeing :=
  forall_mem_iff_getD (d := PointRec.start) ⟨rfl, rfl⟩ _

theorem ownersLive_iff (s : State) : s.ownersLive ↔ (∀ k i, (s.sec k).owner = some (.slot i) → s.live i = true)
    ∧ (∀ k i, (s.pt k).owner = some (.slot i) → s.live i = true) ∧ ∀ k i, (s.sig k).owner = some i → s.live i = true := by
  have hs := forall_mem_iff_getD (P := fun r : SectionRec => ∀ i, r.owner = some (.slot i) → s.live i = true) (d := SectionRec.start)
    (fun _ h => by cases h) s.est.sections
  have hp := forall_mem_iff_getD (P := fun r : PointRec => ∀ i, r.owner = some (.slot i) → s.live i = true) (d := PointRec.start)
    (fun _ h => by cases h) s.est.points
  have hg := forall_mem_iff_getD (P := fun r : SignalRec => ∀ i, r.owner = some i → s.live i = true) (d := SignalRec.start)
    (fun _ h => by cases h) s.est.signals
  exact ⟨fun ⟨a, b, c⟩ => ⟨hs.1 a, hp.1 b, hg.1 c⟩, fun ⟨a, b, c⟩ => ⟨hs.2 a, hp.2 b, hg.2 c⟩⟩

theorem countsHold_iff (s : State) : s.countsHold ↔ (∀ k, (s.sec k).claims ≤ 48) ∧ (∀ k, (s.pt k).claims ≤ 48)
    ∧ ∀ k, (s.sig k).holds ≤ 48 := by
  have hs := forall_mem_iff_getD (P := fun r : SectionRec => r.claims ≤ 48) (d := SectionRec.start) (by decide) s.est.sections
  have hp := forall_mem_iff_getD (P := fun r : PointRec => r.claims ≤ 48) (d := PointRec.start) (by decide) s.est.points
  have hg := forall_mem_iff_getD (P := fun r : SignalRec => r.holds ≤ 48) (d := SignalRec.start) (by decide) s.est.signals
  exact ⟨fun ⟨a, b, c⟩ => ⟨hs.1 a, hp.1 b, hg.1 c⟩, fun ⟨a, b, c⟩ => ⟨hs.2 a, hp.2 b, hg.2 c⟩⟩

/-! #### What a change reads like -/

theorem freeSec_rest (s : State) (k : Nat) (w : Owner) : s.freeSec k w = { s with
    est.sections := (s.freeSec k w).est.sections, slu.noticeQ := (s.freeSec k w).slu.noticeQ, releaseDue := (s.freeSec k w).releaseDue } := by
  unfold State.freeSec
  split
  · rw [note_eq]; rfl
  · rfl

theorem freeSec_length (s : State) (k : Nat) (w : Owner) : (s.freeSec k w).est.sections.length = s.est.sections.length := by
  unfold State.freeSec
  split
  · rw [note_eq]; exact List.length_modify _ _ _
  · rfl

theorem freeSec_sec (s : State) (k : Nat) (w : Owner) (j : Nat) : ((s.freeSec k w).sec j).claims = (s.sec j).claims
    ∧ ∀ v, ((s.freeSec k w).sec j).owner = some v → (s.sec j).owner = some v := by
  unfold State.freeSec
  split
  · rw [note_eq]
    change ((s.modSec k _).sec j).claims = _ ∧ ∀ v, ((s.modSec k _).sec j).owner = _ → _
    rw [State.modSec_sec_at]
    split
    · exact ⟨rfl, fun v h => by cases h⟩
    · exact ⟨rfl, fun _ => id⟩
  · exact ⟨rfl, fun _ => id⟩

theorem lockSec_sec (s : State) (k : Nat) (w : Owner) (m : Option LockKind) (j : Nat) :
    ((s.lockSec k w m).sec j).claims = (s.sec j).claims
      ∧ (((s.lockSec k w m).sec j).owner = some w ∨ ((s.lockSec k w m).sec j).owner = (s.sec j).owner) := by
  rw [State.lockSec, State.modSec_sec_at]
  split
  · exact ⟨rfl, .inl rfl⟩
  · exact ⟨rfl, .inr rfl⟩

theorem lockPt_pt (s : State) (k : Nat) (w : Owner) (m : Option LockKind) (p : Pos) (j : Nat) : (s.lockPt k w m p).pt j =
    if k = j ∧ j < s.est.points.length then { s.pt j with owner := some w, kind := m, lockedPos := some p } else s.pt j :=
  State.modPt_pt_at _ _ _ _

theorem CountsPlaced.sec_owner {s t : State} {ws : List ClaimOn} (h : CountsPlaced s ws t) (k : Nat) : (t.sec k).owner = (s.sec k).owner := by
  rw [h.sec]; split <;> rfl

theorem CountsPlaced.sig_owner {s t : State} {ws : List ClaimOn} (h : CountsPlaced s ws t) (k : Nat) : (t.sig k).owner = (s.sig k).owner := by
  rw [h.sig]; split <;> rfl

/-- The claims of a point change, nothing else of it. -/
theorem CountsPlaced.pt_frame {s t : State} {ws : List ClaimOn} (h : CountsPlaced s ws t) (k : Nat) :
    t.pt k = { s.pt k with claimPos := (t.pt k).claimPos, claims := (t.pt k).claims } := by
  by_cases hk : k < s.est.points.length
  · rw [h.ptFrame k hk]
  · rw [h.ptOut k hk]

/-- What a route locks of a point. -/
theorem RouteLocked.pt_cases {s t : State} {i : Nat} {d : RouteDef} (h : RouteLocked s i d t) (k : Nat) :
    (∃ q ∈ d.points, q.1 = k ∧ t.pt k = (s.pt k).lockedBy i (if (d.overlapPoints.map Prod.fst).contains k then .overlap else .path) q.2)
      ∨ t.pt k = s.pt k := by
  by_cases hk : k ∈ d.points.map Prod.fst ∧ k < s.est.points.length
  · obtain ⟨q, hq, he, e⟩ := h.pt k hk.1 hk.2
    exact .inl ⟨q, hq, he, e⟩
  · exact .inr (h.ptKept k hk)

theorem RouteLocked.sec_cases {s t : State} {i : Nat} {d : RouteDef} (h : RouteLocked s i d t) (k : Nat) :
    (∃ m, t.sec k = (s.sec k).lockedBy i m) ∨ t.sec k = s.sec k := by
  by_cases hk : k ∈ d.sections ∧ k < s.est.sections.length
  · by_cases ho : k ∈ d.overlapSecs
    · exact .inl ⟨_, h.secOverlap k ho hk.2⟩
    · exact .inl ⟨_, h.secPath k ((List.mem_append.1 hk.1).resolve_right ho) ho hk.2⟩
  · exact .inr (h.secKept k hk)

theorem slot_modSlot_claims (u : State) (i : Nat) (cs : List Claim) (j : Nat) :
    ((u.modSlot i fun k => { k with claims := cs }).slot j).state = (u.slot j).state
      ∧ ((u.modSlot i fun k => { k with claims := cs }).slot j).route = (u.slot j).route
      ∧ ((u.modSlot i fun k => { k with claims := cs }).slot j).kind = (u.slot j).kind := by
  rw [State.modSlot_slot_at]
  split <;> exact ⟨rfl, rfl, rfl⟩

theorem live_congr {s t : State} {i : Nat} (h : (t.slot i).state = (s.slot i).state) : t.live i = s.live i := by
  rw [State.live, State.live, h]

/-- A change that is not quiet leaves the movement of every point. -/
theorem pointsAgree_of_motion {s t : State} (h : ∀ k, (t.pt k).pos = (s.pt k).pos ∧ (t.pt k).commanded = (s.pt k).commanded
    ∧ (t.pt k).throwMs = (s.pt k).throwMs) (hs : s.pointsAgree) : t.pointsAgree := by
  rw [pointsAgree_iff] at hs ⊢
  exact fun k => (PointRec.agreeing_congr (h k).1 (h k).2.1 (h k).2.2).2 (hs k)

theorem Change.pointsAgree {s t : State} (h : Change s t) : s.pointsAgree → t.pointsAgree := by
  cases h with
  | quiet h => exact h.agree
  | @yields i g x t h _ =>
    refine pointsAgree_of_motion fun k => ?_
    by_cases hk : g.pts k
    · rw [h.ptFreed k hk]; exact ⟨rfl, rfl, rfl⟩
    · rw [h.ptKept k hk]; exact ⟨rfl, rfl, rfl⟩
  | opened => exact id
  | locked h _ =>
    refine pointsAgree_of_motion fun k => ?_
    rcases h.pt_cases k with ⟨q, -, -, e⟩ | e <;> rw [e] <;> exact ⟨rfl, rfl, rfl⟩
  | @seated i cs u h =>
    refine pointsAgree_of_motion fun k => ?_
    change (u.pt k).pos = _ ∧ (u.pt k).commanded = _ ∧ (u.pt k).throwMs = _
    rw [h.pt_frame k]; exact ⟨rfl, rfl, rfl⟩
  | lockSec => exact id
  | @freeSec k w =>
    refine pointsAgree_of_motion fun j => ?_
    rw [freeSec_rest]; exact ⟨rfl, rfl, rfl⟩
  | lockPt =>
    refine pointsAgree_of_motion fun k => ?_
    rw [lockPt_pt]; split <;> exact ⟨rfl, rfl, rfl⟩
  | @entered l e x u h =>
    refine pointsAgree_of_motion fun k => ?_
    change (u.pt k).pos = _ ∧ (u.pt k).commanded = _ ∧ (u.pt k).throwMs = _
    rw [h.pt_frame k]; exact ⟨rfl, rfl, rfl⟩
  | @left l e x t h =>
    refine pointsAgree_of_motion fun k => ?_
    by_cases hk : x.lock = some ⟨.point, k⟩ ∧ (s.pt k).owner = some (.remote l e)
    · rw [h.ptFreed k hk.1 hk.2]; exact ⟨rfl, rfl, rfl⟩
    · rw [h.ptKept k hk]; exact ⟨rfl, rfl, rfl⟩
  | port => exact id

/-! #### Live owners -/

/-- Where each lock of a slot stood before or is of a live slot now, and the slots live before stay so, owners stay live. -/
theorem ownersLive_of {s t : State}
    (hsec : ∀ k i, (t.sec k).owner = some (.slot i) → t.live i = true ∨ ((s.sec k).owner = some (.slot i) ∧ (s.live i = true → t.live i = true)))
    (hpt : ∀ k i, (t.pt k).owner = some (.slot i) → t.live i = true ∨ ((s.pt k).owner = some (.slot i) ∧ (s.live i = true → t.live i = true)))
    (hsig : ∀ k i, (t.sig k).owner = some i → t.live i = true ∨ ((s.sig k).owner = some i ∧ (s.live i = true → t.live i = true)))
    (h : s.ownersLive) : t.ownersLive := by
  rw [ownersLive_iff] at h ⊢
  obtain ⟨h1, h2, h3⟩ := h
  exact ⟨fun k i ho => (hsec k i ho).elim id fun e => e.2 (h1 k i e.1), fun k i ho => (hpt k i ho).elim id fun e => e.2 (h2 k i e.1),
    fun k i ho => (hsig k i ho).elim id fun e => e.2 (h3 k i e.1)⟩

theorem Yields.live {s t : State} {i : Nat} {g : Loss} {x : Slot} (h : Yields s i g x t) {j : Nat} (hj : j ≠ i) : t.live j = s.live j :=
  live_congr (congrArg Slot.state (h.slots j hj))

theorem Yields.live_self {s t : State} {i : Nat} {g : Loss} {x : Slot} (h : Yields s i g x t) : t.live i = true ↔ x.state ≠ .free := by
  rw [State.live, h.slot, decide_eq_true_eq]

theorem Change.ownersLive {s t : State} (h : Change s t) : s.ownersLive → t.ownersLive := by
  cases h with
  | quiet h =>
    have hsec : ∀ k, (t.sec k).owner = (s.sec k).owner := fun k => congrArg Prod.fst (h.sec_hold k)
    have hpt : ∀ k, (t.pt k).owner = (s.pt k).owner := fun k => congrArg Prod.fst (h.pt_hold k)
    have hsig : ∀ k, (t.sig k).owner = (s.sig k).owner := fun k => congrArg Prod.fst (h.sig_hold k)
    exact ownersLive_of (fun k i ho => .inr ⟨hsec k ▸ ho, fun e => (h.live i).trans e⟩)
      (fun k i ho => .inr ⟨hpt k ▸ ho, fun e => (h.live i).trans e⟩) fun k i ho => .inr ⟨hsig k ▸ ho, fun e => (h.live i).trans e⟩
  | @yields i g x t h hg =>
    have hkeep : ∀ j, (j = i → x.state ≠ .free) → s.live j = true → t.live j = true := fun j hj hl => by
      by_cases e : j = i
      · exact e ▸ h.live_self.2 (hj e)
      · exact (h.live e).trans hl
    refine ownersLive_of (fun k j ho => .inr ?_) (fun k j ho => .inr ?_) fun k j ho => .inr ?_
    · by_cases hk : g.secs k
      · rw [h.secFreed k hk] at ho; cases ho
      · rw [h.secKept k hk] at ho
        exact ⟨ho, hkeep j fun e hx => hk ((hg.ended hx).2.1 k (e ▸ ho))⟩
    · by_cases hk : g.pts k
      · rw [h.ptFreed k hk] at ho; cases ho
      · rw [h.ptKept k hk] at ho
        exact ⟨ho, hkeep j fun e hx => hk ((hg.ended hx).2.2.1 k (e ▸ ho))⟩
    · by_cases hk : g.sigs k
      · rw [h.sigFreed k hk] at ho; cases ho
      · rw [h.sigKept k hk] at ho
        exact ⟨ho, hkeep j fun e hx => hk ((hg.ended hx).2.2.2 k (e ▸ ho))⟩
  | @opened i k hi hf =>
    have hkeep : ∀ j, s.live j = true → (s.modSlot i fun _ => k).live j = true := fun j hl => by
      rw [State.live, State.modSlot_slot_at, if_neg (fun e : i = j ∧ _ => by rw [e.1, hl] at hf; cases hf)]
      exact hl
    exact ownersLive_of (fun _ j ho => .inr ⟨ho, hkeep j⟩) (fun _ j ho => .inr ⟨ho, hkeep j⟩) fun _ j ho => .inr ⟨ho, hkeep j⟩
  | @locked i d t h hl =>
    have hlive : ∀ j, t.live j = s.live j := fun j => by rw [h.rest]; rfl
    refine ownersLive_of (fun k j ho => ?_) (fun k j ho => ?_) fun k j ho => ?_
    · rcases h.sec_cases k with ⟨m, e⟩ | e <;> rw [e] at ho
      · cases ho; exact .inl ((hlive _).trans hl.live)
      · exact .inr ⟨ho, (hlive j).trans⟩
    · rcases h.pt_cases k with ⟨q, -, -, e⟩ | e <;> rw [e] at ho
      · cases ho; exact .inl ((hlive _).trans hl.live)
      · exact .inr ⟨ho, (hlive j).trans⟩
    · rw [h.sig] at ho
      split at ho
      · cases ho; exact .inl ((hlive _).trans hl.live)
      · exact .inr ⟨ho, (hlive j).trans⟩
  | @seated i cs u h =>
    have hlive : ∀ j, (u.modSlot i fun k => { k with claims := cs }).live j = s.live j := fun j =>
      (live_congr (slot_modSlot_claims u i cs j).1).trans (by rw [h.rest]; rfl)
    refine ownersLive_of (fun k j ho => .inr ⟨?_, (hlive j).trans⟩) (fun k j ho => .inr ⟨?_, (hlive j).trans⟩) fun k j ho => .inr ⟨?_, (hlive j).trans⟩
    · exact (h.sec_owner k).symm.trans ho
    · change (u.pt k).owner = _ at ho
      rw [h.pt_frame k] at ho; exact ho
    · exact (h.sig_owner k).symm.trans ho
  | @lockSec k w m hw =>
    refine ownersLive_of (fun j i ho => ?_) (fun _ _ ho => .inr ⟨ho, id⟩) fun _ _ ho => .inr ⟨ho, id⟩
    rcases (lockSec_sec s k w m j).2 with e | e
    · rw [e] at ho; exact absurd (Option.some.inj ho) (hw i)
    · exact .inr ⟨e ▸ ho, id⟩
  | @freeSec k w =>
    have hlive : ∀ j, (s.freeSec k w).live j = s.live j := fun j => by rw [freeSec_rest]; rfl
    refine ownersLive_of (fun j i ho => .inr ⟨(freeSec_sec s k w j).2 _ ho, (hlive i).trans⟩) (fun j i ho => .inr ⟨?_, (hlive i).trans⟩)
      fun j i ho => .inr ⟨?_, (hlive i).trans⟩ <;>
    · rw [freeSec_rest] at ho; exact ho
  | @lockPt k l e p =>
    refine ownersLive_of (fun _ _ ho => .inr ⟨ho, id⟩) (fun j i ho => ?_) fun _ _ ho => .inr ⟨ho, id⟩
    rw [lockPt_pt] at ho
    split at ho
    · cases ho
    · exact .inr ⟨ho, id⟩
  | @entered l e x u h =>
    have hlive : ∀ j, (u.setEntry l e (some x)).live j = s.live j := fun j => by rw [h.rest]; rfl
    refine ownersLive_of (fun k j ho => .inr ⟨?_, (hlive j).trans⟩) (fun k j ho => .inr ⟨?_, (hlive j).trans⟩) fun k j ho => .inr ⟨?_, (hlive j).trans⟩
    · exact (h.sec_owner k).symm.trans ho
    · change (u.pt k).owner = _ at ho
      rw [h.pt_frame k] at ho; exact ho
    · exact (h.sig_owner k).symm.trans ho
  | @left l e x t h =>
    have hlive : ∀ j, t.live j = s.live j := fun j => live_congr (by rw [State.slot, State.slot, h.slots])
    refine ownersLive_of (fun k j ho => .inr ⟨h.secOwner k j ho, (hlive j).trans⟩) (fun k j ho => .inr ⟨?_, (hlive j).trans⟩)
      fun k j ho => .inr ⟨?_, (hlive j).trans⟩
    · by_cases hk : x.lock = some ⟨.point, k⟩ ∧ (s.pt k).owner = some (.remote l e)
      · rw [h.ptFreed k hk.1 hk.2] at ho; cases ho
      · rw [h.ptKept k hk] at ho; exact ho
    · rw [h.sig k] at ho; exact ho
  | port => exact ownersLive_of (fun _ _ ho => .inr ⟨ho, id⟩) (fun _ _ ho => .inr ⟨ho, id⟩) fun _ _ ho => .inr ⟨ho, id⟩

end Sys2Proof.Machine

/-! ### What the changes keep: views and bounds -/

namespace Sys2Proof.Machine

/-! #### Views (R148, R155) -/

/-- The views of the ports of live EXIT instances and of granted acceptances. -/
def State.viewsStand (s : State) : Prop :=
  (∀ i, s.live i = true → (s.slot i).kind = some .exit → (s.port (s.slotRoute i).exit).view = .out)
    ∧ ∀ p, (s.port p).incGranted = true → (s.port p).view = .into

/-- The holds of the ports stay, and each live slot was one before, of the same kind and route. -/
theorem viewsStand_of {s t : State} (hp : ∀ p, (t.port p).hold = (s.port p).hold)
    (hl : ∀ i, t.live i = true → (t.slot i).kind = some .exit → s.live i = true ∧ (s.slot i).kind = some .exit ∧ t.slotRoute i = s.slotRoute i)
    (h : s.viewsStand) : t.viewsStand := by
  have hv : ∀ p, (t.port p).view = (s.port p).view := fun p => congrArg Prod.fst (hp p)
  have hg : ∀ p, (t.port p).incGranted = (s.port p).incGranted := fun p => congrArg Prod.snd (hp p)
  refine ⟨fun i hi hk => ?_, fun p => by rw [hv, hg]; exact h.2 p⟩
  obtain ⟨h1, h2, h3⟩ := hl i hi hk
  rw [hv, h3]
  exact h.1 i h1 h2

/-- A live EXIT slot is one that targets its port. -/
theorem exitTargets_of_live {s : State} {i : Nat} (hl : s.live i = true) (hk : (s.slot i).kind = some .exit) :
    s.exitTargets (s.slotRoute i).exit = true := by
  unfold State.exitTargets
  rw [List.any_eq_true]
  exact ⟨i, List.mem_range.2 (lt_of_live hl), by simp [hl, hk]⟩

theorem Change.viewsStand {s t : State} (h : Change s t) : s.viewsStand → t.viewsStand := by
  cases h with
  | quiet h => exact viewsStand_of h.port_hold fun i hi hk => ⟨(h.live i).symm.trans hi, (h.kind i).symm.trans hk, h.slotRoute i⟩
  | @yields i g x t h hg =>
    refine viewsStand_of (fun p => getD_of_map_eq h.ports p Port.start) fun j hj hk => ?_
    by_cases e : j = i
    · subst e
      rw [h.slot] at hk
      exact ⟨hg.live (h.live_self.1 hj), hg.kind ▸ hk, slotRoute_congr (by rw [h.slot, hg.route]) h.image⟩
    · exact ⟨(h.live e).symm.trans hj, by rwa [h.slots j e] at hk, slotRoute_congr (by rw [h.slots j e]) h.image⟩
  | @opened i k hi hf hc hv =>
    refine fun hs => ⟨fun j hj hk => ?_, hs.2⟩
    by_cases e : i = j
    · subst e
      rw [State.modSlot_slot_at, if_pos ⟨rfl, hi⟩] at hk
      exact hv hk
    · have hslot : (s.modSlot i fun _ => k).slot j = s.slot j := by
        rw [State.modSlot_slot_at, if_neg (fun h : i = j ∧ _ => e h.1)]
      rw [slotRoute_congr (s := s) (congrArg Slot.route hslot) rfl]
      exact hs.1 j ((live_congr (congrArg Slot.state hslot)).symm.trans hj) (hslot ▸ hk)
  | @locked i d t h hl => rw [h.rest]; exact id
  | @seated i cs u h =>
    have hslot : ∀ j, u.slot j = s.slot j := fun j => by rw [h.rest]; rfl
    refine viewsStand_of (fun p => ?_) fun j hj hk => ?_
    · rw [h.rest]; rfl
    · obtain ⟨h1, h2, h3⟩ := slot_modSlot_claims u i cs j
      rw [hslot] at h1 h2 h3
      exact ⟨(live_congr h1).symm.trans hj, h3 ▸ hk, slotRoute_congr h2 h.image⟩
  | lockSec => exact id
  | freeSec => rw [freeSec_rest]; exact id
  | lockPt => exact id
  | entered h => rw [h.rest]; exact id
  | @left l e x t h =>
    have hslot : ∀ j, t.slot j = s.slot j := fun j => by rw [State.slot, State.slot, h.slots]
    exact viewsStand_of (fun p => by rw [State.port, h.bdu]; rfl) fun j hj hk =>
      ⟨(live_congr (congrArg Slot.state (hslot j))).symm.trans hj, hslot j ▸ hk, slotRoute_congr (congrArg Slot.route (hslot j)) h.image⟩
  | @port p f h =>
    have hport : ∀ q, (s.modPort p f).port q = if p = q ∧ q < s.bdu.ports.length then f (s.port q) else s.port q :=
      fun q => State.modPort_port_at _ _ _ _
    refine fun hs => ⟨fun i hi hk => ?_, fun q hq => ?_⟩
    · change ((s.modPort p f).port (s.slotRoute i).exit).view = .out
      rw [hport]
      split
      · rename_i e
        rw [← e.1]
        refine (h.out (e.1 ▸ hs.1 i hi hk)).resolve_right fun hn => ?_
        rw [e.1, exitTargets_of_live (s := s) hi hk] at hn; cases hn
      · exact hs.1 i hi hk
    · rw [hport] at hq ⊢
      split at hq
      · rename_i e
        rw [if_pos e]
        obtain ⟨rfl, -⟩ := e
        exact h.into (hs.2 p) hq
      · rename_i e
        rw [if_neg e]
        exact hs.2 q hq

/-! #### Bounds (R36) -/

theorem countsHold_of {s t : State} (hsec : ∀ k, (t.sec k).claims ≤ (s.sec k).claims ∨ (t.sec k).claims ≤ 48)
    (hpt : ∀ k, (t.pt k).claims ≤ (s.pt k).claims ∨ (t.pt k).claims ≤ 48)
    (hsig : ∀ k, (t.sig k).holds ≤ (s.sig k).holds ∨ (t.sig k).holds ≤ 48) (h : s.countsHold) : t.countsHold := by
  rw [countsHold_iff] at h ⊢
  obtain ⟨h1, h2, h3⟩ := h
  exact ⟨fun k => (hsec k).elim (fun e => e.trans (h1 k)) id, fun k => (hpt k).elim (fun e => e.trans (h2 k)) id,
    fun k => (hsig k).elim (fun e => e.trans (h3 k)) id⟩

theorem countsHold_of_est {s t : State} (h : t.est = s.est) : s.countsHold → t.countsHold := fun ⟨a, b, c⟩ =>
  ⟨h ▸ a, h ▸ b, h ▸ c⟩

theorem countsHold_placed {s t : State} {ws : List ClaimOn} (h : CountsPlaced s ws t) (hf : Fits s ws) : s.countsHold → t.countsHold := by
  refine countsHold_of (fun k => ?_) (fun k => ?_) fun k => ?_
  · rw [h.sec]
    split
    · by_cases h0 : countOn ws ⟨.sect, k⟩ = 0
      · rw [h0]; exact .inl le_rfl
      · exact .inr (hf.sec k h0)
    · exact .inl le_rfl
  · by_cases hk : k < s.est.points.length
    · rw [h.ptFrame k hk]
      by_cases h0 : countOn ws ⟨.point, k⟩ = 0
      · rw [h0]; exact .inl le_rfl
      · exact .inr (hf.pt k h0)
    · rw [h.ptOut k hk]; exact .inl le_rfl
  · rw [h.sig]
    split
    · by_cases h0 : countOn ws ⟨.signal, k⟩ = 0
      · rw [h0]; exact .inl le_rfl
      · exact .inr (hf.sig k h0)
    · exact .inl le_rfl

theorem Change.countsHold {s t : State} (h : Change s t) : s.countsHold → t.countsHold := by
  cases h with
  | quiet h =>
    exact countsHold_of (fun k => .inl (congrArg Prod.snd (h.sec_hold k)).le)
      (fun k => .inl (congrArg (fun x => x.2.2.2.2) (h.pt_hold k)).le) fun k => .inl (congrArg Prod.snd (h.sig_hold k)).le
  | @yields i g x t h _ =>
    refine countsHold_of (fun k => .inl ?_) (fun k => .inl ?_) fun k => .inl ?_
    · by_cases hk : g.secs k
      · rw [h.secFreed k hk]; exact Nat.sub_le _ _
      · rw [h.secKept k hk]; exact Nat.sub_le _ _
    · by_cases hk : g.pts k
      · rw [h.ptFreed k hk]; exact Nat.sub_le _ _
      · rw [h.ptKept k hk]; exact Nat.sub_le _ _
    · by_cases hk : g.sigs k
      · rw [h.sigFreed k hk]; exact Nat.sub_le _ _
      · rw [h.sigKept k hk]; exact Nat.sub_le _ _
  | opened => exact countsHold_of_est rfl
  | locked h _ =>
    refine countsHold_of (fun k => .inl ?_) (fun k => .inl ?_) fun k => .inl ?_
    · rcases h.sec_cases k with ⟨m, e⟩ | e <;> exact (congrArg SectionRec.claims e).le
    · rcases h.pt_cases k with ⟨q, -, -, e⟩ | e <;> exact (congrArg PointRec.claims e).le
    · rw [h.sig]; split <;> exact le_rfl
  | @seated _ _ u h _ _ _ hf => exact fun hs => countsHold_of_est (s := u) rfl (countsHold_placed h hf hs)
  | @lockSec k w m => exact countsHold_of (fun j => .inl (lockSec_sec s k w m j).1.le) (fun _ => .inl le_rfl) fun _ => .inl le_rfl
  | @freeSec k w =>
    refine countsHold_of (fun j => .inl (freeSec_sec s k w j).1.le) (fun j => .inl ?_) fun j => .inl ?_ <;>
    · rw [freeSec_rest]; exact le_rfl
  | lockPt =>
    refine countsHold_of (fun _ => .inl le_rfl) (fun j => .inl ?_) fun _ => .inl le_rfl
    rw [lockPt_pt]; split <;> exact le_rfl
  | @entered _ _ _ u h _ hf => exact fun hs => countsHold_of_est (s := u) rfl (countsHold_placed h hf hs)
  | @left l e x t h =>
    refine countsHold_of (fun k => .inl ?_) (fun k => .inl ?_) fun k => .inl ?_
    · rw [h.secClaims]; exact Nat.sub_le _ _
    · by_cases hk : x.lock = some ⟨.point, k⟩ ∧ (s.pt k).owner = some (.remote l e)
      · rw [h.ptFreed k hk.1 hk.2]; exact Nat.sub_le _ _
      · rw [h.ptKept k hk]; exact Nat.sub_le _ _
    · rw [h.sig k]; exact Nat.sub_le _ _
  | port => exact countsHold_of_est rfl

end Sys2Proof.Machine

/-! ### What the changes keep: exact counts -/

namespace Sys2Proof.Machine

/-- The counts are exact; a FREE slot and an undecided entry have no claims. -/
structure State.countsStand (s : State) : Prop where
  sec : ∀ k, k < s.est.sections.length → (s.sec k).claims = countOn s.allClaims ⟨.sect, k⟩
  pt : ∀ k, k < s.est.points.length → (s.pt k).claims = countOn s.allClaims ⟨.point, k⟩
  sig : ∀ k, k < s.est.signals.length → (s.sig k).holds = countOn s.allClaims ⟨.signal, k⟩
  free : ∀ i, s.live i = false → (s.slot i).claims = []
  undecided : ∀ l e x, s.entry l e = some x → x.decided = false → x.claims = [] ∧ x.lock = none

/-- All counts lose `sub` and gain `add`, as the entries do. -/
theorem countsStand_of {s t : State} (sub add : ElemRef → Nat)
    (hall : ∀ e, countOn t.allClaims e = countOn s.allClaims e - sub e + add e)
    (hsl : t.est.sections.length = s.est.sections.length) (hpl : t.est.points.length = s.est.points.length)
    (hgl : t.est.signals.length = s.est.signals.length)
    (hsec : ∀ k, k < s.est.sections.length → (t.sec k).claims = (s.sec k).claims - sub ⟨.sect, k⟩ + add ⟨.sect, k⟩)
    (hpt : ∀ k, k < s.est.points.length → (t.pt k).claims = (s.pt k).claims - sub ⟨.point, k⟩ + add ⟨.point, k⟩)
    (hsig : ∀ k, k < s.est.signals.length → (t.sig k).holds = (s.sig k).holds - sub ⟨.signal, k⟩ + add ⟨.signal, k⟩)
    (hfree : (∀ i, s.live i = false → (s.slot i).claims = []) → ∀ i, t.live i = false → (t.slot i).claims = [])
    (hund : (∀ l e x, s.entry l e = some x → x.decided = false → x.claims = [] ∧ x.lock = none) →
      ∀ l e x, t.entry l e = some x → x.decided = false → x.claims = [] ∧ x.lock = none)
    (h : s.countsStand) : t.countsStand where
  sec k hk := by rw [hsl] at hk; rw [hsec k hk, hall, h.sec k hk]
  pt k hk := by rw [hpl] at hk; rw [hpt k hk, hall, h.pt k hk]
  sig k hk := by rw [hgl] at hk; rw [hsig k hk, hall, h.sig k hk]
  free := hfree h.free
  undecided := hund h.undecided

/-- Nothing counted changes. -/
theorem countsStand_same {s t : State} (hall : t.allClaims = s.allClaims)
    (hsl : t.est.sections.length = s.est.sections.length) (hpl : t.est.points.length = s.est.points.length)
    (hgl : t.est.signals.length = s.est.signals.length) (hsec : ∀ k, (t.sec k).claims = (s.sec k).claims)
    (hpt : ∀ k, (t.pt k).claims = (s.pt k).claims) (hsig : ∀ k, (t.sig k).holds = (s.sig k).holds)
    (hslot : ∀ i, t.slot i = s.slot i) (hent : ∀ l e, t.entry l e = s.entry l e) (h : s.countsStand) : t.countsStand :=
  countsStand_of (fun _ => 0) (fun _ => 0) (fun e => by rw [hall]; rfl) hsl hpl hgl (fun k _ => by rw [hsec]; rfl)
    (fun k _ => by rw [hpt]; rfl) (fun k _ => by rw [hsig]; rfl)
    (fun hf i hi => by rw [State.live, hslot] at hi; rw [hslot]; exact hf i hi) (fun hu l e x hx => hu l e x (hent l e ▸ hx)) h

theorem entry_lt {s : State} {l e : Nat} {x : RemoteEntry} (h : s.entry l e = some x) :
    l < s.bdu.links.length ∧ e < (s.link l).table.length := by
  have he : e < (s.link l).table.length := by
    by_contra he
    rw [State.entry, List.getD_eq_default _ _ (not_lt.1 he)] at h
    cases h
  refine ⟨?_, he⟩
  by_contra hl
  rw [State.entry, State.link, List.getD_eq_default _ _ (not_lt.1 hl)] at h
  rw [State.link, List.getD_eq_default _ _ (not_lt.1 hl)] at he
  rw [List.getD_eq_getElem _ _ he] at h
  have hn : Link.start.table[e] = none := List.getElem_replicate _
  rw [hn] at h
  cases h

/-- Entries keep their hold, so an undecided one holds nothing still. -/
theorem undecided_of_hold {s t : State} (hent : ∀ l e, (t.entry l e).map RemoteEntry.hold = (s.entry l e).map RemoteEntry.hold)
    (h : ∀ l e x, s.entry l e = some x → x.decided = false → x.claims = [] ∧ x.lock = none) (l e : Nat) (x : RemoteEntry)
    (hx : t.entry l e = some x) (hd : x.decided = false) : x.claims = [] ∧ x.lock = none := by
  have := hent l e
  rw [hx] at this
  obtain ⟨y, hy, hh⟩ := Option.map_eq_some_iff.1 this.symm
  have hyd : y.decided = x.decided := congrArg (fun z => z.2.1) hh
  have hyl : y.lock = x.lock := congrArg (fun z => z.2.2.1) hh
  have hyc : y.claims.map Claim.what = x.claims.map Claim.what := congrArg (fun z => z.2.2.2) hh
  obtain ⟨h1, h2⟩ := h l e y hy (hyd.trans hd)
  rw [h1] at hyc
  exact ⟨List.map_eq_nil_iff.1 hyc.symm, hyl ▸ h2⟩

theorem entry_hold_of_links {s t : State} (h : t.bdu.links.map Link.hold = s.bdu.links.map Link.hold) (l e : Nat) :
    (t.entry l e).map RemoteEntry.hold = (s.entry l e).map RemoteEntry.hold := by
  have hl : (t.link l).hold = (s.link l).hold := getD_of_map_eq h l _
  unfold State.entry
  exact getD_of_map_eq hl e none

/-! #### The counts of all entries after a change -/

theorem Yields.sec_claims {s t : State} {i : Nat} {g : Loss} {x : Slot} (h : Yields s i g x t) (k : Nat) :
    (t.sec k).claims = (s.sec k).claims - countOn g.claims ⟨.sect, k⟩ := by
  by_cases hk : g.secs k
  · rw [h.secFreed k hk]; rfl
  · rw [h.secKept k hk]; rfl

theorem Yields.pt_claims {s t : State} {i : Nat} {g : Loss} {x : Slot} (h : Yields s i g x t) (k : Nat) :
    (t.pt k).claims = (s.pt k).claims - countOn g.claims ⟨.point, k⟩ := by
  by_cases hk : g.pts k
  · rw [h.ptFreed k hk]; rfl
  · rw [h.ptKept k hk]; rfl

theorem Yields.sig_holds {s t : State} {i : Nat} {g : Loss} {x : Slot} (h : Yields s i g x t) (k : Nat) :
    (t.sig k).holds = (s.sig k).holds - countOn g.claims ⟨.signal, k⟩ := by
  by_cases hk : g.sigs k
  · rw [h.sigFreed k hk]; rfl
  · rw [h.sigKept k hk]; rfl

theorem Yields.allClaims {s t : State} {i : Nat} {g : Loss} {x : Slot} (h : Yields s i g x t) (hg : Given s i g x) (e : ElemRef) :
    countOn t.allClaims e = countOn s.allClaims e - countOn g.claims e := by
  have h1 := slotClaims_count h.room h.slotsLength h.slots e
  have h2 := hg.claims e
  rw [h.slot] at h1
  rw [allClaims_eq, allClaims_eq, countOn_append, countOn_append, tableClaims_congr h.links]
  omega

theorem CountsPlaced.sec_claims {s t : State} {ws : List ClaimOn} (h : CountsPlaced s ws t) {k : Nat} (hk : k < s.est.sections.length) :
    (t.sec k).claims = (s.sec k).claims + countOn ws ⟨.sect, k⟩ := by rw [h.sec, if_pos hk]; rfl

theorem CountsPlaced.sig_holds {s t : State} {ws : List ClaimOn} (h : CountsPlaced s ws t) {k : Nat} (hk : k < s.est.signals.length) :
    (t.sig k).holds = (s.sig k).holds + countOn ws ⟨.signal, k⟩ := by rw [h.sig, if_pos hk]; rfl

theorem CountsPlaced.pt_claims {s t : State} {ws : List ClaimOn} (h : CountsPlaced s ws t) {k : Nat} (hk : k < s.est.points.length) :
    (t.pt k).claims = (s.pt k).claims + countOn ws ⟨.point, k⟩ := by rw [h.ptFrame k hk]

/-- The entries of slot `i` are placed. -/
theorem seated_allClaims {s u : State} {i : Nat} {cs : List Claim} (h : CountsPlaced s (cs.map Claim.what) u) (hi : i < s.rsu.slots.length)
    (hc : (s.slot i).claims = []) (e : ElemRef) :
    countOn (u.modSlot i fun k => { k with claims := cs }).allClaims e = countOn s.allClaims e + countOn (cs.map Claim.what) e := by
  have hslot : ∀ j, u.slot j = s.slot j := fun j => by rw [h.rest]; rfl
  have hlen : u.rsu.slots.length = s.rsu.slots.length := by rw [h.rest]
  have hat : ∀ j, (u.modSlot i fun k => { k with claims := cs }).slot j = if i = j ∧ j < s.rsu.slots.length then
      { s.slot j with claims := cs } else s.slot j := fun j => by
    rw [State.modSlot_slot_at, hslot, hlen]
  have h1 := slotClaims_count (s := s) (t := u.modSlot i fun k => { k with claims := cs }) hi
    ((List.length_modify _ _ _).trans hlen) (fun j hj => by rw [hat, if_neg (fun e : i = j ∧ _ => hj e.1.symm)]) e
  have h2 : (u.modSlot i fun k => { k with claims := cs }).tableClaims = s.tableClaims := by
    rw [h.rest]; rfl
  rw [hat, if_pos ⟨rfl, hi⟩, hc] at h1
  simp only [List.map_nil, countOn_nil] at h1
  rw [allClaims_eq, allClaims_eq, countOn_append, countOn_append, h2]
  omega

/-- The entry of a table is written over one that claims nothing. -/
theorem entered_allClaims {s u : State} {l e : Nat} {x : RemoteEntry} (h : CountsPlaced s (x.claims.map Claim.what) u)
    (he : Enterable s l e x) (hu : ∀ l e x, s.entry l e = some x → x.decided = false → x.claims = [] ∧ x.lock = none) (r : ElemRef) :
    countOn (u.setEntry l e (some x)).allClaims r = countOn s.allClaims r + countOn (x.claims.map Claim.what) r := by
  have hlink : u.bdu = s.bdu := by rw [h.rest]
  have hset : (u.setEntry l e (some x)).tableClaims = (s.setEntry l e (some x)).tableClaims := by
    rw [h.rest]; rfl
  have hslot : (u.setEntry l e (some x)).slotClaims = s.slotClaims := by rw [h.rest]; rfl
  have h1 := tableClaims_setEntry he.link he.place (some x) r
  have h0 : countOn (((s.entry l e).map fun y => y.claims.map Claim.what).getD []) r = 0 := by
    cases hx : s.entry l e with
    | none => rfl
    | some y => rw [Option.map_some, Option.getD_some, (hu l e y hx (he.vacant y hx)).1]; rfl
  rw [h0, Option.map_some, Option.getD_some] at h1
  rw [allClaims_eq, allClaims_eq, countOn_append, countOn_append, hset, hslot]
  omega

theorem EntryLeft.entry {s t : State} {l e : Nat} {x : RemoteEntry} (h : EntryLeft s l e x t) (l' e' : Nat) :
    t.entry l' e' = if l = l' ∧ e = e' then none else s.entry l' e' := by
  have hlt := entry_lt h.stood
  have ht : t.entry l' e' = (s.setEntry l e none).entry l' e' := by
    unfold State.entry State.link
    rw [h.bdu]
  rw [ht, setEntry_entry]
  by_cases hq : l = l' ∧ e = e'
  · rw [if_pos hq, if_pos ⟨hq.1, hq.2, hlt⟩]
  · rw [if_neg hq, if_neg (fun k : l = l' ∧ e = e' ∧ _ => hq ⟨k.1, k.2.1⟩)]

theorem EntryLeft.allClaims {s t : State} {l e : Nat} {x : RemoteEntry} (h : EntryLeft s l e x t) (r : ElemRef) :
    countOn t.allClaims r = countOn s.allClaims r - countOn (x.claims.map Claim.what) r := by
  obtain ⟨hl, he⟩ := entry_lt h.stood
  have h1 := tableClaims_setEntry hl he none r
  have hslot : t.slotClaims = s.slotClaims := by rw [State.slotClaims, State.slotClaims, h.slots]
  have htab : t.tableClaims = (s.setEntry l e none).tableClaims := by rw [State.tableClaims, State.tableClaims, h.bdu]
  rw [h.stood] at h1
  simp only [Option.map_some, Option.getD_some, Option.map_none, Option.getD_none, countOn_nil] at h1
  rw [allClaims_eq, allClaims_eq, countOn_append, countOn_append, hslot, htab]
  omega

/-! #### Each change -/

theorem Change.countsStand {s t : State} (h : Change s t) : s.countsStand → t.countsStand := by
  cases h with
  | quiet h =>
    exact countsStand_of (fun _ => 0) (fun _ => 0) (fun e => by rw [h.allClaims]; rfl) h.sections_length h.points_length h.signals_length
      (fun k _ => congrArg Prod.snd (h.sec_hold k)) (fun k _ => congrArg (fun x => x.2.2.2.2) (h.pt_hold k))
      (fun k _ => congrArg Prod.snd (h.sig_hold k)) (fun hf i hi => (h.claims_nil i).2 (hf i ((h.live i).symm.trans hi)))
      (undecided_of_hold h.entry)
  | @yields i g x t h hg =>
    refine countsStand_of (fun e => countOn g.claims e) (fun _ => 0) (h.allClaims hg) h.sections h.points h.signals
      (fun k _ => h.sec_claims k) (fun k _ => h.pt_claims k) (fun k _ => h.sig_holds k) (fun hf j hj => ?_)
      (undecided_of_hold (entry_hold_of_links h.links))
    by_cases e : j = i
    · subst e
      rw [h.slot]
      by_contra hx
      refine Bool.eq_false_iff.1 hj (h.live_self.2 fun hfree => hx (hg.ended hfree).1)
    · rw [h.slots j e]
      exact hf j ((h.live e).symm.trans hj)
  | @opened i k hi hf hc =>
    intro hs
    have hold := hs.free i hf
    have hat : ∀ j, (s.modSlot i fun _ => k).slot j = if i = j ∧ j < s.rsu.slots.length then k else s.slot j :=
      fun j => State.modSlot_slot_at _ _ _ _
    have hcount : ∀ e, countOn (s.modSlot i fun _ => k).allClaims e = countOn s.allClaims e := fun e => by
      have h1 := slotClaims_count (s := s) (t := s.modSlot i fun _ => k) hi (List.length_modify _ _ _)
        (fun j hj => by rw [hat, if_neg (fun e : i = j ∧ _ => hj e.1.symm)]) e
      rw [hat, if_pos ⟨rfl, hi⟩, hold, hc] at h1
      rw [allClaims_eq, allClaims_eq, countOn_append, countOn_append]
      exact congrArg (· + _) (by simpa using h1)
    refine countsStand_of (fun _ => 0) (fun _ => 0) hcount rfl rfl rfl (fun _ _ => rfl) (fun _ _ => rfl) (fun _ _ => rfl)
      (fun hf j hj => ?_) id hs
    rw [State.live, hat] at hj
    rw [hat]
    split
    · exact hc
    · rename_i e
      rw [if_neg e] at hj
      exact hf j hj
  | locked h _ =>
    refine countsStand_same ?_ h.sections h.points h.signals (fun k => ?_) (fun k => ?_) (fun k => ?_) (fun i => ?_) fun l e => ?_
    · rw [h.rest]; rfl
    · rcases h.sec_cases k with ⟨m, e⟩ | e <;> simp only [e, SectionRec.lockedBy]
    · rcases h.pt_cases k with ⟨q, -, -, e⟩ | e <;> simp only [e, PointRec.lockedBy]
    · rw [h.sig]; split <;> rfl
    · rw [h.rest]; rfl
    · rw [h.rest]; rfl
  | @seated i cs u h hi hl hc =>
    have hslot : ∀ j, u.slot j = s.slot j := fun j => by rw [h.rest]; rfl
    refine countsStand_of (fun _ => 0) (fun e => countOn (cs.map Claim.what) e) (seated_allClaims h hi hc) h.sections h.points h.signals
      (fun k hk => h.sec_claims hk) (fun k hk => h.pt_claims hk) (fun k hk => h.sig_holds hk) (fun hf j hj => ?_) (fun hu l e x hx => ?_)
    · have hlive : s.live j = false := by
        rw [← hj]
        exact (live_congr ((slot_modSlot_claims u i cs j).1.trans (by rw [hslot]))).symm
      rw [State.modSlot_slot_at, if_neg (fun e : i = j ∧ _ => by rw [e.1, hlive] at hl; cases hl), hslot]
      exact hf j hlive
    · rw [h.rest] at hx
      exact hu l e x hx
  | @lockSec k w m =>
    exact countsStand_same rfl (List.length_modify _ _ _) rfl rfl (fun j => (lockSec_sec s k w m j).1) (fun _ => rfl) (fun _ => rfl)
      (fun _ => rfl) fun _ _ => rfl
  | @freeSec k w =>
    refine countsStand_same ?_ (freeSec_length s k w) (by rw [freeSec_rest]) (by rw [freeSec_rest]) (fun j => (freeSec_sec s k w j).1) (fun j => ?_) (fun j => ?_) (fun j => ?_)
      fun l e => ?_ <;>
    · rw [freeSec_rest]; rfl
  | @lockPt k l e p =>
    refine countsStand_same rfl rfl (List.length_modify _ _ _) rfl (fun _ => rfl) (fun j => ?_) (fun _ => rfl) (fun _ => rfl) fun _ _ => rfl
    rw [lockPt_pt]; split <;> rfl
  | @entered l e x u h he =>
    intro hs
    refine countsStand_of (fun _ => 0) (fun e => countOn (x.claims.map Claim.what) e) (entered_allClaims h he hs.undecided) h.sections h.points
      h.signals (fun k hk => h.sec_claims hk) (fun k hk => h.pt_claims hk) (fun k hk => h.sig_holds hk) (fun hf j hj => ?_)
      (fun hu l' e' y hy hd => ?_) hs
    · rw [h.rest] at hj ⊢
      exact hf j hj
    · rw [h.rest] at hy
      change (s.setEntry l e (some x)).entry l' e' = some y at hy
      rw [setEntry_entry] at hy
      split at hy
      · cases hy; exact he.undecided hd
      · exact hu l' e' y hy hd
  | @left l e x t h =>
    refine countsStand_of (fun r => countOn (x.claims.map Claim.what) r) (fun _ => 0) h.allClaims h.sections h.points h.signals
      (fun k _ => h.secClaims k) (fun k _ => ?_) (fun k _ => ?_) (fun hf j hj => ?_) (fun hu l' e' y hy hd => ?_)
    · by_cases hk : x.lock = some ⟨.point, k⟩ ∧ (s.pt k).owner = some (.remote l e)
      · rw [h.ptFreed k hk.1 hk.2]; rfl
      · rw [h.ptKept k hk]; rfl
    · rw [h.sig k]; rfl
    · rw [State.live, State.slot, h.slots] at hj
      rw [State.slot, h.slots]
      exact hf j hj
    · rw [h.entry] at hy
      split at hy
      · cases hy
      · exact hu l' e' y hy hd
  | port => exact countsStand_same rfl rfl rfl rfl (fun _ => rfl) (fun _ => rfl) (fun _ => rfl) (fun _ => rfl) fun _ _ => rfl

end Sys2Proof.Machine

/-! ### What the changes keep: locked and claimed positions -/

namespace Sys2Proof.Machine

/-- A point's claim position stands with its claims, its locked position with its lock, and the two agree (R35 to R37). -/
structure PointRec.placed (r : PointRec) : Prop where
  claim : r.claims = 0 ↔ r.claimPos = none
  lock : r.owner = none ↔ r.lockedPos = none
  agree : r.owner ≠ none → r.claims ≠ 0 → r.lockedPos = r.claimPos

namespace PointRec

theorem placed_less {r : PointRec} (h : r.placed) (n : Nat) : (r.less n).placed := by
  unfold less
  refine ⟨?_, h.lock, fun ho hc => ?_⟩
  · show r.claims - n = 0 ↔ (if n ≠ 0 ∧ r.claims ≤ n then none else r.claimPos) = none
    split
    · rename_i hn
      exact iff_of_true (by omega) rfl
    · rename_i hn
      rw [← h.claim]
      omega
  · show r.lockedPos = if n ≠ 0 ∧ r.claims ≤ n then none else r.claimPos
    have hc : r.claims - n ≠ 0 := hc
    rw [if_neg (fun e : n ≠ 0 ∧ _ => hc (by omega))]
    exact h.agree ho (by omega)

theorem placed_unlocked {r : PointRec} (h : r.placed) : r.unlocked.placed := ⟨h.claim, iff_of_true rfl rfl, fun ho => absurd rfl ho⟩

theorem placed_locked {r : PointRec} (h : r.placed) (w : Owner) (m : Option LockKind) (x : Pos) (hx : r.claims ≠ 0 → r.claimPos = some x) :
    PointRec.placed { r with owner := some w, kind := m, lockedPos := some x } :=
  ⟨h.claim, iff_of_false (by simp) (by simp), fun _ hc => (hx hc).symm⟩

/-- Where a count is left, the claim position stays. -/
theorem less_claimPos {r : PointRec} {n : Nat} (h : (r.less n).claims ≠ 0) : (r.less n).claimPos = r.claimPos := by
  have h : r.claims - n ≠ 0 := h
  exact if_neg (fun e : n ≠ 0 ∧ _ => h (by omega))

theorem placed_of_hold {r r' : PointRec} (h : r'.hold = r.hold) (hr : r.placed) : r'.placed := by
  have h1 : r'.owner = r.owner := congrArg Prod.fst h
  have h2 : r'.lockedPos = r.lockedPos := congrArg (fun x => x.2.2.1) h
  have h3 : r'.claimPos = r.claimPos := congrArg (fun x => x.2.2.2.1) h
  have h4 : r'.claims = r.claims := congrArg (fun x => x.2.2.2.2) h
  exact ⟨by rw [h3, h4]; exact hr.claim, by rw [h1, h2]; exact hr.lock, by rw [h1, h2, h3, h4]; exact hr.agree⟩

end PointRec

theorem positionsAgree_iff (s : State) : s.positionsAgree ↔ (∀ k, (s.pt k).placed)
    ∧ (∀ k i, (s.pt k).owner = some (.slot i) → s.live i = true
      ∧ ((s.pt k).kind = some .overlap → k ∈ (s.slotRoute i).overlapPoints.map Prod.fst))
    ∧ (∀ l e x k, s.entry l e = some x → x.lock = some ⟨.point, k⟩ → k < s.est.points.length →
      (s.pt k).owner = some (.remote l e) ∧ (s.pt k).lockedPos = some x.ask.position)
    ∧ ∀ l e x, s.entry l e = some x → x.decided = false → x.claims = [] ∧ x.lock = none := by
  have hp := forall_mem_iff_getD (P := PointRec.placed) (d := PointRec.start) ⟨iff_of_true rfl rfl, iff_of_true rfl rfl, fun h => absurd rfl h⟩
    s.est.points
  constructor
  · rintro ⟨a, b, c, d, e, f⟩
    exact ⟨hp.1 fun r hr => ⟨a r hr, b r hr, c r hr⟩, d, e, f⟩
  · rintro ⟨a, d, e, f⟩
    have a := hp.2 a
    exact ⟨fun r hr => (a r hr).claim, fun r hr => (a r hr).lock, fun r hr => (a r hr).agree, d, e, f⟩

/-- Every point of a state in agreement is. -/
theorem State.positionsAgree.placed {s : State} (h : s.positionsAgree) (k : Nat) : (s.pt k).placed := ((positionsAgree_iff s).1 h).1 k

/-- Where the slots and the entries are as they were, and each point is placed, locked as before or by what may lock it. -/
theorem positionsAgree_of {s t : State} (hlen : t.est.points.length = s.est.points.length)
    (hpl : s.positionsAgree → ∀ k, (t.pt k).placed)
    (hslot : s.positionsAgree → ∀ k i, (t.pt k).owner = some (.slot i) →
      (s.pt k).owner = some (.slot i) ∧ (t.pt k).kind = (s.pt k).kind ∧ (s.live i = true → t.live i = true) ∧ t.slotRoute i = s.slotRoute i
      ∨ t.live i = true ∧ ((t.pt k).kind = some .overlap → k ∈ (t.slotRoute i).overlapPoints.map Prod.fst))
    (hentry : s.positionsAgree → ∀ l e x k, t.entry l e = some x → x.lock = some ⟨.point, k⟩ → k < s.est.points.length →
      (∃ y, s.entry l e = some y ∧ y.lock = x.lock ∧ y.ask = x.ask ∧ ((s.pt k).owner = some (.remote l e) →
        (t.pt k).owner = (s.pt k).owner ∧ (t.pt k).lockedPos = (s.pt k).lockedPos))
      ∨ (t.pt k).owner = some (.remote l e) ∧ (t.pt k).lockedPos = some x.ask.position)
    (hund : s.positionsAgree → (∀ l e x, s.entry l e = some x → x.decided = false → x.claims = [] ∧ x.lock = none) →
      ∀ l e x, t.entry l e = some x → x.decided = false → x.claims = [] ∧ x.lock = none)
    (h : s.positionsAgree) : t.positionsAgree := by
  obtain ⟨-, h2, h3, h4⟩ := (positionsAgree_iff s).1 h
  refine (positionsAgree_iff t).2 ⟨hpl h, fun k i ho => ?_, fun l e x k hx hl hk => ?_, hund h h4⟩
  · rcases hslot h k i ho with ⟨ho', hkd, hlv, hr⟩ | hn
    · obtain ⟨a, b⟩ := h2 k i ho'
      exact ⟨hlv a, fun e => hr ▸ b (hkd ▸ e)⟩
    · exact hn
  · rw [hlen] at hk
    rcases hentry h l e x k hx hl hk with ⟨y, hy, hyl, hya, hown⟩ | hn
    · obtain ⟨a, b⟩ := h3 l e y k hy (hyl.trans hl) hk
      obtain ⟨c, d⟩ := hown a
      exact ⟨c.trans a, d.trans (hya ▸ b)⟩
    · exact hn

/-- Claims are placed on points in the positions they are locked and claimed in. -/
theorem placed_of_counts {s t : State} {ws : List ClaimOn} (h : CountsPlaced s ws t) (hf : Fits s ws) (ha : s.positionsAgree) (k : Nat) :
    (t.pt k).placed := by
  have hp := ha.placed k
  by_cases hk : k < s.est.points.length
  · by_cases h0 : countOn ws ⟨.point, k⟩ = 0
    · rw [h.pt k hk .normal fun y hy => absurd h0 (countOn_ne_zero hy rfl), h0]
      simpa using hp
    · obtain ⟨w, hw, he⟩ := countOn_pos h0
      obtain ⟨x, rfl⟩ : ∃ x, w = .point k x := by
        cases w with
        | point j x => cases he; exact ⟨x, rfl⟩
        | signal j => cases he
        | sect j => cases he
        | port j => cases he
      obtain ⟨hlock, hclaim⟩ := hf.agree ha k x hw
      rw [h.pt k hk x fun y hy => hf.single k y x hy hw]
      have hpos : (if countOn ws ⟨.point, k⟩ ≠ 0 ∧ (s.pt k).claims = 0 then some x else (s.pt k).claimPos) = some x := by
        split
        · rfl
        · rename_i hn
          exact hclaim fun e => hn ⟨h0, e⟩
      refine ⟨?_, hp.lock, fun ho _ => ?_⟩
      · simp only [hpos]
        exact iff_of_false (by omega) (by simp)
      · simp only [hpos]
        exact hlock ho
  · rw [h.ptOut k hk]; exact hp

theorem Quiet.positionsAgree {s t : State} (h : Quiet s t) : s.positionsAgree → t.positionsAgree := by
  have hown : ∀ k, (t.pt k).owner = (s.pt k).owner := fun k => congrArg Prod.fst (h.pt_hold k)
  have hkind : ∀ k, (t.pt k).kind = (s.pt k).kind := fun k => congrArg (fun x => x.2.1) (h.pt_hold k)
  have hpos : ∀ k, (t.pt k).lockedPos = (s.pt k).lockedPos := fun k => congrArg (fun x => x.2.2.1) (h.pt_hold k)
  refine positionsAgree_of h.points_length (fun ha k => PointRec.placed_of_hold (h.pt_hold k) (ha.placed k))
    (fun _ k i ho => .inl ⟨hown k ▸ ho, hkind k, fun e => (h.live i).trans e, h.slotRoute i⟩) (fun _ l e x k hx _ _ => .inl ?_)
    (fun _ hu => undecided_of_hold h.entry hu)
  obtain ⟨y, hy, hh⟩ := h.entry_some hx
  exact ⟨y, hy, (congrArg (fun z => z.2.2.1) hh).symm, (congrArg Prod.fst hh).symm, fun _ => ⟨hown k, hpos k⟩⟩

theorem Yields.positionsAgree {s t : State} {i : Nat} {g : Loss} {x : Slot} (h : Yields s i g x t) (hg : Given s i g x) :
    s.positionsAgree → t.positionsAgree := by
  have hpt : ∀ k, (g.pts k ∧ (t.pt k).owner = none ∧ t.pt k = (s.pt k).unlocked.less (countOn g.claims ⟨.point, k⟩))
      ∨ (¬g.pts k ∧ t.pt k = (s.pt k).less (countOn g.claims ⟨.point, k⟩)) := fun k => by
    by_cases hk : g.pts k
    · exact .inl ⟨hk, by rw [h.ptFreed k hk]; rfl, h.ptFreed k hk⟩
    · exact .inr ⟨hk, h.ptKept k hk⟩
  refine positionsAgree_of h.points (fun ha k => ?_) (fun _ k j ho => .inl ?_) (fun _ l e y k hy hl _ => .inl ?_)
    (fun _ hu => undecided_of_hold (entry_hold_of_links h.links) hu)
  · rcases hpt k with ⟨-, -, e⟩ | ⟨-, e⟩ <;> rw [e]
    · exact PointRec.placed_less (PointRec.placed_unlocked (ha.placed k)) _
    · exact PointRec.placed_less (ha.placed k) _
  · rcases hpt k with ⟨-, e, -⟩ | ⟨hk, e⟩
    · rw [e] at ho; cases ho
    · rw [e] at ho ⊢
      refine ⟨ho, rfl, ?_⟩
      by_cases hj : j = i
      · subst hj
        exact ⟨fun _ => h.live_self.2 fun hx => hk ((hg.ended hx).2.2.1 k ho), slotRoute_congr (by rw [h.slot, hg.route]) h.image⟩
      · exact ⟨(h.live hj).trans, slotRoute_congr (by rw [h.slots j hj]) h.image⟩
  · have hh := entry_hold_of_links h.links l e
    rw [hy] at hh
    obtain ⟨z, hz, hhz⟩ := Option.map_eq_some_iff.1 hh.symm
    refine ⟨z, hz, congrArg (fun z => z.2.2.1) hhz, congrArg Prod.fst hhz, fun ho => ?_⟩
    rcases hpt k with ⟨hk, -, -⟩ | ⟨-, e⟩
    · rw [hg.pts k hk] at ho; cases ho
    · rw [e]; exact ⟨rfl, rfl⟩

theorem positionsAgree_opened {s : State} {i : Nat} (hf : s.live i = false) (k : Slot) :
    s.positionsAgree → (s.modSlot i fun _ => k).positionsAgree := by
  refine positionsAgree_of rfl (fun ha => ha.placed) (fun ha j m ho => .inl ⟨ho, rfl, ?_⟩)
    (fun _ l e x j hx _ _ => .inl ⟨x, hx, rfl, rfl, fun _ => ⟨rfl, rfl⟩⟩) fun _ hu => hu
  have hne : ¬(i = m ∧ m < s.rsu.slots.length) := fun e => by
    have hl := (ha.slot j m ho).1
    rw [← e.1, hf] at hl; cases hl
  have hslot : (s.modSlot i fun _ => k).slot m = s.slot m := by rw [State.modSlot_slot_at, if_neg hne]
  exact ⟨fun e => (live_congr (congrArg Slot.state hslot)).trans e, slotRoute_congr (congrArg Slot.route hslot) rfl⟩

theorem RouteLocked.positionsAgree {s t : State} {i : Nat} {d : RouteDef} (h : RouteLocked s i d t) (hl : Lockable s i d) :
    s.positionsAgree → t.positionsAgree := by
  have hlive : ∀ j, t.live j = s.live j := fun j => by rw [h.rest]; rfl
  have hroute : ∀ j, t.slotRoute j = s.slotRoute j := fun j => by rw [h.rest]; rfl
  refine positionsAgree_of h.points (fun ha k => ?_) (fun _ k j ho => ?_) (fun _ l e x k hx _ _ => .inl ?_) fun _ hu l e x hx => ?_
  · rcases h.pt_cases k with ⟨q, hq, rfl, e⟩ | e <;> rw [e]
    · exact PointRec.placed_locked (ha.placed _) _ _ _ (hl.agree ha q hq)
    · exact ha.placed k
  · rcases h.pt_cases k with ⟨q, hq, rfl, e⟩ | e <;> rw [e] at ho ⊢
    · cases ho
      refine .inr ⟨(hlive _).trans hl.live, fun hk => ?_⟩
      rw [hroute, hl.route]
      refine List.contains_iff_mem.1 (by_contra fun hn => ?_)
      rw [PointRec.lockedBy, if_neg hn] at hk
      cases hk
    · exact .inl ⟨ho, rfl, (hlive j).trans, hroute j⟩
  · have hent : s.entry l e = some x := by rw [h.rest] at hx; exact hx
    refine ⟨x, hent, rfl, rfl, fun ho => ?_⟩
    rcases h.pt_cases k with ⟨q, hq, rfl, -⟩ | e
    · exact absurd ho (hl.own q hq l _)
    · rw [e]; exact ⟨rfl, rfl⟩
  · rw [h.rest] at hx
    exact hu l e x hx

theorem CountsPlaced.positionsAgree_seated {s u : State} {cs : List Claim} (h : CountsPlaced s (cs.map Claim.what) u) (i : Nat)
    (hf : Fits s (cs.map Claim.what)) : s.positionsAgree → (u.modSlot i fun k => { k with claims := cs }).positionsAgree := by
  have hslot : ∀ j, u.slot j = s.slot j := fun j => by rw [h.rest]; rfl
  refine positionsAgree_of h.points (fun ha k => placed_of_counts h hf ha k) (fun _ k j ho => .inl ?_)
    (fun _ l e x k hx _ _ => .inl ?_) fun _ hu l e x hx => ?_
  · change (u.pt k).owner = _ at ho
    change _ ∧ (u.pt k).kind = _ ∧ _
    rw [h.pt_frame k] at ho ⊢
    obtain ⟨h1, h2, -⟩ := slot_modSlot_claims u i cs j
    rw [hslot] at h1 h2
    exact ⟨ho, rfl, fun e => (live_congr h1).trans e, slotRoute_congr h2 h.image⟩
  · have hent : s.entry l e = some x := by rw [h.rest] at hx; exact hx
    refine ⟨x, hent, rfl, rfl, fun _ => ?_⟩
    change (u.pt k).owner = _ ∧ (u.pt k).lockedPos = _
    rw [h.pt_frame k]; exact ⟨rfl, rfl⟩
  · rw [h.rest] at hx
    exact hu l e x hx

theorem positionsAgree_lockPt {s : State} {k l e : Nat} {p : Pos} (ho : (s.pt k).owner = none)
    (hc : (s.pt k).claims ≠ 0 → (s.pt k).claimPos = some p) : s.positionsAgree → (s.lockPt k (.remote l e) none p).positionsAgree := by
  refine positionsAgree_of (List.length_modify _ _ _) (fun ha j => ?_) (fun _ j i hj => .inl ?_) (fun _ l' e' x j hx _ _ => .inl ⟨x, hx, rfl, rfl, fun hj => ?_⟩)
    fun _ hu => hu
  · rw [lockPt_pt]
    split
    · rename_i e
      obtain ⟨rfl, -⟩ := e
      exact PointRec.placed_locked (ha.placed _) _ _ _ hc
    · exact ha.placed j
  · rw [lockPt_pt] at hj ⊢
    split at hj
    · cases hj
    · rename_i e
      rw [if_neg e]
      exact ⟨hj, rfl, id, rfl⟩
  · have hne : ¬(k = j ∧ j < s.est.points.length) := fun e => by rw [← e.1, ho] at hj; cases hj
    rw [lockPt_pt, if_neg hne]
    exact ⟨rfl, rfl⟩

theorem CountsPlaced.positionsAgree_entered {s u : State} {l e : Nat} {x : RemoteEntry} (h : CountsPlaced s (x.claims.map Claim.what) u)
    (he : Enterable s l e x) (hf : Fits s (x.claims.map Claim.what)) : s.positionsAgree → (u.setEntry l e (some x)).positionsAgree := by
  have hlive : ∀ j, (u.setEntry l e (some x)).live j = s.live j := fun j => by rw [h.rest]; rfl
  have hroute : ∀ j, (u.setEntry l e (some x)).slotRoute j = s.slotRoute j := fun j => by rw [h.rest]; rfl
  have hent : ∀ l' e', (u.setEntry l e (some x)).entry l' e' = if l = l' ∧ e = e' ∧ l < s.bdu.links.length ∧ e < (s.link l).table.length
      then some x else s.entry l' e' := fun l' e' => by
    rw [← setEntry_entry, h.rest]; rfl
  have hpt : ∀ k, (u.pt k).owner = (s.pt k).owner ∧ (u.pt k).kind = (s.pt k).kind ∧ (u.pt k).lockedPos = (s.pt k).lockedPos := fun k => by
    rw [h.pt_frame k]; exact ⟨rfl, rfl, rfl⟩
  refine positionsAgree_of h.points (fun ha k => placed_of_counts h hf ha k)
    (fun _ k j ho => .inl ⟨(hpt k).1 ▸ ho, (hpt k).2.1, (hlive j).trans, hroute j⟩) (fun _ l' e' y k hy hl hk => ?_)
    fun _ hu l' e' y hy hd => ?_
  · rw [hent] at hy
    split at hy
    · rename_i hq
      obtain ⟨rfl, rfl, -⟩ := hq
      cases hy
      obtain ⟨-, h2, h3⟩ := he.lock k hl hk
      exact .inr ⟨(hpt k).1.trans h2, (hpt k).2.2.trans h3⟩
    · exact .inl ⟨y, hy, rfl, rfl, fun _ => ⟨(hpt k).1, (hpt k).2.2⟩⟩
  · rw [hent] at hy
    split at hy
    · cases hy; exact he.undecided hd
    · exact hu l' e' y hy hd

theorem EntryLeft.positionsAgree {s t : State} {l e : Nat} {x : RemoteEntry} (h : EntryLeft s l e x t) : s.positionsAgree → t.positionsAgree := by
  have hslot : ∀ j, t.slot j = s.slot j := fun j => by rw [State.slot, State.slot, h.slots]
  have hpt : ∀ k, ((s.pt k).owner = some (.remote l e) ∧ t.pt k = (s.pt k).unlocked.less (countOn (x.claims.map Claim.what) ⟨.point, k⟩))
      ∨ t.pt k = (s.pt k).less (countOn (x.claims.map Claim.what) ⟨.point, k⟩) := fun k => by
    by_cases hk : x.lock = some ⟨.point, k⟩ ∧ (s.pt k).owner = some (.remote l e)
    · exact .inl ⟨hk.2, h.ptFreed k hk.1 hk.2⟩
    · exact .inr (h.ptKept k hk)
  refine positionsAgree_of h.points (fun ha k => ?_) (fun _ k j ho => .inl ?_) (fun _ l' e' y k hy hl _ => .inl ?_) fun _ hu l' e' y hy hd => ?_
  · rcases hpt k with ⟨-, e⟩ | e <;> rw [e]
    · exact PointRec.placed_less (PointRec.placed_unlocked (ha.placed k)) _
    · exact PointRec.placed_less (ha.placed k) _
  · rcases hpt k with ⟨-, e⟩ | e
    · rw [e] at ho; cases ho
    · rw [e] at ho ⊢
      exact ⟨ho, rfl, fun hv => (live_congr (congrArg Slot.state (hslot j))).trans hv, slotRoute_congr (congrArg Slot.route (hslot j)) h.image⟩
  · rw [h.entry] at hy
    split at hy
    · cases hy
    · rename_i hq
      refine ⟨y, hy, rfl, rfl, fun ho => ?_⟩
      rcases hpt k with ⟨ho', -⟩ | e
      · rw [ho] at ho'
        cases ho'
        exact absurd ⟨rfl, rfl⟩ hq
      · rw [e]; exact ⟨rfl, rfl⟩
  · rw [h.entry] at hy
    split at hy
    · cases hy
    · exact hu l' e' y hy hd

theorem Change.positionsAgree {s t : State} (h : Change s t) : s.positionsAgree → t.positionsAgree := by
  cases h with
  | quiet h => exact h.positionsAgree
  | yields h hg => exact h.positionsAgree hg
  | opened hi hf => exact positionsAgree_opened hf _
  | locked h hl => exact h.positionsAgree hl
  | seated h hi hl hc hf => exact h.positionsAgree_seated _ hf
  | lockSec =>
    exact positionsAgree_of rfl (fun ha => ha.placed) (fun _ _ _ ho => .inl ⟨ho, rfl, id, rfl⟩)
      (fun _ l e x _ hx _ _ => .inl ⟨x, hx, rfl, rfl, fun _ => ⟨rfl, rfl⟩⟩) fun _ hu => hu
  | @freeSec k w =>
    rw [freeSec_rest]
    exact positionsAgree_of rfl (fun ha => ha.placed) (fun _ _ _ ho => .inl ⟨ho, rfl, id, rfl⟩)
      (fun _ l e x _ hx _ _ => .inl ⟨x, hx, rfl, rfl, fun _ => ⟨rfl, rfl⟩⟩) fun _ hu => hu
  | lockPt ho hc => exact positionsAgree_lockPt ho hc
  | entered h he hf => exact h.positionsAgree_entered he hf
  | left h => exact h.positionsAgree
  | port =>
    exact positionsAgree_of rfl (fun ha => ha.placed) (fun _ _ _ ho => .inl ⟨ho, rfl, id, rfl⟩)
      (fun _ l e x _ hx _ _ => .inl ⟨x, hx, rfl, rfl, fun _ => ⟨rfl, rfl⟩⟩) fun _ hu => hu

end Sys2Proof.Machine

/-! ### What the changes keep: the positions claim entries ask -/

namespace Sys2Proof.Machine

/-- An entry that names a point is counted on it. -/
theorem claims_ne_zero {s : State} (hc : s.countsStand) {k : Nat} {p : Pos} (hw : ClaimOn.point k p ∈ s.allClaims)
    (hk : k < s.est.points.length) : (s.pt k).claims ≠ 0 := by
  rw [hc.pt k hk]; exact countOn_ne_zero hw rfl

/-- No entry is new, and where a count is left the claim position is as it was. -/
theorem claimsAsk_of_kept {s t : State} (hlen : t.est.points.length = s.est.points.length)
    (hall : ∀ k p, ClaimOn.point k p ∈ t.allClaims → ClaimOn.point k p ∈ s.allClaims)
    (hpos : ∀ k, (t.pt k).claims ≠ 0 → (t.pt k).claimPos = (s.pt k).claimPos) (ht : t.countsStand) (h : s.claimsAsk) : t.claimsAsk :=
  fun k p hw hk => (hpos k (claims_ne_zero ht hw hk)).trans (h k p (hall k p hw) (hlen ▸ hk))

/-- The entries `ws` are placed. -/
theorem claimsAsk_of_placed {s t u : State} {ws : List ClaimOn} (hu : CountsPlaced s ws u) (hf : Fits s ws) (he : t.est = u.est)
    (hall : ∀ k p, ClaimOn.point k p ∈ t.allClaims → ClaimOn.point k p ∈ s.allClaims ∨ ClaimOn.point k p ∈ ws)
    (hp : s.positionsAgree) (hc : s.countsStand) (h : s.claimsAsk) : t.claimsAsk := by
  intro k p hw hk
  have hks : k < s.est.points.length := by rw [he, hu.points] at hk; exact hk
  have hpt : t.pt k = u.pt k := by rw [State.pt, State.pt, he]
  have hold : ClaimOn.point k p ∈ ws ∨ (s.pt k).claims ≠ 0 ∧ (s.pt k).claimPos = some p :=
    (hall k p hw).symm.imp_right fun hs => ⟨claims_ne_zero hc hs hks, h k p hs hks⟩
  rw [hpt]
  by_cases h0 : countOn ws ⟨.point, k⟩ = 0
  · rw [hu.pt k hks .normal fun y hy => absurd h0 (countOn_ne_zero hy rfl), h0]
    obtain ⟨-, hpos⟩ := hold.resolve_left fun hw => countOn_ne_zero hw rfl h0
    simpa using hpos
  · obtain ⟨w, hw', hew⟩ := countOn_pos h0
    obtain ⟨x, rfl⟩ : ∃ x, w = .point k x := by
      cases w with
      | point j x => cases hew; exact ⟨x, rfl⟩
      | signal j => cases hew
      | sect j => cases hew
      | port j => cases hew
    have hx : (s.pt k).claims ≠ 0 → (s.pt k).claimPos = some x := (hf.agree hp k x hw').2
    rw [hu.pt k hks x fun y hy => hf.single k y x hy hw']
    have hxp : x = p := hold.elim (fun hw => hf.single k x p hw' hw) fun ⟨hn, hpos⟩ => Option.some.inj ((hx hn).symm.trans hpos)
    subst hxp
    show (if countOn ws ⟨.point, k⟩ ≠ 0 ∧ (s.pt k).claims = 0 then some x else (s.pt k).claimPos) = some x
    split
    · rfl
    · rename_i hn
      exact hx fun e => hn ⟨h0, e⟩

theorem Change.claimsAsk {s t : State} (h : Change s t) (hp : s.positionsAgree) (hc : s.countsStand) (ha : s.claimsAsk) : t.claimsAsk := by
  have ht := h.countsStand hc
  cases h with
  | quiet h =>
    exact claimsAsk_of_kept h.points_length (fun k p hw => h.allClaims ▸ hw) (fun k _ => congrArg (fun x => x.2.2.2.1) (h.pt_hold k)) ht ha
  | @yields i g x t h hg =>
    refine claimsAsk_of_kept h.points (fun k p hw => ?_) (fun k hk => ?_) ht ha
    · rcases mem_allClaims.1 hw with ⟨j, hj⟩ | ⟨l, e, y, hy, hw⟩
      · refine mem_allClaims.2 (.inl ⟨j, ?_⟩)
        by_cases e : j = i
        · subst e
          rw [h.slot] at hj
          exact hg.kept _ hj
        · rwa [h.slots j e] at hj
      · have hh := entry_hold_of_links h.links l e
        rw [hy] at hh
        obtain ⟨z, hz, hhz⟩ := Option.map_eq_some_iff.1 hh.symm
        have hcl : z.claims.map Claim.what = y.claims.map Claim.what := congrArg (fun z => z.2.2.2) hhz
        exact mem_allClaims.2 (.inr ⟨l, e, z, hz, hcl ▸ hw⟩)
    · by_cases hf : g.pts k
      · rw [h.ptFreed k hf] at hk ⊢
        exact PointRec.less_claimPos hk
      · rw [h.ptKept k hf] at hk ⊢
        exact PointRec.less_claimPos hk
  | @opened i k hi hf hk0 =>
    refine claimsAsk_of_kept (s := s) rfl (fun k p hw => ?_) (fun _ _ => rfl) ht ha
    rcases mem_allClaims.1 hw with ⟨j, hj⟩ | ⟨l, e, y, hy, hw⟩
    · rw [State.modSlot_slot_at] at hj
      split at hj
      · rw [hk0] at hj; cases hj
      · exact mem_allClaims.2 (.inl ⟨j, hj⟩)
    · exact mem_allClaims.2 (.inr ⟨l, e, y, hy, hw⟩)
  | locked h _ =>
    refine claimsAsk_of_kept h.points (fun k p hw => by rw [h.rest] at hw; exact hw) (fun k _ => ?_) ht ha
    rcases h.pt_cases k with ⟨q, -, -, e⟩ | e <;> simp only [e, PointRec.lockedBy]
  | @seated i cs u h hi hl hcl hf =>
    refine claimsAsk_of_placed h hf rfl (fun k p hw => ?_) hp hc ha
    rcases mem_allClaims.1 hw with ⟨j, hj⟩ | ⟨l, e, y, hy, hw⟩
    · rw [State.modSlot_slot_at] at hj
      split at hj
      · exact .inr hj
      · exact .inl (mem_allClaims.2 (.inl ⟨j, by rw [h.rest] at hj; exact hj⟩))
    · exact .inl (mem_allClaims.2 (.inr ⟨l, e, y, by rw [h.rest] at hy; exact hy, hw⟩))
  | lockSec => exact claimsAsk_of_kept rfl (fun _ _ hw => hw) (fun _ _ => rfl) ht ha
  | freeSec =>
    rw [freeSec_rest] at ht ⊢
    exact claimsAsk_of_kept rfl (fun _ _ hw => hw) (fun _ _ => rfl) ht ha
  | lockPt =>
    refine claimsAsk_of_kept (List.length_modify _ _ _) (fun _ _ hw => hw) (fun k _ => ?_) ht ha
    rw [lockPt_pt]
    split <;> rfl
  | @entered l e x u h he hf =>
    refine claimsAsk_of_placed h hf rfl (fun k p hw => ?_) hp hc ha
    rcases mem_allClaims.1 hw with ⟨j, hj⟩ | ⟨l', e', y, hy, hw⟩
    · exact .inl (mem_allClaims.2 (.inl ⟨j, by rw [h.rest] at hj; exact hj⟩))
    · rw [h.rest] at hy
      change (s.setEntry l e (some x)).entry l' e' = some y at hy
      rw [setEntry_entry] at hy
      split at hy
      · cases hy; exact .inr hw
      · exact .inl (mem_allClaims.2 (.inr ⟨l', e', y, hy, hw⟩))
  | @left l e x t h =>
    refine claimsAsk_of_kept h.points (fun k p hw => ?_) (fun k hk => ?_) ht ha
    · rcases mem_allClaims.1 hw with ⟨j, hj⟩ | ⟨l', e', y, hy, hw⟩
      · rw [State.slot, h.slots] at hj
        exact mem_allClaims.2 (.inl ⟨j, hj⟩)
      · rw [h.entry] at hy
        split at hy
        · cases hy
        · exact mem_allClaims.2 (.inr ⟨l', e', y, hy, hw⟩)
    · by_cases hf : x.lock = some ⟨.point, k⟩ ∧ (s.pt k).owner = some (.remote l e)
      · rw [h.ptFreed k hf.1 hf.2] at hk ⊢
        exact PointRec.less_claimPos hk
      · rw [h.ptKept k hf] at hk ⊢
        exact PointRec.less_claimPos hk
  | port => exact claimsAsk_of_kept rfl (fun _ _ hw => hw) (fun _ _ => rfl) ht ha

end Sys2Proof.Machine

/-! ### The acts as chains of changes: what a slot gives up -/

namespace Sys2Proof.Machine

theorem Changes.quiet {s t : State} (h : Quiet s t) : Changes s t := .single (.quiet h)

/-- A live slot goes on in another state. -/
theorem Quiet.restate {s : State} {i : Nat} (hl : s.live i = true) {f : Slot → Slot}
    (h : ∀ k, (f k).hold = (k.route, k.kind, true, k.claims.map Claim.what) := by intro _; rfl) : Quiet s (s.modSlot i f) :=
  { refl s with
    slots := by
      refine List.ext_getElem (by simp [State.modSlot]) fun j hj hj' => ?_
      simp only [State.modSlot, List.getElem_map, List.getElem_modify]
      split
      · rename_i e
        subst e
        have hs : s.slot i = s.rsu.slots[i]'(by simpa using hj') := List.getD_eq_getElem _ Slot.start _
        rw [State.live, hs] at hl
        rw [h, Slot.hold, hl]
      · rfl }

theorem Changes.ite {s t u : State} {c : Prop} [Decidable c] (h : Changes s t) (k : Changes s u) : Changes s (if c then t else u) := by
  split
  · exact h
  · exact k

theorem Changes.each {α : Type} (s : State) (l : List α) (f : State → α → State) (h : ∀ t x, Changes t (f t x)) : Changes s (s.each l f) := by
  suffices ∀ t, Changes s t → Changes s (l.foldl f t) from this s .refl
  induction l with
  | nil => exact fun t ht => ht
  | cons x l ih => exact fun t ht => ih _ (ht.trans (h t x))

/-- A chain of changes in which slot `i` stays live. -/
structure Keeps (i : Nat) (s t : State) : Prop where
  chain : Changes s t
  live : t.live i = true

namespace Keeps
variable {i : Nat} {s t u : State}

theorem refl (h : s.live i = true) : Keeps i s s := ⟨.refl, h⟩
theorem trans (h : Keeps i s t) (k : Keeps i t u) : Keeps i s u := ⟨h.chain.trans k.chain, k.live⟩
theorem quiet (h : Keeps i s t) (k : Quiet t u) : Keeps i s u := ⟨h.chain.trans (Changes.quiet k), (k.live i).trans h.live⟩

theorem each {α : Type} (h : s.live i = true) (l : List α) (f : State → α → State) (hf : ∀ t x, t.live i = true → Keeps i t (f t x)) :
    Keeps i s (s.each l f) := by
  suffices ∀ t, Keeps i s t → Keeps i s (l.foldl f t) from this s (refl h)
  induction l with
  | nil => exact fun t ht => ht
  | cons x l ih => exact fun t ht => ih _ (ht.trans (hf t x ht.live))

/-- A live slot gives up some of its own locks. -/
theorem of_locks {g : Loss} (h : Freed s i g (s.slot i) t) (hl : s.live i = true) (hc : g.claims = [])
    (hs : ∀ k, g.secs k → (s.sec k).owner = some (.slot i)) (hp : ∀ k, g.pts k → (s.pt k).owner = some (.slot i)) : Keeps i s t where
  chain := .single (.yields (h.yields (lt_of_live hl))
    { secs := hs, pts := hp, route := rfl, kind := rfl, claims := fun e => by rw [hc, countOn_nil, Nat.zero_add], kept := fun _ h => h
      live := fun _ => hl, ended := fun he => absurd he (of_decide_eq_true hl) })
  live := (live_congr (congrArg Slot.state h.slot)).trans hl

theorem freePt (hl : s.live i = true) (k : Nat) : Keeps i s (s.freePt k (.slot i)) := by
  refine of_locks (Freed.freePt s i k) hl rfl (fun _ h => h.elim) fun j hj => hj.2

theorem freeSig (hl : s.live i = true) (k : Nat) : Keeps i s (s.freeSig k i) :=
  of_locks (Freed.freeSig s i k) hl rfl (fun _ h => h.elim) fun _ h => h.elim

theorem freeSec (hl : s.live i = true) (k : Nat) (w : Owner) : Keeps i s (s.freeSec k w) :=
  ⟨.single .freeSec, by rw [freeSec_rest]; exact hl⟩

theorem countOn_filter_not (cs : List Claim) (f : Claim → Bool) (e : ElemRef) :
    countOn ((cs.filter f).map Claim.what) e + countOn ((cs.filter fun c => !f c).map Claim.what) e = countOn (cs.map Claim.what) e := by
  induction cs with
  | nil => rfl
  | cons c cs ih =>
    have hc : ∀ l : List Claim, countOn ((c :: l).map Claim.what) e = countOn [c.what] e + countOn (l.map Claim.what) e :=
      fun l => countOn_append [c.what] (l.map Claim.what) e
    by_cases hf : f c = true
    · rw [List.filter_cons_of_pos hf, List.filter_cons_of_neg (by rw [hf]; decide), hc, hc]
      omega
    · rw [List.filter_cons_of_neg hf, List.filter_cons_of_pos (by simpa using hf), hc, hc]
      omega

theorem releaseClaims (hl : s.live i = true) (f : Claim → Bool) : Keeps i s (s.releaseClaims i f) := by
  have h := Freed.releaseClaims (lt_of_live hl) f
  refine ⟨.single (.yields (h.yields (lt_of_live hl)) ?_), (live_congr ((congrArg Slot.state h.slot).trans rfl)).trans hl⟩
  exact {
    secs := fun _ h => h.elim
    pts := fun _ h => h.elim
    route := rfl
    kind := rfl
    claims := countOn_filter_not _ f
    kept := fun w hw => by
      obtain ⟨c, hc, rfl⟩ := List.mem_map.1 hw
      exact List.mem_map_of_mem (List.mem_filter.1 hc).1
    live := fun _ => hl
    ended := fun he => absurd he (of_decide_eq_true hl) }

theorem withdrawWhere (hl : s.live i = true) (f : RemoteReq → Bool) : Keeps i s (s.withdrawWhere i f) :=
  ((refl hl).quiet (Quiet.each s _ _ fun t r => Quiet.withdraw t i r)).quiet (Quiet.modSlot _ i)

theorem releaseSection (hl : s.live i = true) (d : RouteDef) (r : Nat) : Keeps i s (s.releaseSection i d r) := by
  have h1 := freeSec hl (d.path.getD r 0) (.slot i)
  have h2 := h1.trans (each h1.live ((numbered d.pathPoints).filter fun p => p.2.fouling = r) _ fun t p ht => freePt ht p.2.pt)
  exact (h2.trans (releaseClaims h2.live _)).quiet (Quiet.modSlot _ i)

theorem releaseFrom (hl : s.live i = true) (d : RouteDef) (h fuel r : Nat) : Keeps i s (s.releaseFrom i d h fuel r) := by
  induction fuel generalizing s r with
  | zero => exact refl hl
  | succ fuel ih =>
    unfold State.releaseFrom
    split
    · have h1 := releaseSection hl d r
      exact h1.trans (ih h1.live _)
    · exact refl hl

theorem releaseOverlap (hl : s.live i = true) : Keeps i s (s.releaseOverlap i) := by
  have h1 := each hl ((s.slotRoute i).overlapSecs.filter fun k => decide ((s.sec k).kind = some .overlap)) _
    fun t k ht => freeSec ht k (.slot i)
  unfold State.releaseOverlap
  simp only []
  refine Keeps.quiet (Keeps.quiet ?_ (Quiet.modSlot _ i)) (Quiet.note _ _)
  have h2 := h1.trans (each h1.live (((s.slotRoute i).overlapPoints.map Prod.fst).filter fun k => decide ((s.pt k).kind = some .overlap)) _
    fun t k ht => freePt ht k)
  have h3 := h2.trans (releaseClaims h2.live Claim.ofOverlap)
  exact h3.trans (withdrawWhere h3.live _)

theorem takeEntry (hl : s.live i = true) : Keeps i s (s.takeEntry i) := by
  have h1 := (refl hl).quiet (Quiet.setAspect s (s.slotRoute i).entry .stop)
  have h2 := h1.trans (freeSig h1.live (s.slotRoute i).entry)
  exact (h2.quiet (Quiet.restate h2.live)).quiet (Quiet.note _ _)

end Keeps
end Sys2Proof.Machine

/-! ### The acts as chains of changes: instances -/

namespace Sys2Proof.Machine

namespace Changes
variable {s : State} {i : Nat}

theorem settleConflict (s : State) (p : Nat) : Changes s (s.settleConflict p) := by
  unfold State.settleConflict
  split
  · rename_i h
    simp only [Bool.and_eq_true, decide_eq_true_eq, Bool.not_eq_true'] at h
    obtain ⟨⟨-, hv⟩, he⟩ := h
    exact .single (.port { out := fun _ => .inr he, into := fun hi hg => by rw [hi hg] at hv; cases hv })
  · exact .refl

/-- The end of a slot: all it holds goes, then its port's view may go NEUTRAL. -/
theorem endSlot (hi : i < s.rsu.slots.length) (r : EndReason) : Changes s (s.endSlot i r) := by
  have hq := Quiet.stopEntry s i
  have hi' : i < (s.stopEntry i).rsu.slots.length := hq.slots_length.symm ▸ hi
  have hf := (Freed.freeAll (s := s.stopEntry i) hi' r).yields hi'
  have h : Changes s ((s.stopEntry i).freeAll i r) := (Changes.quiet hq).tail (.yields hf
    { secs := fun _ h => h, pts := fun _ h => h, route := rfl, kind := rfl, claims := fun e => Nat.add_zero _
      kept := fun w hw => by cases hw
      live := fun hn => absurd rfl hn
      ended := fun _ => ⟨rfl, fun _ h => h, fun _ h => h, fun _ h => h⟩ })
  rw [endSlot_eq]
  split
  · exact h.trans (settleConflict _ _)
  · exact h

/-- The end of a slot at the end of a chain. -/
theorem thenEnd {t : State} (h : Keeps i s t) (r : EndReason) : Changes s (t.endSlot i r) :=
  h.chain.trans (endSlot (lt_of_live h.live) r)

end Changes

namespace Keeps
variable {i : Nat} {s : State}

theorem setClearing (h : s.live i = true) : Keeps i s (s.setClearing i) :=
  ((refl h).quiet (Quiet.restate h)).quiet (Quiet.setAspect _ _ _)

theorem tryClear (h : s.live i = true) : Keeps i s (s.tryClear i) := by
  unfold State.tryClear
  split
  · exact setClearing h
  · exact refl h

theorem tryProve (h : s.live i = true) : Keeps i s (s.tryProve i) := by
  unfold State.tryProve
  split
  · exact (refl h).quiet (Quiet.restate h)
  · exact refl h

theorem hold (h : s.live i = true) : Keeps i s (s.hold i) := by
  have h1 := (refl h).quiet (Quiet.setAspect s (s.slotRoute i).entry .stop)
  exact (h1.quiet (Quiet.restate h1.live)).quiet (Quiet.modSlot _ i)

theorem stopEntry (h : s.live i = true) : Keeps i s (s.stopEntry i) := (refl h).quiet (Quiet.stopEntry s i)
theorem beginRelease (h : s.live i = true) : Keeps i s (s.beginRelease i) := (refl h).quiet (Quiet.restate h)

end Keeps

namespace Changes
variable {s : State} {i : Nat}

theorem berth (h : s.live i = true) (d : RouteDef) : Changes s (s.berth i d) := by
  unfold State.berth
  simp only []
  split
  · exact endSlot (lt_of_live h) .passed
  · exact .quiet (Quiet.restate h)

theorem tryBerth (s : State) (i : Nat) (d : RouteDef) (h : Nat) : Changes s (s.tryBerth i d h) := by
  unfold State.tryBerth
  split
  · rename_i hc
    exact berth (by rw [State.live, hc.1]; rfl) d
  · exact .refl

theorem tryLast (s : State) (i : Nat) (d : RouteDef) (h : Nat) : Changes s (s.tryLast i d h) := by
  unfold State.tryLast
  split
  · rename_i hc
    exact endSlot (lt_of_live (by rw [State.live, hc.1]; rfl)) .passed
  · exact .refl

/-! #### The passage -/

theorem evaluateFrom (old : State) (hl : s.live i = true) (d : RouteDef) (h r : Nat) : Changes s (Machine.evaluateFrom old s i d h r) := by
  unfold Machine.evaluateFrom
  split
  · exact .quiet ((Quiet.each s _ _ fun t x => Quiet.markSequence t i x).trans (Quiet.tryVanished _ _ _ _ _))
  · have h1 := (Keeps.refl hl).quiet (Quiet.tryVanished s old i d h)
    exact ((h1.trans (Keeps.releaseFrom h1.live d h d.path.length r)).chain.trans (tryBerth _ _ _ _)).trans (tryLast _ _ _ _)

theorem evaluate (old : State) (hl : s.live i = true) : Changes s (Machine.evaluate old s i) := by
  unfold Machine.evaluate
  simp only []
  split
  · have hq : ∀ n, Keeps i s (if n < (s.slotRoute i).path.length then
        Machine.markOccupied old (s.modSlot i fun k => { k with head := some n }) i (s.slotRoute i).overlapSecs
      else s.modSlot i fun k => { k with head := some n }) := fun n =>
      (Keeps.refl hl).quiet ((Quiet.modSlot s i).trans (Quiet.ite (Quiet.markOccupied _ old i _) (Quiet.refl _)))
    exact ite (hq _).chain ((hq _).chain.trans (evaluateFrom old (hq _).live _ _ _))
  · exact .refl

theorem enter (old : State) (hl : s.live i = true) : Changes s (Machine.enter old s i) := by
  have h1 := Keeps.takeEntry hl
  unfold Machine.enter
  simp only []
  split
  · rename_i k _
    have h2 := h1.quiet (Quiet.markSequence (s.takeEntry i) i k)
    exact h2.chain.trans (evaluate old h2.live)
  · exact h1.chain.trans (evaluate old h1.live)

/-! #### Reactions (R67 to R74, R112, R114) -/

theorem reactSetting (old : State) (hl : s.live i = true) : Changes s (Machine.reactSetting old s i) := by
  unfold Machine.reactSetting
  simp only []
  split
  · split
    · exact endSlot (lt_of_live hl) _
    · have h1 := (Keeps.refl hl).quiet (Quiet.refreshPending s i)
      exact (h1.trans (Keeps.tryClear h1.live)).chain
  · exact thenEnd ((Keeps.refl hl).quiet (Quiet.markOccupied s old i _)) _

theorem reactClearing (old : State) (hl : s.live i = true) : Changes s (Machine.reactClearing old s i) := by
  have h1 := ((Keeps.refl hl).quiet (Quiet.markOccupied s old i (s.slotRoute i).sections)).quiet (Quiet.refreshPending _ i)
  unfold Machine.reactClearing
  simp only []
  split
  · exact (h1.trans (Keeps.tryProve h1.live)).chain
  · exact (h1.trans (Keeps.hold h1.live)).chain

theorem reactCleared (old : State) (hl : s.live i = true) : Changes s (Machine.reactCleared old s i) := by
  have h1 := (Keeps.refl hl).quiet (Quiet.markOccupied s old i (s.slotRoute i).beyondEntry)
  unfold Machine.reactCleared
  split
  · exact enter old hl
  · simp only []
    split
    · exact h1.chain
    · exact (h1.trans (Keeps.hold h1.live)).chain

theorem markPassedEnter (old : State) (hl : s.live i = true) : Changes s (Machine.enter old (s.markPassed i) i) := by
  have h1 := (Keeps.refl hl).quiet (Quiet.markPassed s i)
  exact h1.chain.trans (enter old h1.live)

theorem reactHeld (old : State) (hl : s.live i = true) : Changes s (Machine.reactHeld old s i) := by
  unfold Machine.reactHeld
  split
  · exact markPassedEnter old hl
  · exact .quiet ((Quiet.markOccupied s old i _).trans (Quiet.modSlot _ i))

theorem reactApproach (old : State) (hl : s.live i = true) : Changes s (Machine.reactApproach old s i) := by
  unfold Machine.reactApproach
  split
  · exact markPassedEnter old hl
  · exact .quiet (Quiet.markOccupied s old i _)

theorem reactRelease (old : State) (s : State) (i : Nat) : Changes s (Machine.reactRelease old s i) := by
  unfold Machine.reactRelease
  split
  · exact .refl
  · exact .quiet ((Quiet.ite (Quiet.markPassed s i) (Quiet.refl s)).trans (Quiet.markOccupied _ old i _))

theorem react (old s : State) (i : Nat) : Changes s (Machine.react old s i) := by
  have hlive : ∀ x, (s.slot i).state = x → x ≠ .free → s.live i = true := fun x hx hn => by
    rw [State.live, hx, decide_eq_true hn]
  unfold Machine.react
  split <;> rename_i hs
  · exact .refl
  · exact reactSetting old (hlive _ hs (by decide))
  · exact reactClearing old (hlive _ hs (by decide))
  · exact reactCleared old (hlive _ hs (by decide))
  · exact reactHeld old (hlive _ hs (by decide))
  · exact reactApproach old (hlive _ hs (by decide))
  · exact reactRelease old s i
  · exact ite (evaluate old (hlive _ hs (by decide))) .refl
  · exact ite (evaluate old (hlive _ hs (by decide))) .refl

/-! #### Timers and commands of a slot -/

theorem cancelCleared (hl : s.live i = true) : Changes s (s.cancelCleared i) := by
  have h1 := Keeps.stopEntry hl
  unfold State.cancelCleared
  simp only []
  split
  · exact (h1.quiet (Quiet.restate h1.live)).chain
  · exact thenEnd h1 .cancelled

theorem settingExpiry (s : State) (i : Nat) : Changes s (s.settingExpiry i) := by
  unfold State.settingExpiry
  split <;> rename_i hs
  · have hl : s.live i = true := by rw [State.live, hs]; rfl
    exact thenEnd ((Keeps.refl hl).quiet (Quiet.refreshPending s i)) _
  · exact cancelCleared (by rw [State.live, hs]; rfl)
  · exact .refl

theorem forcedRelease (s : State) (i : Nat) : Changes s (s.forcedRelease i) := by
  have hlive : ∀ x, (s.slot i).state = x → x ≠ .free → s.live i = true := fun x hx hn => by
    rw [State.live, hx, decide_eq_true hn]
  have hstop : s.live i = true → Changes s ((s.stopEntry i).beginRelease i) := fun hl =>
    ((Keeps.stopEntry hl).trans (Keeps.beginRelease (Keeps.stopEntry hl).live)).chain
  unfold State.forcedRelease
  split <;> rename_i hs
  · exact endSlot (lt_of_live (hlive _ hs (by decide))) .forced
  · exact hstop (hlive _ hs (by decide))
  · exact hstop (hlive _ hs (by decide))
  · exact hstop (hlive _ hs (by decide))
  · exact (Keeps.beginRelease (hlive _ hs (by decide))).chain
  · exact (Keeps.beginRelease (hlive _ hs (by decide))).chain
  · exact (Keeps.beginRelease (hlive _ hs (by decide))).chain
  · exact .refl
  · exact .refl

theorem cancelLive (s : State) (i : Nat) : Changes s (s.cancelLive i).1 := by
  have hlive : ∀ x, (s.slot i).state = x → x ≠ .free → s.live i = true := fun x hx hn => by
    rw [State.live, hx, decide_eq_true hn]
  unfold State.cancelLive
  simp only []
  split <;> rename_i hs
  · exact endSlot (lt_of_live (hlive _ hs (by decide))) .cancelled
  · exact cancelCleared (hlive _ hs (by decide))
  · exact cancelCleared (hlive _ hs (by decide))
  · exact cancelCleared (hlive _ hs (by decide))
  · exact .refl
  · exact .refl
  · exact .refl
  · exact .refl
  · exact .refl

end Changes
end Sys2Proof.Machine

/-! ### The acts as chains of changes: acceptances and line directions -/

namespace Sys2Proof.Machine

theorem PortFits.of_view {s : State} {p : Nat} {q : Port} (hv : q.view = (s.port p).view)
    (hi : q.incGranted = true → (s.port p).incGranted = true) : PortFits s p q :=
  ⟨fun h => .inl (hv.trans h), fun h hg => hv.trans (h (hi hg))⟩

/-- A view that is not kept is none that an acceptance stands on. -/
theorem PortFits.of_requesting {s : State} {p : Nat} {q : Port} (hv : (s.port p).view = .requesting)
    (hi : q.incGranted = true → (s.port p).incGranted = true) : PortFits s p q :=
  ⟨fun h => (by rw [hv] at h; cases h), fun h hg => (by have := h (hi hg); rw [hv] at this; cases this)⟩

theorem PortFits.unrequest {s : State} {p : Nat} {q : Port} (hv : q.view = (s.port p).unrequest.view)
    (hi : q.incGranted = true → (s.port p).incGranted = true) : PortFits s p q := by
  by_cases h : (s.port p).view = .requesting
  · exact .of_requesting h hi
  · refine .of_view (hv.trans ?_) hi
    rw [Port.unrequest, if_neg h]

theorem Port.unrequest_incGranted (q : Port) : q.unrequest.incGranted = q.incGranted := by
  unfold Port.unrequest
  split <;> rfl

namespace Changes
variable {s : State} {p : Nat}

theorem port {f : Port → Port} (h : PortFits s p (f (s.port p))) : Changes s (s.modPort p f) := .single (.port h)

theorem noIncoming (s : State) (p : Nat) : Changes s (s.modPort p Port.noIncoming) := port (.of_view rfl fun h => (by cases h))

theorem unrequest (s : State) (p : Nat) : Changes s (s.modPort p Port.unrequest) :=
  port (.unrequest rfl fun h => Port.unrequest_incGranted _ ▸ h)

/-- Releasing an acceptance's section leaves the ports. -/
theorem freeAcceptance_port (s : State) (p k : Nat) : (s.freeAcceptance p).port k = s.port k := by
  rw [State.freeAcceptance, freeSec_rest]; rfl

theorem freeAcceptance (s : State) (p : Nat) : Changes s (s.freeAcceptance p) := .single .freeSec

/-! #### Acceptances (R155, R156) -/

theorem endReceiving (hg : (s.port p).incGranted = true) : Changes s (s.endReceiving p) := by
  refine (freeAcceptance s p).trans (port ?_)
  rw [freeAcceptance_port]
  split
  · exact .of_view (by rw [freeAcceptance_port]; rfl) fun h => (by cases h)
  · exact .of_view (by rw [freeAcceptance_port]) fun _ => by rw [freeAcceptance_port]; exact hg

theorem portEdges (old s : State) (p : Nat) : Changes s (Machine.portEdges old s p) := by
  unfold Machine.portEdges
  split
  · exact .refl
  · simp only []
    split <;> rename_i hi
    · have hg : (s.port p).incGranted = true := by rw [Port.incGranted, hi]
      refine ite (endReceiving hg) (ite (port ?_) .refl)
      exact .of_view rfl fun _ => hg
    · exact ite (endReceiving (by rw [Port.incGranted, hi])) .refl
    · exact .refl

theorem withdrawIncoming (s : State) (p : Nat) : Changes s (s.withdrawIncoming p) := by
  unfold State.withdrawIncoming
  split
  · exact (freeAcceptance s p).trans (noIncoming _ p)
  · exact port (.of_view rfl id)
  · exact noIncoming s p
  · exact noIncoming s p
  · exact .refl

theorem decideIncoming (s : State) (p tag : Nat) : Changes s (s.decideIncoming p tag) := by
  unfold State.decideIncoming
  split
  · rename_i h
    simp only [State.mayAccept, Bool.and_eq_true, decide_eq_true_eq] at h
    obtain ⟨⟨⟨hv, -⟩, -⟩, -⟩ := h
    have h1 : Change s (s.lockSec (s.portDef p).sec (.accept p) none) := .lockSec fun i h => by cases h
    exact .trans (.single h1) (port ⟨fun h => .inl h, fun _ _ => hv⟩)
  · exact port (.of_view rfl fun h => (by cases h))

theorem takeIncoming (s : State) (p : Nat) (x : Option Nat) : Changes s (s.takeIncoming p x) := by
  cases x with
  | none => exact withdrawIncoming s p
  | some tag =>
    exact ite .refl (ite ((withdrawIncoming s p).trans (decideIncoming _ p tag)) (withdrawIncoming s p))

/-! #### Directions (R149 to R153) -/

theorem decideDirection (s : State) (p : Nat) : Changes s (s.decideDirection p) := by
  unfold State.decideDirection
  split
  · exact .refl
  · simp only []
    split
    · rename_i h
      simp only [State.directionConditions, Bool.and_eq_true, Bool.not_eq_true'] at h
      obtain ⟨⟨⟨-, ht⟩, -⟩, -⟩ := h
      exact (unrequest s p).trans (port ⟨fun _ => .inr ht, fun _ _ => rfl⟩)
    · exact (unrequest s p).trans (port (.of_view rfl id))

theorem takeNbView (s : State) (p : Nat) (v : NbView) : Changes s (s.takeNbView p v) :=
  ite (ite (decideDirection s p) .refl) (port (.of_view rfl id))

theorem takeDirAns (s : State) (p : Nat) (a : DirAns) : Changes s (s.modPort p (Port.takeDirAns a)) := by
  refine port ?_
  unfold Port.takeDirAns
  simp only []
  split
  · exact .of_view rfl id
  · rename_i hv
    have hv := not_not.1 hv
    cases a with
    | none => exact .of_view rfl id
    | grant => exact .of_requesting hv id
    | refuse => exact .of_requesting hv fun h => (by rw [Port.unrequest_incGranted] at h; exact h)

theorem reconcile (s : State) (p : Nat) (v : NbView) : Changes s (s.reconcile p v) := by
  have h1 : Quiet s (s.modPort p fun q => { q with nbView := v }) := Quiet.modPort s p
  have hv : ((s.modPort p fun q => { q with nbView := v }).port p).view = (s.port p).view := congrArg Prod.fst (h1.port_hold p)
  unfold State.reconcile
  simp only []
  split
  · exact .quiet h1
  · split <;> rename_i hs
    · refine (Changes.quiet h1).trans (port ⟨fun h => ?_, fun _ _ => rfl⟩)
      rw [hv, hs] at h; cases h
    · refine (Changes.quiet h1).trans (port ⟨fun h => ?_, fun _ _ => rfl⟩)
      rw [hv, hs] at h; cases h
    · refine (Changes.quiet h1).trans (port ⟨fun _ => ?_, fun h hg => ?_⟩)
      · split
        · exact .inl rfl
        · rename_i hn
          exact .inr (by simpa using hn)
      · have := h hg
        rw [hv, hs] at this; cases this
    · exact .quiet h1

theorem portLeaveUp (s : State) (p : Nat) : Changes s (s.modPort p Port.leaveUp) := by
  refine port (.unrequest rfl fun h => ?_)
  rw [← Port.unrequest_incGranted]
  exact h

theorem forceDirection (h : (s.port p).incGranted = false) : Changes s (s.forceDirection p) := by
  refine port ?_
  split
  · exact .of_view rfl id
  · exact ⟨fun _ => .inl rfl, fun _ hg => by rw [show Port.incGranted { s.port p with view := .out, prev := none, conflict := false } = _ from h] at hg; cases hg⟩

theorem cmdRequestDirection (s : State) (o : Originator) (p : Nat) : Changes s (s.cmdRequestDirection o p).1 := by
  unfold State.cmdRequestDirection
  split
  · exact .refl
  · simp only []
    split; exact .refl
    split; exact .refl
    rename_i hv
    iterate 2 (split; exact .refl)
    split; exact .refl
    rename_i hi
    iterate 2 (split; exact .refl)
    exact port ⟨fun h => absurd h hv, fun _ hg => absurd hg hi⟩

end Changes
end Sys2Proof.Machine

/-! ### The acts as chains of changes: remote claim entries -/

namespace Sys2Proof.Machine

/-! #### Releasing an entry (R158) -/

theorem freePt_rest (s : State) (k : Nat) (w : Owner) : s.freePt k w = { s with
    est.points := (s.freePt k w).est.points, slu.noticeQ := (s.freePt k w).slu.noticeQ, releaseDue := (s.freePt k w).releaseDue } := by
  unfold State.freePt
  split
  · rw [note_eq]; rfl
  · rfl

theorem freePt_length (s : State) (k : Nat) (w : Owner) : (s.freePt k w).est.points.length = s.est.points.length := by
  unfold State.freePt
  split
  · rw [note_eq]; exact List.length_modify _ _ _
  · rfl

theorem freePt_pt (s : State) (k : Nat) (w : Owner) (j : Nat) : (s.freePt k w).pt j =
    if k = j ∧ (s.pt j).owner = some w then (s.pt j).unlocked else s.pt j := by
  unfold State.freePt
  by_cases ho : (s.pt k).owner = some w
  · rw [if_pos ho, note_eq]
    change (s.modPt k _).pt j = _
    rw [State.modPt_pt_at]
    by_cases hj : k = j
    · subst hj
      rw [if_pos ⟨rfl, lt_of_ptOwner ho⟩, if_pos ⟨rfl, ho⟩]; rfl
    · rw [if_neg fun e => hj e.1, if_neg fun e => hj e.1]
  · rw [if_neg ho, if_neg (fun e : k = j ∧ _ => ho (e.1 ▸ e.2))]

theorem dropCount_rest (s : State) (c : ClaimOn) : (s.dropCount c).rsu = s.rsu ∧ (s.dropCount c).bdu = s.bdu := by
  unfold State.dropCount
  obtain ⟨hn, -⟩ := Freed.noteClaimed_noted (if s.claimCount c = 1 then (s.takeCount c).releaseEvent else s.takeCount c) c
  rw [hn]
  split <;> rw [Freed.takeCount_rest] <;> exact ⟨rfl, rfl⟩

theorem each_dropCount_rest (s : State) (cs : List Claim) : (s.each cs fun t c => t.dropCount c.what).rsu = s.rsu
    ∧ (s.each cs fun t c => t.dropCount c.what).bdu = s.bdu := by
  induction cs generalizing s with
  | nil => exact ⟨rfl, rfl⟩
  | cons c cs ih =>
    obtain ⟨h1, h2⟩ := ih (s.dropCount c.what)
    obtain ⟨h3, h4⟩ := dropCount_rest s c.what
    exact ⟨h1.trans h3, h2.trans h4⟩

/-- What is left of an entry once its lock has gone. -/
theorem entryLeft_of_lock {s u : State} {l e : Nat} {x : RemoteEntry} (hx : s.entry l e = some x)
    (hsec : ∀ k, (u.sec k).claims = (s.sec k).claims ∧ ∀ v, (u.sec k).owner = some v → (s.sec k).owner = some v)
    (hpt : ∀ k, u.pt k = if x.lock = some ⟨.point, k⟩ ∧ (s.pt k).owner = some (.remote l e) then (s.pt k).unlocked else s.pt k)
    (hsl : u.est.sections.length = s.est.sections.length) (hpl : u.est.points.length = s.est.points.length)
    (hrest : u = { s with est.sections := u.est.sections, est.points := u.est.points, slu.noticeQ := u.slu.noticeQ, releaseDue := u.releaseDue }) :
    EntryLeft s l e x ((u.each x.claims fun t c => t.dropCount c.what).setEntry l e none) := by
  have hf := Freed.eachClaim u 0 x.claims
  obtain ⟨hr, hb⟩ := each_dropCount_rest u x.claims
  have hsig : u.est.signals = s.est.signals := by rw [hrest]
  generalize u.each x.claims (fun t c => t.dropCount c.what) = v at hf hr hb
  exact {
    stood := hx
    secOwner := fun k i ho => by
      change (v.sec k).owner = _ at ho
      rw [hf.secKept k id] at ho
      exact (hsec k).2 _ ho
    secClaims := fun k => by
      change (v.sec k).claims = _
      rw [hf.secKept k id, ← (hsec k).1]; rfl
    ptFreed := fun k hl ho => by
      change v.pt k = _
      rw [hf.ptKept k id, hpt, if_pos ⟨hl, ho⟩]; rfl
    ptKept := fun k hn => by
      change v.pt k = _
      rw [hf.ptKept k id, hpt, if_neg hn]; rfl
    sig := fun k => by
      change v.sig k = _
      rw [hf.sigKept k id, State.sig, hsig]; rfl
    sections := hf.sections.trans hsl
    points := hf.points.trans hpl
    signals := hf.signals.trans (congrArg List.length hsig)
    slots := (congrArg Rsu.slots hr).trans (by rw [hrest])
    bdu := by
      have : v.bdu = s.bdu := hb.trans (by rw [hrest])
      rw [State.setEntry, State.setEntry, State.modLink, State.modLink, this]
    image := by
      have h1 : v.image = u.image := by rw [hf.rest]; rfl
      exact h1.trans (by rw [hrest]; rfl)
    power := by
      have h1 : v.mdc = u.mdc := by rw [hf.rest]
      exact (congrArg Mdc.power h1).trans (by rw [hrest]) }

namespace Changes
variable {s : State}

theorem releaseEntry (s : State) (l e : Nat) : Changes s (s.releaseEntry l e) := by
  unfold State.releaseEntry
  split
  · exact .refl
  · rename_i x hx
    simp only []
    split <;> rename_i hl
    · refine .single (.left (entryLeft_of_lock hx (freeSec_sec s _ _) (fun k => ?_) (freeSec_length s _ _) ?_ ?_))
      · rw [if_neg (fun h : x.lock = some ⟨.point, k⟩ ∧ _ => by rw [hl] at h; cases h.1), freeSec_rest]; rfl
      · rw [freeSec_rest]
      · rw [freeSec_rest]
    · rename_i j
      refine .single (.left (entryLeft_of_lock hx (fun k => ?_) (fun k => ?_) ?_ (freePt_length s _ _) ?_))
      · rw [freePt_rest]; exact ⟨rfl, fun _ => id⟩
      · rw [freePt_pt, hl]
        simp only [Option.some.injEq, ElemRef.mk.injEq, true_and]
      · rw [freePt_rest]
      · rw [freePt_rest]
    · refine .single (.left (entryLeft_of_lock hx (fun k => ⟨rfl, fun _ => id⟩) (fun k => ?_) rfl rfl rfl))
      rw [if_neg]
      rintro ⟨h, -⟩
      exact hl k h

end Changes

/-! #### A place in the table -/

/-- The place is in the table of a link, and vacant. -/
structure Vacancy (s : State) (l e : Nat) : Prop where
  link : l < s.bdu.links.length
  place : e < (s.link l).table.length
  vacant : s.vacant l e

theorem Vacancy.of_bdu {s t : State} {l e : Nat} (h : Vacancy s l e) (ht : t.bdu = s.bdu) : Vacancy t l e := by
  have hl : ∀ l, t.link l = s.link l := fun l => by rw [State.link, State.link, ht]
  refine ⟨ht ▸ h.link, hl l ▸ h.place, fun x hx => h.vacant x ?_⟩
  rw [State.entry, ← hl]
  exact hx

theorem Vacancy.of_quiet {s t : State} {l e : Nat} (h : Vacancy s l e) (hq : Quiet s t) : Vacancy t l e := by
  refine ⟨hq.links_length ▸ h.link, (hq.table_length l).symm ▸ h.place, fun x hx => ?_⟩
  obtain ⟨y, hy, hh⟩ := hq.entry_some hx
  exact (congrArg (fun z => z.2.1) hh).trans (h.vacant y hy)

theorem Fits.nil (s : State) : Fits s [] :=
  ⟨fun _ _ _ h => absurd h List.not_mem_nil, fun _ _ _ h => absurd h List.not_mem_nil, fun _ h => absurd rfl h, fun _ h => absurd rfl h,
    fun _ h => absurd rfl h⟩

/-- An entry without claims is written; a point it locks is locked for it. -/
theorem Changes.enterBare {s : State} {l e : Nat} (h : Vacancy s l e) (x : RemoteEntry) (hc : x.claims = [])
    (hl : ∀ k, x.lock = some ⟨.point, k⟩ → k < s.est.points.length → (s.pt k).owner = some (.remote l e)
      ∧ (s.pt k).lockedPos = some x.ask.position) (hd : x.decided = false → x.lock = none) : Changes s (s.setEntry l e (some x)) := by
  refine .single (.entered (u := s) ?_ ⟨h.link, h.place, h.vacant, fun k hk hlt => ⟨hc, hl k hk hlt⟩, fun hx => ⟨hc, hd hx⟩⟩ ?_)
  · rw [hc]; exact countsPlaced_nil s
  · rw [hc]; exact Fits.nil s

/-- Writing one and the same entry after a quiet operation that leaves the tables. -/
theorem Quiet.setEntry {s t : State} (h : Quiet s t) (hb : t.bdu = s.bdu) (l e : Nat) (x : Option RemoteEntry) :
    Quiet (s.setEntry l e x) (t.setEntry l e x) :=
  { h with
    links := by rw [State.setEntry, State.setEntry, State.modLink, State.modLink, hb]
    ports := by rw [State.setEntry, State.setEntry, State.modLink, State.modLink, hb] }

end Sys2Proof.Machine

/-! ### The acts as chains of changes: requests of a neighbour -/

namespace Sys2Proof.Machine

/-! #### What a decision rests on (R159 to R161) -/

theorem reservePt_lockPt {s : State} {i j : Nat} {p q : Pos} {shared : Bool} (h : s.reservePt i p shared = .lockPt j q) :
    j = i ∧ q = p ∧ (s.pt i).owner = none ∧ ((s.pt i).claims ≠ 0 → (s.pt i).claimPos = some p) := by
  unfold State.reservePt at h
  split at h
  · cases h
  · split at h
    · cases h
    · rename_i hn
      split at h
      · rename_i hs
        cases h
        have hs : shared = false := by simpa using hs
        refine ⟨rfl, rfl, ?_, fun hc => ?_⟩
        · by_contra ho
          exact hn (.inr (.inl ⟨Option.isSome_iff_ne_none.2 ho, hs⟩))
        · by_contra hp
          exact hn (.inr (.inr (.inl ⟨hc, hp⟩)))
      · split at h <;> cases h

theorem reservePt_claims {s : State} {i : Nat} {p : Pos} {shared : Bool} {cs : List Claim} (h : s.reservePt i p shared = .claims cs) :
    cs = [freshClaim (.point i p)] ∧ shared = true ∧ (s.pt i).claims < 48 ∧ ((s.pt i).claims ≠ 0 → (s.pt i).claimPos = some p) := by
  unfold State.reservePt at h
  split at h
  · cases h
  · split at h
    · cases h
    · rename_i hn
      split at h
      · cases h
      · rename_i hs
        split at h
        · rename_i hc
          cases h
          refine ⟨rfl, by simpa using hs, hc, fun hc => ?_⟩
          by_contra hp
          exact hn (.inr (.inr (.inl ⟨hc, hp⟩)))
        · cases h

theorem reserveSec_claims {s : State} {i : Nat} {shared : Bool} {cs : List Claim} (h : s.reserveSec i shared = .claims cs) :
    cs = [freshClaim (.sect i)] ∧ (s.sec i).claims < 48 := by
  unfold State.reserveSec at h
  split at h
  · cases h
  · split at h
    · cases h
    · split at h
      · cases h
      · split at h
        · rename_i hc
          cases h
          exact ⟨rfl, hc⟩
        · cases h

theorem reserveSec_lockPt {s : State} {i j : Nat} {shared : Bool} {q : Pos} : s.reserveSec i shared ≠ .lockPt j q := by
  intro h
  unfold State.reserveSec at h
  split at h
  · cases h
  · split at h
    · cases h
    · split at h
      · cases h
      · split at h <;> cases h

theorem reserveSig_lockPt {s : State} {i j : Nat} {q : Pos} : s.reserveSig i ≠ .lockPt j q := by
  intro h
  unfold State.reserveSig at h
  split at h
  · cases h
  · split at h <;> cases h

theorem reserveSig_claims {s : State} {i : Nat} {cs : List Claim} (h : s.reserveSig i = .claims cs) :
    cs = [freshClaim (.signal i)] ∧ (s.sig i).holds < 48 := by
  unfold State.reserveSig at h
  split at h
  · cases h
  · split at h
    · cases h
    · rename_i hn
      cases h
      exact ⟨rfl, not_le.1 fun hc => hn (.inr hc)⟩

/-- A request that is not refused names an element and a state of its class, and its class decides. -/
theorem decideReserve_eq {s : State} {l e : Nat} {a : Ask} {D : Decision} (h : s.decideReserve l e a = D) (hn : ∀ r, D ≠ .refuse r) :
    ∃ x st, a.state = some st ∧ ((∃ i, x = ⟨.sect, i⟩ ∧ D = s.reserveSec i (s.sharedLock l e a x))
      ∨ (∃ i, x = ⟨.point, i⟩ ∧ D = s.reservePt i (if st = .normal then .normal else .reverse) (s.sharedLock l e a x))
      ∨ ∃ i, x = ⟨.signal, i⟩ ∧ D = s.reserveSig i) := by
  unfold State.decideReserve at h
  split at h
  · exact absurd h.symm (hn _)
  · rename_i x _
    split at h
    · exact absurd h.symm (hn _)
    · rename_i st hst
      obtain ⟨ha, -⟩ := Option.filter_eq_some_iff.1 hst
      split at h
      · exact absurd h.symm (hn _)
      · obtain ⟨c, i⟩ := x
        cases c with
        | sect => exact ⟨_, st, ha, .inl ⟨i, rfl, h.symm⟩⟩
        | point => exact ⟨_, st, ha, .inr (.inl ⟨i, rfl, h.symm⟩)⟩
        | signal => exact ⟨_, st, ha, .inr (.inr ⟨i, rfl, h.symm⟩)⟩

theorem position_eq {a : Ask} {st : ReqState} (h : a.state = some st) : (if st = .normal then Pos.normal else .reverse) = a.position := by
  rw [Ask.position, h]
  by_cases hs : st = .normal
  · rw [hs]; rfl
  · rw [if_neg hs, if_neg fun e => hs (Option.some.inj e)]

theorem decideFlank_not_lockPt {s : State} {l i : Nat} {a : Ask} {p : Pos} : s.decideFlank l a ≠ .lockPt i p := by
  intro h
  unfold State.decideFlank at h
  split at h
  · cases h
  · split at h <;> cases h

theorem decideFlank_claims {s : State} {l : Nat} {a : Ask} {cs : List Claim} (h : s.decideFlank l a = .claims cs) :
    ∃ p v, s.searchPort p = .going cs v := by
  unfold State.decideFlank at h
  split at h
  · cases h
  · rename_i p _
    split at h
    · rename_i c v hs
      cases h
      exact ⟨p, v, hs⟩
    · cases h
    · cases h

theorem decideRequest_lockPt {s : State} {l e i : Nat} {a : Ask} {p : Pos} (h : s.decideRequest l e a = .lockPt i p) :
    p = a.position ∧ (s.pt i).owner = none ∧ ((s.pt i).claims ≠ 0 → (s.pt i).claimPos = some p) := by
  unfold State.decideRequest at h
  split at h
  · exact absurd h decideFlank_not_lockPt
  · obtain ⟨x, st, ha, hc⟩ := decideReserve_eq h fun _ h => by cases h
    rcases hc with ⟨j, -, hd⟩ | ⟨j, -, hd⟩ | ⟨j, -, hd⟩
    · exact absurd hd.symm reserveSec_lockPt
    · obtain ⟨rfl, hp, h1, h2⟩ := reservePt_lockPt hd.symm
      rw [position_eq ha] at hp h2
      subst hp
      exact ⟨rfl, h1, h2⟩
    · exact absurd hd.symm reserveSig_lockPt

/-- Another entry of the link locks the element with the request (R161). -/
theorem sharedLock_some {s : State} {l e : Nat} {a : Ask} {x : ElemRef} (h : s.sharedLock l e a x = true) :
    ∃ j y, s.entry l j = some y ∧ y.ask = a ∧ y.lock = some x := by
  unfold State.sharedLock at h
  obtain ⟨j, -, hj⟩ := List.any_eq_true.1 h
  rw [Bool.and_eq_true] at hj
  obtain ⟨y, hy, he⟩ := Option.any_eq_true _ _ |>.1 hj.2
  rw [Bool.and_eq_true, decide_eq_true_eq, decide_eq_true_eq] at he
  exact ⟨j, y, hy, he⟩

theorem fits_single {s : State} {w : ClaimOn} (ha : s.positionsAgree → ∀ k p, w = .point k p →
    ((s.pt k).owner ≠ none → (s.pt k).lockedPos = some p) ∧ ((s.pt k).claims ≠ 0 → (s.pt k).claimPos = some p))
    (hs : ∀ k, w = .sect k → (s.sec k).claims < 48) (hp : ∀ k p, w = .point k p → (s.pt k).claims < 48)
    (hg : ∀ k, w = .signal k → (s.sig k).holds < 48) : Fits s [w] where
  agree h k p hw := ha h k p (List.mem_singleton.1 hw).symm
  single k p q h h' := (ClaimOn.point.inj ((List.mem_singleton.1 h).trans (List.mem_singleton.1 h').symm)).2
  sec k h := by
    rw [countOn_singleton] at h ⊢
    cases w with
    | sect j =>
      have : j = k := by by_contra hn; exact h (if_neg fun e => hn (by cases e; rfl))
      subst this
      have := hs j rfl
      simp only [ClaimOn.elem?, if_true]
      omega
    | _ => exact absurd (if_neg fun e => by cases e) h
  pt k h := by
    rw [countOn_singleton] at h ⊢
    cases w with
    | point j p =>
      have : j = k := by by_contra hn; exact h (if_neg fun e => hn (by cases e; rfl))
      subst this
      have := hp j p rfl
      simp only [ClaimOn.elem?, if_true]
      omega
    | _ => exact absurd (if_neg fun e => by cases e) h
  sig k h := by
    rw [countOn_singleton] at h ⊢
    cases w with
    | signal j =>
      have : j = k := by by_contra hn; exact h (if_neg fun e => hn (by cases e; rfl))
      subst this
      have := hg j rfl
      simp only [ClaimOn.elem?, if_true]
      omega
    | _ => exact absurd (if_neg fun e => by cases e) h

/-- Where a search counts no lock and no claim as absent, what it hands over fits. -/
theorem ListFits.fits {s : State} {n : Need} {cs : List Claim} (h : ListFits s n cs) (hd : n.donor = none) (ha : n.absent = []) :
    Fits s (cs.map Claim.what) := by
  have hroom := h.room
  refine ⟨fun hp k p hw => ?_, fun k p q hw hw' => ?_, fun k hk => ?_, fun k hk => ?_, fun k hk => ?_⟩
  · obtain ⟨c, hc, hcw⟩ := List.mem_map.1 hw
    obtain ⟨h1, h2⟩ := h.point c hc k p hcw
    refine ⟨fun ho => ?_, fun hn => ?_⟩
    · unfold State.lockAgrees at h1
      rw [Bool.and_eq_true, Bool.or_eq_true, decide_eq_true_eq] at h1
      refine h1.1.resolve_left fun hh => ?_
      simp [State.ptHeld, Need.lockAbsent, hd, ho] at hh
    · have hne : (s.pt k).claimPos ≠ none := fun e => hn ((hp.placed k).claim.2 e)
      obtain ⟨y, hy⟩ := Option.ne_none_iff_exists'.1 hne
      have hcl : s.claimLeft n k = some y := by
        unfold State.claimLeft
        rw [if_neg, hy]
        simpa [State.countLeft, ha, countOn_nil] using hn
      unfold State.claimAgrees at h2
      rw [hcl] at h2
      rw [hy, of_decide_eq_true h2]
  · obtain ⟨c, hc, hcw⟩ := List.mem_map.1 hw
    obtain ⟨c', hc', hcw'⟩ := List.mem_map.1 hw'
    exact h.single c hc c' hc' k p q hcw hcw'
  · simpa [State.countLeft, ha, countOn_nil, tentative, Config.maxClaims] using hroom ⟨.sect, k⟩ hk
  · simpa [State.countLeft, ha, countOn_nil, tentative, Config.maxClaims] using hroom ⟨.point, k⟩ hk
  · simpa [State.countLeft, ha, countOn_nil, tentative, Config.maxClaims] using hroom ⟨.signal, k⟩ hk

theorem decideRequest_claims {s : State} {l e : Nat} {a : Ask} {cs : List Claim} (h : s.decideRequest l e a = .claims cs) :
    Fits s (cs.map Claim.what) := by
  unfold State.decideRequest at h
  split at h
  · obtain ⟨p, v, hs⟩ := decideFlank_claims h
    have hf : (s.searchPort p).Fits s ⟨[], [], none, none, [], Config.localClaims, true⟩ := by
      unfold State.searchPort
      exact explore_fits 4 (listFits_nil _ _)
    rw [hs] at hf
    exact ListFits.fits hf rfl rfl
  · obtain ⟨x, st, ha, hc⟩ := decideReserve_eq h fun _ h => by cases h
    rcases hc with ⟨j, -, hd⟩ | ⟨j, rfl, hd⟩ | ⟨j, -, hd⟩
    · obtain ⟨rfl, hlt⟩ := reserveSec_claims hd.symm
      exact fits_single (fun _ _ _ h => by cases h) (fun k hk => by cases hk; exact hlt) (fun _ _ h => by cases h) fun _ h => by cases h
    · obtain ⟨rfl, hsh, hlt, hpos⟩ := reservePt_claims hd.symm
      obtain ⟨m, y, hy, hya, hyl⟩ := sharedLock_some hsh
      refine fits_single (fun hp k p hk => ?_) (fun _ h => by cases h) (fun k p hk => by cases hk; exact hlt) fun _ h => by cases h
      cases hk
      refine ⟨fun ho => ?_, hpos⟩
      obtain ⟨w, hw⟩ := Option.ne_none_iff_exists'.1 ho
      rw [(hp.entry l m y j hy hyl (lt_of_ptOwner hw)).2, hya, position_eq ha]
    · obtain ⟨rfl, hlt⟩ := reserveSig_claims hd.symm
      exact fits_single (fun _ _ _ h => by cases h) (fun _ h => by cases h) (fun _ _ h => by cases h) fun k hk => by cases hk; exact hlt

end Sys2Proof.Machine

/-! ### The acts as chains of changes: telegrams -/

namespace Sys2Proof.Machine

/-! #### What every chain leaves -/

theorem Change.links_length {s t : State} (h : Change s t) : t.bdu.links.length = s.bdu.links.length := by
  cases h with
  | quiet h => exact h.links_length
  | yields h _ => exact length_of_map_eq h.links
  | opened => rfl
  | locked h _ => rw [h.rest]
  | seated h => exact congrArg (fun u => u.bdu.links.length) h.rest
  | lockSec => rfl
  | freeSec => rw [freeSec_rest]
  | lockPt => rfl
  | @entered l e x u h => exact (List.length_modify _ _ _).trans (congrArg (fun u => u.bdu.links.length) h.rest)
  | left h => rw [h.bdu]; exact List.length_modify _ _ _
  | port => rfl

theorem Changes.links_length {s t : State} (h : Changes s t) : t.bdu.links.length = s.bdu.links.length := by
  induction h with
  | refl => rfl
  | tail _ h ih => exact h.links_length.trans ih

theorem Changes.power {s t : State} (h : Changes s t) : t.mdc.power = s.mdc.power := by
  induction h with
  | refl => rfl
  | tail _ h ih => exact h.power.trans ih

namespace Changes
variable {s : State}

/-! #### Requests (R158 to R161) -/

theorem settle {l e : Nat} (hv : Vacancy s l e) (tag : Nat) (a : Ask) : Changes s (s.settle l e tag a) := by
  unfold State.settle
  simp only []
  split <;> rename_i hd
  · rename_i r
    have hq : Quiet s (s.windowRefusal l a r) := Quiet.ite (Quiet.modLink s l) (Quiet.refl s)
    exact (Changes.quiet hq).trans (enterBare (hv.of_quiet hq) _ rfl (fun _ h => by cases h) fun h => by cases h)
  · rename_i i
    have h1 : Change s (s.lockSec i (.remote l e) none) := .lockSec fun _ h => by cases h
    have hv1 : Vacancy (s.lockSec i (.remote l e) none) l e := hv.of_bdu rfl
    refine Relation.ReflTransGen.trans (.single h1) ?_
    exact enterBare hv1 _ rfl (fun _ h => by cases h) fun h => by cases h
  · rename_i i p
    obtain ⟨hp, ho, hc⟩ := decideRequest_lockPt hd
    have h1 : Change s (s.lockPt i (.remote l e) none p) := .lockPt ho hc
    have hq := Quiet.moveIfOther (s.lockPt i (.remote l e) none p) i p
    have hv1 : Vacancy (s.lockPt i (.remote l e) none p) l e := hv.of_bdu rfl
    refine (Relation.ReflTransGen.single h1).trans ((Changes.quiet hq).trans (enterBare (hv1.of_quiet hq) _ rfl (fun k hk hlt => ?_) fun h => by cases h))
    cases hk
    rw [hq.points_length] at hlt
    have hpt : (s.lockPt i (.remote l e) none p).pt i = { s.pt i with owner := some (.remote l e), kind := none, lockedPos := some p } := by
      rw [lockPt_pt, if_pos ⟨rfl, by simpa [State.lockPt, State.modPt] using hlt⟩]
    have hh := hq.pt_hold i
    rw [hpt] at hh
    exact ⟨congrArg Prod.fst hh, (congrArg (fun x => x.2.2.1) hh).trans (congrArg some hp)⟩
  · rename_i cs
    have hmoved : PointsMoved (s.placeCounts cs) (claimedPoints cs) ((s.placeCounts cs).beginClaimMoves cs) := by
      rw [beginClaimMoves_eq]; exact each_moveIfOther _ _
    have hq := (Quiet.beginClaimMoves (s.placeCounts cs) cs).setEntry (by rw [hmoved.rest]) l e
    generalize (s.placeCounts cs).beginClaimMoves cs = u at hq ⊢
    have hw : (u.placed cs).map Claim.what = cs.map Claim.what := by
      rw [State.placed, List.map_map]; rfl
    refine (Relation.ReflTransGen.single (.entered (x := RemoteEntry.granting ⟨tag, a, .working, true, false, none, u.placed cs⟩
      ((u.placed cs).all fun c => u.elemIntact c.what)) (u := s.placeCounts cs) ?_
      ⟨hv.link, hv.place, hv.vacant, (fun _ h => by cases h), (fun h => by cases h)⟩ ?_)).trans (Changes.quiet (hq _))
    · show CountsPlaced s ((u.placed cs).map Claim.what) _
      rw [hw]; exact placeCounts_placed s cs
    · show Fits s ((u.placed cs).map Claim.what)
      rw [hw]; exact decideRequest_claims hd

theorem takeRequest {l : Nat} (hl : l < s.bdu.links.length) (q : Nat × Ask) : Changes s (s.takeRequest l q) := by
  unfold State.takeRequest
  split
  · rename_i e he
    split
    · rename_i h
      rw [Bool.and_eq_true] at h
      obtain ⟨x, hx, hd⟩ := (Option.any_eq_true _ _).1 h.2
      refine settle ⟨hl, (entry_lt hx).2, fun y hy => ?_⟩ _ _
      rw [hx] at hy
      cases hy
      simpa using hd
    · exact .refl
  · split
    · exact .refl
    · rename_i e he
      obtain ⟨hlt, hn, -⟩ := List.findIdx?_eq_some_iff_getElem.1 he
      have hv : Vacancy s l e := ⟨hl, hlt, fun y hy => by
        rw [State.entry, List.getD_eq_getElem _ _ hlt] at hy
        rw [hy] at hn; cases hn⟩
      exact ite (settle hv _ _) (enterBare hv _ rfl (fun _ h => by cases h) fun _ => rfl)

theorem eachRequest {l : Nat} (hl : l < s.bdu.links.length) (reqs : List (Nat × Ask)) : Changes s (s.each reqs fun t q => t.takeRequest l q) := by
  induction reqs generalizing s with
  | nil => exact .refl
  | cons q reqs ih =>
    have h1 := takeRequest hl q
    exact h1.trans (ih ((Changes.links_length h1) ▸ hl))

theorem takeRequests {l : Nat} (hl : l < s.bdu.links.length) (reqs : List (Nat × Ask)) : Changes s (s.takeRequests l reqs) := by
  unfold State.takeRequests
  simp only []
  have h1 := each s ((List.range (s.link l).table.length).filter fun e => goesAt reqs false (s.entry l e)) _ fun t e => releaseEntry t l e
  have h2 := h1.trans (each _ ((List.range (s.link l).table.length).filter fun e => goesAt reqs true
    ((s.each ((List.range (s.link l).table.length).filter fun e => goesAt reqs false (s.entry l e)) fun t e => t.releaseEntry l e).entry l e)) _
    fun t e => releaseEntry t l e)
  exact h2.trans (eachRequest ((Changes.links_length h2) ▸ hl) reqs)

/-! #### Accepted telegrams (R144 to R147) -/

theorem takePortEntry (s : State) (p : Nat) (e : PortEntry) : Changes s (s.takePortEntry p e) :=
  ((((Changes.quiet (Quiet.modPort s p)).trans (takeNbView _ p _)).trans (takeDirAns _ p _)).trans
    (Changes.quiet (Quiet.takeAccAns _ p _ _))).trans (takeIncoming _ p _)

theorem missPortEntry (s : State) (p : Nat) : Changes s (s.missPortEntry p) :=
  (Changes.quiet (Quiet.takeAccAns s p _ _)).trans (takeIncoming _ p _)

theorem actStatus {l : Nat} (hl : l < s.bdu.links.length) (ports : List PortEntry) (reqs : List (Nat × Ask)) (as : List AnsItem) :
    Changes s (s.actStatus l ports reqs as) := by
  have h1 : Changes s (s.each (numbered (s.portsOf l)) fun t x => match t.entryFor l x.1 ports with
      | some e => t.takePortEntry x.2 e
      | none => t.missPortEntry x.2) := each s _ _ fun t x => by
    split
    · exact takePortEntry t _ _
    · exact missPortEntry t _
  have h2 := h1.trans (Changes.quiet (Quiet.takeAnswers _ l as))
  exact h2.trans (takeRequests ((Changes.links_length h2) ▸ hl) reqs)

theorem actHello (s : State) (l : Nat) (seen : Bool) (ps : List HelloPort) : Changes s (s.actHello l seen ps) :=
  ite (((Changes.quiet (Quiet.modLink s l)).trans (each _ _ _ fun t (x : Nat × HelloPort) => reconcile t x.1 x.2.view)).trans (Changes.quiet (Quiet.modLink _ l)))
    (Changes.quiet (Quiet.modLink s l))

theorem leaveUp (s : State) (l : Nat) : Changes s (s.leaveUp l) :=
  ite .refl ((each s _ _ fun t p => (portLeaveUp t p).trans (Changes.quiet (Quiet.note _ _))).trans (Changes.quiet (Quiet.note _ _)))

theorem disturb (s : State) (l : Nat) : Changes s (s.disturb l) := (leaveUp s l).trans (Changes.quiet (Quiet.modLink _ l))

theorem enterHello (s : State) (l : Nat) : Changes s (s.enterHello l) := (leaveUp s l).trans (Changes.quiet (Quiet.modLink _ l))

theorem actTelegram {l : Nat} (hl : l < s.bdu.links.length) (b : TelBody) : Changes s (s.actTelegram l b) := by
  unfold State.actTelegram
  split
  · exact .refl
  · exact disturb s l
  · exact actHello s l _ _
  · exact (enterHello s l).trans (actHello _ l _ _)
  · exact actStatus hl _ _ _
  · split
    · have h1 := Changes.quiet (Quiet.modLink s l (f := fun k => { k with state := .up }))
      exact h1.trans (actStatus ((Changes.links_length h1) ▸ hl) _ _ _)
    · exact .refl
  · exact enterHello s l

theorem receive (s : State) (l : Nat) (bs : List Byte) : Changes s (s.receive l bs) := by
  unfold State.receive
  split
  · exact .refl
  · rename_i h
    have hl : l < s.bdu.links.length := by
      simp only [State.sends, State.equipped, Bool.not_eq_true', Bool.not_eq_false, Bool.and_eq_true, decide_eq_true_eq] at h
      exact h.2.2
    split
    · exact .refl
    · exact .refl
    · exact disturb s l
    · rename_i n _ _
      have h1 := Changes.quiet (Quiet.noteSequence s l n)
      exact ite h1 (h1.trans (actTelegram ((Changes.links_length h1) ▸ hl) _))

theorem clearRemote (s : State) (l : Nat) : Changes s (s.clearRemote l) :=
  (each s _ _ fun t e => releaseEntry t l e).trans (each _ _ _ fun t p => withdrawIncoming t p)

end Changes
end Sys2Proof.Machine

/-! ### The acts as chains of changes: acceptance (R65) -/

namespace Sys2Proof.Machine

namespace Quiet
variable {s t : State}

/-- Writing to one slot after a quiet operation that leaves the slots. -/
theorem modSlot_after (h : Quiet s t) (hr : t.rsu.slots = s.rsu.slots) (i : Nat) (f : Slot → Slot) : Quiet (s.modSlot i f) (t.modSlot i f) :=
  { h with slots := by rw [State.modSlot_slots, State.modSlot_slots, hr] }

theorem noteClaimed (s : State) (w : ClaimOn) : Quiet s (s.noteClaimed w) := by
  cases w with
  | point k x => exact note s _
  | signal k => exact note s _
  | sect k => exact note s _
  | port p => exact refl s

theorem noteMoved (s old : State) (gone : List ClaimOn) : Quiet s (s.noteMoved old gone) := each s _ _ noteClaimed

theorem takenToZero (s : State) (gone : List ClaimOn) : Quiet s (s.takenToZero gone) := ite (releaseEvent s) (refl s)

theorem post (s : State) (i : Nat) (w : RemoteWhat) (l : Nat) : Quiet s (s.post i w l) := by
  cases w with
  | ask a => exact ((modLink s l).trans (modLink _ l)).trans (modSlot _ i)
  | acceptance p => exact ((modLink s l).trans (modPort _ p)).trans (modSlot _ i)

end Quiet

/-! #### The donor gives its overlap (R66, R99) -/

theorem TakesOver.yields {s t : State} {d : RouteDef} {j : Nat} (h : TakesOver s d j t) (hj : j < s.rsu.slots.length) :
    Yields s j ⟨s.overlapSec j d, s.overlapPt j d, fun _ => False, ((s.slot j).claims.filter Claim.ofOverlap).map Claim.what, []⟩ (t.slot j) t where
  secFreed := h.secFreed
  secKept := h.secKept
  ptFreed := h.ptFreed
  ptKept := h.ptKept
  sigFreed := fun _ h => h.elim
  sigKept := fun k _ => h.sig k
  room := hj
  slot := rfl
  slots := h.slots
  slotsLength := h.slotsLength
  sections := h.sections
  points := h.points
  signals := h.signals
  links := map_eq_of_getD (d := Link.start) h.links fun l => show (t.link l).hold = (s.link l).hold by rw [h.link l]; rfl
  ports := by rw [h.rest]
  image := by rw [h.rest]; rfl
  power := by rw [h.rest]

theorem TakesOver.given {s t : State} {d : RouteDef} {j : Nat} (h : TakesOver s d j t) (hl : s.live j = true) :
    Given s j ⟨s.overlapSec j d, s.overlapPt j d, fun _ => False, ((s.slot j).claims.filter Claim.ofOverlap).map Claim.what, []⟩ (t.slot j) where
  secs := fun _ ⟨_, _, ho, _⟩ => ho
  pts := fun _ ⟨_, _, ho, _⟩ => ho
  route := by rw [h.slot]
  kind := by rw [h.slot]
  claims := fun e => by rw [h.slot]; exact Keeps.countOn_filter_not _ Claim.ofOverlap e
  kept := fun w hw => by
    rw [h.slot] at hw
    obtain ⟨c, hc, rfl⟩ := List.mem_map.1 hw
    exact List.mem_map_of_mem (List.mem_filter.1 hc).1
  live := fun _ => hl
  ended := fun he => by
    rw [h.slot] at he
    exact absurd he (of_decide_eq_true hl)

section
variable {s a : State} {o : Originator} {d : RouteDef} {i : Nat} (h : HandsOver s o d i a)
include h

theorem HandsOver.claims_left (k : Nat) : (a.pt k).claims = s.countLeft (s.needOf d) ⟨.point, k⟩ := by
  by_cases hg : s.givesPt d k
  · rw [h.ptFreed k hg]; rfl
  · rw [h.ptKept k hg]; rfl

theorem HandsOver.claimPos_left {k : Nat} (hc : (a.pt k).claims ≠ 0) : (a.pt k).claimPos = (s.pt k).claimPos := by
  by_cases hg : s.givesPt d k
  · rw [h.ptFreed k hg] at hc ⊢
    exact PointRec.less_claimPos hc
  · rw [h.ptKept k hg] at hc ⊢
    exact PointRec.less_claimPos hc

end

section
variable {s : State} {d : RouteDef} {i : Nat} {cs : List Claim} (ad : Admitted s d i cs) (hn : s.routeDef? d.number = some d) (o : Originator)
include ad

theorem Admitted.handsOver : HandsOver s o d i (s.handedOver o d i) := handedOver_handsOver ad.slot ad.free

include hn in
theorem Admitted.handOver_changes : Changes s (s.handedOver o d i) := by
  have h1 : Change s (s.modSlot i fun _ => d.freshSlot o) := by
    refine .opened ad.slot ad.free rfl fun hk => ?_
    have hr : (s.modSlot i fun _ => d.freshSlot o).slotRoute i = d :=
      slotRoute_eq (by rw [State.modSlot_slot_at, if_pos ⟨rfl, ad.slot⟩]; rfl) hn
    rw [hr]
    exact ad.port (Option.some.inj hk)
  refine .trans (.single h1) ?_
  unfold State.handedOver
  cases hd : s.donor d with
  | none => exact .refl
  | some j =>
    have hne : i ≠ j := fun e => by
      have := ad.free
      rw [e, donor_live hd] at this; cases this
    have hl : (s.modSlot i fun _ => d.freshSlot o).live j = true :=
      (live_congr (by rw [State.modSlot_slot_at, if_neg fun e => hne e.1])).trans (donor_live hd)
    have h := takeOver_takesOver (d := d) (lt_of_live hl)
    exact .single (.yields (h.yields (lt_of_live hl)) (h.given hl))

/-- A donor's overlap lock on a route's element is counted as absent, and only that. -/
theorem Admitted.lockable (hn : s.routeDef? d.number = some d) : Lockable (s.handedOver o d i) i d := by
  have h := ad.handsOver o
  generalize s.handedOver o d i = a at h
  have hi : a.routeDef? d.number = some d := by rw [h.rest]; exact hn
  exact {
    live := by rw [State.live, h.slot]; rfl
    route := slotRoute_eq (by rw [h.slot]; rfl) hi
    own := fun q hq l e he => by
      obtain ⟨-, h2, -⟩ := ad.pts q hq
      by_cases hg : s.givesPt d q.1
      · rw [h.ptFreed q.1 hg] at he; cases he
      · rw [h.ptKept q.1 hg] at he
        change (s.pt q.1).owner = _ at he
        obtain ⟨-, -, h4⟩ := h2 (by rw [he]; exact Option.some_ne_none _)
        rw [he] at h4
        obtain ⟨j, -, hj⟩ := Option.map_eq_some_iff.1 h4.symm
        cases hj
    agree := fun hp q hq hc => by
      obtain ⟨-, -, h3⟩ := ad.pts q hq
      have hs : (a.pt q.1).claimPos ≠ none := fun e => hc ((hp.placed q.1).claim.2 e)
      rw [h.claimPos_left hc] at hs ⊢
      rw [h.claims_left] at hc
      have h3 := h3 hc
      obtain ⟨y, hy⟩ := Option.ne_none_iff_exists'.1 hs
      rw [hy] at h3 ⊢
      refine congrArg some ?_
      by_contra hyq
      exact h3 (congrArg some (Pos.ne_iff_eq_other.1 hyq)) }

/-- The claims found fit once the route is locked. -/
theorem Admitted.fits_locked {b : State} (hb : RouteLocked (s.handedOver o d i) i d b) :
    Machine.Fits b (cs.map Claim.what) := by
  have h := ad.handsOver o
  generalize s.handedOver o d i = a at h hb
  have hroute : ∀ j, s.donor d = some j → b.slotRoute j = s.slotRoute j := fun j hj => by
    refine slotRoute_congr ?_ (by rw [hb.rest, h.rest]; rfl)
    have hbj : b.slot j = a.slot j := by rw [hb.rest]; rfl
    rw [hbj, (h.donor j hj).1]
  have hpt : ∀ k, k ∉ d.points.map Prod.fst → b.pt k = a.pt k := fun k hk => hb.ptKept k fun e => hk e.1
  have hclaims : ∀ k, (b.pt k).claims = (a.pt k).claims ∧ (b.pt k).claimPos = (a.pt k).claimPos := fun k => by
    by_cases hk : k ∈ d.points.map Prod.fst ∧ k < a.est.points.length
    · obtain ⟨q, -, -, e⟩ := hb.pt k hk.1 hk.2
      rw [e]; exact ⟨rfl, rfl⟩
    · rw [hb.ptKept k hk]; exact ⟨rfl, rfl⟩
  have hroom : ∀ e, countOn (cs.map Claim.what) e ≠ 0 → s.countLeft (s.needOf d) e + countOn (cs.map Claim.what) e ≤ 48 := ad.fits.room
  refine ⟨fun hp k p hw => ?_, fun k p q hw hw' => ?_, fun k hk => ?_, fun k hk => ?_, fun k hk => ?_⟩
  · obtain ⟨c, hc, hcw⟩ := List.mem_map.1 hw
    obtain ⟨h1, h2⟩ := ad.fits.point c hc k p hcw
    refine ⟨fun ho => ?_, fun hcl => ?_⟩
    · by_cases hk : k ∈ d.points.map Prod.fst
      · obtain ⟨w, hw⟩ := Option.ne_none_iff_exists'.1 ho
        have hkl : k < a.est.points.length := hb.points ▸ lt_of_ptOwner hw
        obtain ⟨q, hq, hqk, e⟩ := hb.pt k hk hkl
        rw [e]
        exact congrArg some (ad.claim_agrees ⟨c, hc, hcw⟩ (List.mem_append_right _ hq) hqk)
      · have hov := ((positionsAgree_iff b).1 hp).2.1 k
        rw [hpt k hk] at ho hov ⊢
        unfold State.lockAgrees at h1
        rw [Bool.and_eq_true, Bool.or_eq_true, decide_eq_true_eq] at h1
        by_cases hg : s.givesPt d k
        · rw [h.ptFreed k hg] at ho; exact absurd rfl ho
        · rw [h.ptKept k hg] at ho hov ⊢
          refine h1.1.resolve_left fun hh => hg ?_
          have hs : (s.pt k).owner ≠ none := ho
          rw [Bool.not_eq_true', ← Bool.not_eq_true, ptHeld_iff] at hh
          obtain ⟨hk1, -, hd⟩ := not_not.1 fun e => hh ⟨hs, e⟩
          obtain ⟨w, hw⟩ := Option.ne_none_iff_exists'.1 hs
          rw [hw] at hd
          obtain ⟨j, hj, hjw⟩ := Option.map_eq_some_iff.1 hd.symm
          rw [← hjw] at hw
          exact ⟨j, hj, hroute j hj ▸ (hov j hw).2 hk1, hk, hw, hk1⟩
    · rw [(hclaims k).1] at hcl
      have hne : (a.pt k).claimPos ≠ none := fun e => hcl (by
        rw [← (hclaims k).1]; exact (hp.placed k).claim.2 ((hclaims k).2.trans e))
      rw [(hclaims k).2, h.claimPos_left hcl]
      rw [h.claimPos_left hcl] at hne
      rw [h.claims_left] at hcl
      obtain ⟨y, hy⟩ := Option.ne_none_iff_exists'.1 hne
      have hleft : s.claimLeft (s.needOf d) k = some y := by rw [State.claimLeft, if_neg hcl, hy]
      unfold State.claimAgrees at h2
      rw [hleft] at h2
      rw [hy, of_decide_eq_true h2]
  · obtain ⟨c, hc, hcw⟩ := List.mem_map.1 hw
    obtain ⟨c', hc', hcw'⟩ := List.mem_map.1 hw'
    exact ad.fits.single c hc c' hc' k p q hcw hcw'
  · refine le_trans (Nat.add_le_add_right (le_of_eq ?_) _) (hroom _ hk)
    have hbs : (b.sec k).claims = (a.sec k).claims := by
      by_cases hk : k ∈ d.sections ∧ k < a.est.sections.length
      · by_cases ho : k ∈ d.overlapSecs
        · rw [hb.secOverlap k ho hk.2]; rfl
        · rw [hb.secPath k ((List.mem_append.1 hk.1).resolve_right ho) ho hk.2]; rfl
      · rw [hb.secKept k hk]
    rw [hbs]
    by_cases hg : s.givesSec d k
    · rw [h.secFreed k hg]; rfl
    · rw [h.secKept k hg]; rfl
  · rw [(hclaims k).1, h.claims_left]
    exact hroom _ hk
  · have hbg : (b.sig k).holds = (s.sig k).holds - countOn (s.needOf d).absent ⟨.signal, k⟩ := by
      rw [hb.sig, h.sig]
      split <;> rfl
    rw [hbg]
    exact hroom _ hk

theorem Admitted.prepared_changes (hn : s.routeDef? d.number = some d) : Keeps i s (s.prepared o d i cs) := by
  have h1 := ad.handOver_changes hn o
  have hl := ad.lockable o hn
  have hh := ad.handsOver o
  have hb := lockRoute_locked (s.handedOver o d i) i d
  have hf := ad.fits_locked o hb
  unfold State.prepared
  generalize s.handedOver o d i = a at h1 hl hh hb hf ⊢
  generalize a.lockRoute i d = b at hb hf ⊢
  have hbs : ∀ j, b.slot j = a.slot j := fun j => by rw [hb.rest]; rfl
  have h2 : Changes s b := h1.trans (.single (.locked hb hl))
  have hlive : b.live i = true := (live_congr (congrArg Slot.state (hbs i))).trans hl.live
  have hlen : i < b.rsu.slots.length := lt_of_live hlive
  have hc := placeCounts_placed b cs
  generalize b.placeCounts cs = c at hc ⊢
  have hq : Quiet c (((c.noteMoved s (s.needOf d).absent).takenToZero (s.needOf d).absent).each (claimedPoints cs ++ d.points)
      fun t q => t.moveIfOther q.1 q.2) :=
    ((Quiet.noteMoved c _ _).trans (Quiet.takenToZero _ _)).trans (Quiet.each _ _ _ fun t q => Quiet.moveIfOther t q.1 q.2)
  have hslots : (((c.noteMoved s (s.needOf d).absent).takenToZero (s.needOf d).absent).each (claimedPoints cs ++ d.points)
      fun t q => t.moveIfOther q.1 q.2).rsu.slots = c.rsu.slots := by
    rw [(each_moveIfOther _ _).rest]
    have hz : ∀ u : State, (u.takenToZero (s.needOf d).absent).rsu = u.rsu := fun u => by
      unfold State.takenToZero; split <;> rfl
    show ((c.noteMoved s (s.needOf d).absent).takenToZero _).rsu.slots = _
    rw [hz, State.noteMoved, ((each_noteClaimed c _).1).eq]
  simp only []
  generalize ((c.noteMoved s (s.needOf d).absent).takenToZero (s.needOf d).absent).each (claimedPoints cs ++ d.points)
    (fun t q => t.moveIfOther q.1 q.2) = m at hq hslots ⊢
  have hw : (m.placed cs).map Claim.what = cs.map Claim.what := by rw [State.placed, List.map_map]; rfl
  have h3 : Change b (c.modSlot i fun k => { k with claims := m.placed cs }) :=
    .seated (hw ▸ hc) hlen hlive (by rw [hbs, hh.slot]; rfl) (hw ▸ hf)
  have h4 : Keeps i s (c.modSlot i fun k => { k with claims := m.placed cs }) := by
    refine ⟨h2.tail h3, ?_⟩
    have hcl : i < c.rsu.slots.length := by rw [hc.rest]; exact hlen
    have hcs : c.slot i = b.slot i := by rw [hc.rest]; rfl
    refine Eq.trans (live_congr ?_) hlive
    rw [State.modSlot_slot_at, if_pos ⟨rfl, hcl⟩, hcs]
  exact (((h4.quiet (hq.modSlot_after hslots i _)).quiet (Quiet.each _ _ _ fun t (x : RemoteWhat × Nat) => Quiet.post t i x.1 x.2)).quiet
    (Quiet.modSlot _ i)).quiet (Quiet.refreshPending _ i)

end

/-! #### Acceptance and retry (R65, R80) -/

theorem Changes.acceptRoute {s : State} {o : Originator} {route i : Nat} {retry : Bool} {cs : List Claim} {d : RouteDef}
    (h : s.routeChecks o route retry = .accepted i cs) (hd : s.routeDef? route = some d) : Changes s (s.acceptRoute o d i cs) := by
  rw [acceptRoute_eq]
  have h1 := (routeChecks_admitted h hd).prepared_changes o (by rw [number_of_routeDef hd, hd])
  exact ((h1.trans (Keeps.tryClear h1.live)).quiet (Quiet.note _ _)).chain

end Sys2Proof.Machine

/-! ### The acts as chains of changes: what follows an act, commands, modes -/

namespace Sys2Proof.Machine

namespace Quiet

theorem setSecRestr (s : State) (i : Nat) (x : SecRestr) : Quiet s (s.setSecRestr i x) := { refl s with }
theorem setPtRestr (s : State) (i : Nat) (x : PtRestr) : Quiet s (s.setPtRestr i x) := { refl s with }
theorem setSigRestr (s : State) (i : Nat) (x : SigRestr) : Quiet s (s.setSigRestr i x) := { refl s with }
theorem releaseDue (s : State) (b : Bool) : Quiet s { s with releaseDue := b } := { refl s with }

theorem addRestriction (s : State) (x : Restriction) : Quiet s (s.addRestriction x) := by
  cases x with
  | secNoRoute i => exact setSecRestr s i _
  | speed i v => exact setSecRestr s i _
  | ptNoRoute i => exact setPtRestr s i _
  | noMove i => exact setPtRestr s i _
  | noFlankMove i => exact setPtRestr s i _
  | sigNoRoute i => exact setSigRestr s i _
  | noClear i => exact setSigRestr s i _

theorem removeRestriction (s : State) (x : Restriction) : Quiet s (s.removeRestriction x) := by
  cases x with
  | secNoRoute i => exact setSecRestr s i _
  | speed i v => exact setSecRestr s i _
  | ptNoRoute i => exact setPtRestr s i _
  | noMove i => exact setPtRestr s i _
  | noFlankMove i => exact setPtRestr s i _
  | sigNoRoute i => exact setSigRestr s i _
  | noClear i => exact setSigRestr s i _

/-- The mode record and the data store change, the supply and the active copy do not. -/
theorem control {s t : State} (h : t = { s with mdc := t.mdc, sds := t.sds }) (hp : t.mdc.power = s.mdc.power)
    (ha : t.sds.active = s.sds.active) : Quiet s t := by
  have him : t.image = s.image := by rw [State.image, State.image, ha]
  generalize t.mdc = m at h hp
  generalize t.sds = d at h
  subst h
  exact { refl s with image := him, power := hp }

theorem stopSignals (s : State) : Quiet s s.stopSignals :=
  { refl s with sigs := by rw [State.stopSignals, List.map_map]; rfl }

theorem enterOperational (s : State) : Quiet s s.enterOperational := by
  unfold State.enterOperational
  refine trans ?_ (noteAll _)
  exact (loseUnknown s).trans (control rfl rfl rfl)

theorem tryOperational (s : State) : Quiet s s.tryOperational := ite (enterOperational s) (refl s)

theorem startupExpiry (s : State) : Quiet s s.startupExpiry := by
  refine ite (refl s) (trans ?_ (tryOperational _))
  exact control rfl rfl rfl

theorem verifyExpiry (s : State) : Quiet s s.verifyExpiry := ite (refl s) (control rfl rfl rfl)

theorem cmdLoadBegin (s : State) (o : Originator) (n : Nat) : Quiet s (s.cmdLoadBegin o n).1 := by
  unfold State.cmdLoadBegin
  iterate 2 (split; exact refl s)
  exact control rfl rfl rfl

theorem cmdLoadSegment (s : State) (o : Originator) (n : Nat) (bs : List Byte) : Quiet s (s.cmdLoadSegment o n bs).1 := by
  unfold State.cmdLoadSegment
  iterate 2 (split; exact refl s)
  exact control rfl rfl rfl

theorem endLoadChecks (s : State) (len : Nat) (crc : Crc32) : Quiet s (s.endLoadChecks len crc).1 := by
  unfold State.endLoadChecks
  simp only []
  split <;> exact control rfl rfl rfl

theorem cmdAddRestriction (s : State) (o : Originator) (a b c d : Nat) : Quiet s (s.cmdAddRestriction o a b c d).1 := by
  unfold State.cmdAddRestriction
  iterate 2 (split; exact refl s)
  exact addRestriction s _

theorem cmdMovePoint (s : State) (o : Originator) (i p : Nat) : Quiet s (s.cmdMovePoint o i p).1 := by
  unfold State.cmdMovePoint
  split
  · exact refl s
  · iterate 3 (split; exact refl s)
    split
    · exact refl s
    · exact beginMove s i _

theorem cmdGiveControl (s : State) (o : Originator) (a h : Nat) : Quiet s (s.cmdGiveControl o a h).1 := by
  unfold State.cmdGiveControl
  split
  · exact refl s
  · iterate 3 (split; exact refl s)
    exact setHolder s a _

theorem cmdPrepare (s : State) (o : Originator) (x : Inner) : Quiet s (s.cmdPrepare o x).1 := by
  unfold State.cmdPrepare
  iterate 3 (split; exact setGate s o none)
  exact setGate s o _

end Quiet

namespace Changes

/-! #### Handing on, retry passes, notices and telegrams (R41, R80, R141) -/

theorem retryEntry (s : State) (e : StoreEntry) : Changes s (s.retryEntry e) := by
  unfold State.retryEntry
  split
  · rename_i i cs d h hd
    exact ((acceptRoute h hd).trans (Changes.quiet (Quiet.leaveStore _ _ _))).trans (Changes.quiet (Quiet.note _ _))
  · exact .refl

theorem retryPass (s : State) : Changes s s.retryPass := each s _ _ retryEntry

theorem handOn (old s : State) : Changes s (Machine.handOn old s) :=
  (((each s _ _ fun t i => Changes.quiet (Quiet.watchClaims t old i)).trans (each _ _ _ fun t i => react old t i)).trans
    (each _ _ _ fun t p => portEdges old t p)).trans (Changes.quiet (Quiet.watchTables _))

theorem retryLoop (n : Nat) (s : State) : Changes s (State.retryLoop n s) := by
  induction n generalizing s with
  | zero => exact Changes.quiet (Quiet.releaseDue s false)
  | succ n ih =>
    unfold State.retryLoop
    split
    · exact ((Changes.quiet (Quiet.releaseDue s false)).trans ((retryPass _).trans (handOn _ _))).trans (ih _)
    · exact Changes.quiet (Quiet.releaseDue s false)

theorem finish (old s : State) : Changes s (Machine.finish old s) :=
  (((handOn old s).trans (handOn _ _)).trans (retryLoop 18 _)).trans
    ((Changes.quiet (Quiet.noteChanges _ old)).trans (Changes.quiet (Quiet.sendChanges _)))

/-! #### Commands of the host -/

theorem cmdSetRoute (s : State) (o : Originator) (a b c : Nat) : Changes s (s.cmdSetRoute o a b c).1 := by
  unfold State.cmdSetRoute
  split
  · exact .refl
  · split
    · exact acceptRoute ‹_› ‹_›
    · split
      · exact Changes.quiet { Quiet.refl s with }
      · exact .refl
    · exact .refl
    · exact .refl

theorem cmdReclear (s : State) (o : Originator) (a : Nat) : Changes s (s.cmdReclear o a).1 := by
  unfold State.cmdReclear
  split
  · exact .refl
  · exact .refl
  · rename_i i _ hi
    iterate 2 (split; exact .refl)
    have h := Keeps.setClearing (liveSlot_some hi).2.1
    exact ((h.quiet (Quiet.modSlot _ i)).quiet (Quiet.refreshPending _ i)).chain

theorem cmdCancelRoute (s : State) (o : Originator) (a : Nat) : Changes s (s.cmdCancelRoute o a).1 := by
  unfold State.cmdCancelRoute
  split
  · exact .refl
  · exact cancelLive s _
  · split
    · exact Changes.quiet ((Quiet.leaveStore _ _ _).trans (Quiet.note _ _))
    · exact .refl

theorem innerAct (s : State) (o : Originator) (x : Inner) (h : ∀ p, x = .forceDirection p → (s.port p).incGranted = false) :
    Changes s (s.innerAct o x).1 := by
  cases x with
  | restoreSection i => exact Changes.quiet (Quiet.modSec s i)
  | forcedRelease i r => exact forcedRelease s i
  | removeRestriction a b c =>
    show Changes s (s.removeNow a b c)
    unfold State.removeNow
    split
    · exact Changes.quiet (Quiet.removeRestriction s _)
    · exact .refl
  | forceDirection p => exact forceDirection (h p rfl)
  | clearRemoteClaims l => exact clearRemote s l
  | takeControl a => exact Changes.quiet (Quiet.setHolder s a _)
  | restart k => exact .refl
  | other c p => exact .refl

/-- The re-check of FORCE_DIRECTION passes only without a granted acceptance (R153). -/
theorem incGranted_of_executeRefusal {s : State} {o : Originator} {p : Nat} (h : s.executeRefusal o (.forceDirection p) = none) :
    (s.port p).incGranted = false := by
  rw [State.executeRefusal] at h
  split at h
  · cases h
  · split at h
    · cases h
    · split at h
      · cases h
      · change s.forceDirRefusal o p = none at h
        rw [State.forceDirRefusal] at h
        split at h
        · cases h
        · by_contra hn
          rw [Bool.not_eq_false] at hn
          split at h
          · cases h
          · split at h <;> cases h

theorem cmdExecute (s : State) (o : Originator) (x : Inner) : Changes s (s.cmdExecute o x).1 := by
  have hg := Changes.quiet (Quiet.setGate s o none)
  unfold State.cmdExecute
  simp only []
  split <;> rename_i hx
  · exact hg
  · refine hg.trans (innerAct _ o x fun p hp => ?_)
    subst hp
    have hport : (s.setGate o none).port p = s.port p := by cases o <;> rfl
    rw [hport]
    exact incGranted_of_executeRefusal hx

theorem handOver (s : State) (o : Originator) (c : Cmd) : Changes s (s.handOver o c).1 := by
  cases c with
  | loadBegin n => exact Changes.quiet (Quiet.cmdLoadBegin s o n)
  | loadSegment n bs => exact Changes.quiet (Quiet.cmdLoadSegment s o n bs)
  | setRoute a b c => exact cmdSetRoute s o a b c
  | reclear a => exact cmdReclear s o a
  | cancelRoute a => exact cmdCancelRoute s o a
  | movePoint a b => exact Changes.quiet (Quiet.cmdMovePoint s o a b)
  | addRestriction a b c d => exact Changes.quiet (Quiet.cmdAddRestriction s o a b c d)
  | requestDirection a => exact cmdRequestDirection s o a
  | giveControl a b => exact Changes.quiet (Quiet.cmdGiveControl s o a b)
  | prepare x => exact Changes.quiet (Quiet.cmdPrepare s o x)
  | execute x => exact cmdExecute s o x
  | status => rw [handOver_query s o _ rfl]
  | getElement a b => rw [handOver_query s o _ rfl]
  | getPort a => rw [handOver_query s o _ rfl]
  | getLink a => rw [handOver_query s o _ rfl]
  | getInstance a => rw [handOver_query s o _ rfl]
  | readTable a b => rw [handOver_query s o _ rfl]
  | _ => exact .refl

/-! #### Modes (R194 to R196) -/

theorem enterHalted (s : State) (r : HaltReason) : Changes s (s.enterHalted r) := by
  unfold State.enterHalted
  refine .trans (b := s.loseUnknown.stopSignals.each ((List.range s.loseUnknown.stopSignals.bdu.links.length).filter
    s.loseUnknown.stopSignals.equipped) fun t l => t.disturb l) ((Changes.quiet ((Quiet.loseUnknown s).trans (Quiet.stopSignals _))).trans (each _ _ _ disturb)) ?_
  exact Changes.quiet (Quiet.control rfl rfl rfl)

theorem startingCrc (s : State) (crc : Crc32) : Changes s (s.startingCrc crc) := by
  refine ite .refl (ite (Changes.quiet (Quiet.trans ?_ (Quiet.tryOperational _))) (enterHalted s _))
  exact Quiet.control rfl rfl rfl

theorem verifyEnd (s : State) (crc : Crc32) : Changes s (s.verifyEnd crc) := by
  refine ite .refl (ite (Changes.quiet (Quiet.trans ?_ (Quiet.note _ _))) (enterHalted s _))
  exact Quiet.control rfl rfl rfl

end Changes
end Sys2Proof.Machine

/-! ### Statements about locks, claims and views that stand

`Standing` lists what keeps them: the changes of a running part, a start, the taking and the end of a reset, and the records an image
installs. `Standing.step` packages the induction over the events. -/

namespace Sys2Proof.Machine

/-- A start has emptied the records (R191, R192). -/
structure Blank (s : State) : Prop where
  sections : s.est.sections = []
  points : s.est.points = []
  signals : s.est.signals = []
  slots : s.rsu.slots = Rsu.start.slots
  bdu : s.bdu = ⟨[], []⟩

theorem Blank.warmStart (s : State) (c : StartCause) : Blank (s.warmStart c) := ⟨rfl, rfl, rfl, rfl, rfl⟩
theorem Blank.blankStart (s : State) : Blank s.blankStart := ⟨rfl, rfl, rfl, rfl, rfl⟩
theorem Blank.coldNow (s : State) : Blank s.coldNow := ⟨rfl, rfl, rfl, rfl, rfl⟩
theorem Blank.unpowered (s : State) : Blank s.unpowered := ⟨rfl, rfl, rfl, rfl, rfl⟩

/-- `P` is kept by each change of a running part and by what a start, a reset and an installed image make of the records. -/
structure Standing (P : State → Prop) : Prop where
  quiet : ∀ {s t : State}, P s → Quiet s t → P t
  change : ∀ {s t : State}, P s → s.mdc.power = .running → Change s t → P t
  blank : ∀ {s : State}, Blank s → P s
  power : ∀ {s : State} p, P s → p ≠ .checking → P { s with mdc.power := p }
  starting : ∀ {s : State} r, P s → s.mdc.power = .checking → P (s.enterStarting r)

/-- A timer of a slot in another state than FREE runs. -/
theorem Changes.timed {s t : State} {k : Nat} {x : SlotState} (hx : x ≠ .free) (h : s.live k = true → Changes s t) :
    Changes s (if s.timing k x then t else s) := by
  split
  · rename_i ht
    exact h (by rw [State.live, (timing_iff.1 ht).1, decide_eq_true hx])
  · exact .refl

theorem polling_running {s : State} (h : s.polling = true) : s.mdc.power = .running := by
  unfold State.polling State.running at h
  rw [Bool.and_eq_true, decide_eq_true_eq] at h
  exact h.1

namespace Standing
variable {P : State → Prop} (L : Standing P) {s : State}
include L

theorem changes {t : State} (h : P s) (hr : s.mdc.power = .running) (hc : Changes s t) : P t := by
  induction hc with
  | refl => exact h
  | tail hs ht ih => exact L.change ih ((Changes.power hs).trans hr) ht

theorem answerNow (q : QCmd) (h : P s) (hr : s.mdc.power = .running) : P (s.answerNow q) := by
  unfold State.answerNow
  split
  · unfold State.restartNow
    split
    · exact L.blank (Blank.warmStart _ _)
    · exact L.blank (Blank.blankStart _)
  · exact L.quiet (L.changes h hr ((Changes.handOver s q.originator q.cmd).trans (Changes.finish s _))) (Quiet.respond _ _)

theorem runCmd (q : QCmd) (h : P s) (hr : s.mdc.power = .running) : P (s.runCmd q) := by
  unfold State.runCmd
  split
  · split
    · exact L.quiet h (Quiet.respond s _)
    · exact L.quiet h { Quiet.refl s with }
  · split
    · exact L.quiet h { Quiet.refl s with }
    · exact L.quiet h (Quiet.respond s _)
  · split
    · exact L.quiet h (Quiet.respond s _)
    · exact L.answerNow q h hr

theorem takeCommands (n : Nat) (h : P s) : P (State.takeCommands n s) := by
  induction n generalizing s with
  | zero => exact h
  | succ n ih =>
    unfold State.takeCommands
    split
    · exact h
    · rename_i q rest _
      split
      · rename_i hm
        simp only [State.mayTake, Bool.and_eq_true, decide_eq_true_eq] at hm
        have hq := L.runCmd (s := { s with slu.inputQ := rest }) q (L.quiet h { Quiet.refl s with }) hm.1.1
        exact ih (L.quiet hq (Quiet.arbiter _))
      · exact h

theorem settleLine (h : P s) : P s.settleLine := L.takeCommands _ (L.quiet h (Quiet.arbiter s))

theorem act {f : State → State} (h : P s) (hf : Changes s (f s)) : P (s.act f) := by
  unfold State.act
  split
  · exact L.settleLine (L.changes h (of_decide_eq_true ‹_›) (hf.trans (Changes.finish s _)))
  · exact h

theorem badFrame (f : Faults) (hd : Option (Nat × Nat × Nat)) (x : Rx) (h : P s) : P (s.badFrame f hd x) :=
  L.settleLine (L.quiet h ((Quiet.setRx s x).trans (Quiet.faultReport _ _ _)))

theorem goodFrame (q : QCmd) (h : P s) : P (s.goodFrame q) :=
  L.settleLine (L.quiet h ((Quiet.setRx s .hunting).trans (Quiet.enqueue _ q)))

theorem completeFrame (bs : List Byte) (h : P s) : P (s.completeFrame bs) := by
  unfold State.completeFrame
  simp only
  split
  · split
    · exact L.goodFrame _ h
    · exact L.badFrame _ _ _ h
  · exact L.badFrame _ _ _ h

theorem arrive (o : Originator) (tag : Nat) (c : Cmd) (h : P s) : P (s.arrive o tag c) := by
  unfold State.arrive State.submit
  split
  · split
    · exact h
    · split
      · exact L.goodFrame _ h
      · exact L.badFrame _ _ _ h
  · exact h

theorem afterPoll {t : State} (h : P s) (hr : s.mdc.power = .running) (ht : Quiet s t) : P (s.afterPoll t) :=
  L.changes h hr ((Changes.quiet ((ht.trans (Quiet.endPoll t)).trans (Quiet.tryOperational _))).trans (Changes.finish s _))

theorem frameInWait (bs : List Byte) (h : P s) (hr : s.mdc.power = .running) : P (s.frameInWait bs) :=
  L.settleLine (L.quiet (L.afterPoll h hr (Quiet.takeAnswer s bs)) (Quiet.sendPoll _))

theorem waitExpired (b : Bool) (h : P s) (hr : s.mdc.power = .running) : P (s.waitExpired b) := by
  have ha := L.afterPoll h hr (Quiet.missAnswer s)
  unfold State.waitExpired
  simp only
  split
  · exact L.settleLine (L.quiet ha { Quiet.refl _ with })
  · exact L.settleLine (L.quiet ha (Quiet.sendPoll _))

theorem unconfigured (r : CheckResult) (h : P s) : P (s.enterUnconfigured r) := by
  have h1 := L.power .running h (by decide)
  unfold State.enterUnconfigured State.startHolders
  split <;> exact L.quiet h1 { Quiet.refl { s with mdc.power := .running } with }

theorem endCheck (h : P s) (hc : s.mdc.power = .checking) : P s.endCheck := by
  unfold State.endCheck
  simp only
  split
  · exact L.quiet (L.starting _ h hc) (((Quiet.note _ _).trans (Quiet.sendPoll _)).trans (Quiet.sendChanges _))
  · exact L.quiet (L.unconfigured _ h) (Quiet.note _ _)

theorem held (h : P s) : P s.holdReset :=
  L.quiet (L.power .held h (by decide)) { Quiet.refl { s with mdc.power := .held } with }

theorem resetLow (us : Nat) (h : P s) : P (s.resetLow us) := by
  have hf : P { s with freeCount := s.freeCount + 1 } := L.quiet h { Quiet.refl s with }
  unfold State.resetLow
  simp only
  split
  · exact L.held h
  · split
    · exact h
    · split
      · exact L.held hf
      · exact hf

theorem finishLoadEnd (q : QCmd) (len : Nat) (crc : Crc32) (h : P s) (hr : s.mdc.power = .running) : P (s.finishLoadEnd q len crc) := by
  have hq : ∀ t : State, Quiet t { t with slu.inProgress := none } := fun t => { Quiet.refl t with }
  have hf := L.changes h hr ((Changes.quiet (Quiet.endLoadChecks s len crc)).trans (Changes.finish s _))
  exact L.settleLine (L.quiet hf ((hq _).trans (Quiet.respond _ _)))

theorem finishActivate (q : QCmd) (crc : Crc32) : P (s.finishActivate q crc) := L.settleLine (L.blank (Blank.warmStart _ _))

theorem exec (i : Instr) {t : State} (h : P s) (ht : Machine.exec i s = .next t) : P t := by
  suffices ∀ u, Machine.exec i s = .next u → P u from this t ht
  have next : ∀ {u v : State}, P u → (Host.Outcome.next u : Host.Outcome State Fault Refusal) = .next v → P v := fun hu e => by
    cases e; exact hu
  have hact : ∀ {f : State → State}, Changes s (f s) → P (s.act f) := fun hf => L.act h hf
  intro u
  cases i with
  | powerOn => exact next (L.blank (Blank.coldNow s))
  | powerLoss => exact next (L.blank (Blank.unpowered s))
  | resetLineLow us => exact next (kept_ite h fun _ => L.resetLow us h)
  | resetLineRelease => exact next (kept_ite h fun _ => L.settleLine (L.blank (Blank.warmStart _ _)))
  | startCheckComplete => exact next (kept_ite h fun hc => L.settleLine (L.endCheck h hc))
  | startingCrcComplete crc => exact next (hact (Changes.startingCrc s crc))
  | startupTimerExpiry => exact next (hact (Changes.quiet (Quiet.startupExpiry s)))
  | verifyTimerExpiry => exact next (hact (Changes.quiet (Quiet.verifyExpiry s)))
  | verifyPassComplete crc => exact next (hact (Changes.verifyEnd s crc))
  | loadEndChecksComplete =>
    refine next ?_
    split
    · exact kept_ite h fun hr => L.finishLoadEnd _ _ _ h (of_decide_eq_true hr)
    · exact h
  | activateWriteComplete crc =>
    refine next ?_
    split
    · exact kept_ite h fun _ => L.finishActivate _ _
    · exact h
  | supFrameComplete bs => exact next (kept_ite h fun _ => L.completeFrame _ h)
  | supFrameLengthFault b => exact next (kept_ite h fun _ => L.badFrame _ _ _ h)
  | supInterbyteGap bs b => exact next (kept_ite h fun _ => L.badFrame _ _ _ h)
  | supDrainIdle => exact next (kept_ite h fun _ => L.quiet h (Quiet.setRx s _))
  | transmitLineFree => exact next (kept_ite h fun _ => L.settleLine (L.quiet h { Quiet.refl s with }))
  | fieldAnswerReceived bs => exact next (kept_ite h fun hr => L.frameInWait bs h (polling_running hr))
  | fieldFrameInvalid bs => exact next (kept_ite h fun hr => L.frameInWait bs h (polling_running hr))
  | answerWaitExpiry b => exact next (kept_ite h fun hr => L.waitExpired b h (polling_running hr))
  | fieldLineIdle => exact next (kept_ite h fun _ => L.quiet h (Quiet.sendPoll s))
  | throwTimerExpiry k => exact next (hact (Changes.quiet (Quiet.throwExpiry s k)))
  | settingTimerExpiry k => exact next (hact (Changes.ite (Changes.settingExpiry s k) .refl))
  | approachTimerExpiry k => exact next (hact (Changes.timed (by decide) fun hl => Changes.endSlot (lt_of_live hl) _))
  | releaseTimerExpiry k => exact next (hact (Changes.timed (by decide) fun hl => Changes.endSlot (lt_of_live hl) _))
  | overlapTimerExpiry k => exact next (hact (Changes.timed (by decide) fun hl => (Keeps.releaseOverlap hl).chain))
  | storeEntryExpiry n => exact next (hact (Changes.quiet (Quiet.expireEntry s n)))
  | twoStepWindowExpiry o => exact next (kept_ite h fun _ => L.quiet h (Quiet.setGate s o none))
  | helloReceived l bs => exact next (hact (Changes.receive s l bs))
  | statusTelegramReceived l bs => exact next (hact (Changes.receive s l bs))
  | haltReceived l bs => exact next (hact (Changes.receive s l bs))
  | telegramDiscarded l bs => exact next (hact (Changes.receive s l bs))
  | sequenceJump l bs => exact next (hact (Changes.receive s l bs))
  | linkTimeout l => exact next (hact (Changes.ite (Changes.disturb s l) .refl))
  | telegramSendTimer l => exact next (kept_ite h fun _ => L.quiet h (Quiet.send s l))
  | telegramChangeSpacing l => exact next (kept_ite h fun _ => L.quiet h (Quiet.send s l))
  | _ => exact next (L.arrive _ _ _ h)

/-- Every step: the command at the front, or the tick. -/
theorem step {t : State} (h : P s) (ht : Machine.step s = .next t) : P t := by
  unfold Machine.step at ht
  split at ht
  · cases ht; exact L.quiet h (Quiet.tick s)
  · rename_i i rest _
    exact L.exec (s := { s with pending := rest }) i (L.quiet h { Quiet.refl s with }) ht

end Standing
end Sys2Proof.Machine

/-! ### What stands: positions, owners, views, counts (R29 to R37, R57, R148, R155) -/

namespace Sys2Proof.Machine

/-! #### Records at their start values -/

theorem getD_of_all_eq {α : Type} {l : List α} {d : α} (h : ∀ x ∈ l, x = d) (k : Nat) : l.getD k d = d := by
  by_cases hk : k < l.length
  · rw [List.getD_eq_getElem _ _ hk]; exact h _ (List.getElem_mem hk)
  · rw [List.getD_eq_default _ _ (not_lt.1 hk)]

/-- Elements, ports and tables are as after a start (R21 to R23, R139, R140). -/
structure Fresh (s : State) : Prop where
  sec : ∀ k, s.sec k = SectionRec.start
  pt : ∀ k, s.pt k = PointRec.start
  sig : ∀ k, s.sig k = SignalRec.start
  port : ∀ p, s.port p = Port.start
  entry : ∀ l e, s.entry l e = none

theorem Blank.fresh {s : State} (h : Blank s) : Fresh s where
  sec k := by rw [State.sec, h.sections]; rfl
  pt k := by rw [State.pt, h.points]; rfl
  sig k := by rw [State.sig, h.signals]; rfl
  port p := by rw [State.port, h.bdu]; rfl
  entry l e := by
    rw [State.entry, State.link, h.bdu]
    exact getD_of_all_eq (fun _ hx => (List.mem_replicate.1 hx).2) e

theorem Blank.slot {s : State} (h : Blank s) (i : Nat) : s.slot i = Slot.start := by
  rw [State.slot, h.slots]
  exact getD_of_all_eq (fun _ hx => (List.mem_replicate.1 hx).2) i

theorem Blank.live {s : State} (h : Blank s) (i : Nat) : s.live i = false := by rw [State.live, h.slot]; rfl

theorem startHolders_records (s : State) (l : List Holder) :
    (s.startHolders l).est = s.est ∧ (s.startHolders l).bdu = s.bdu ∧ (s.startHolders l).rsu = s.rsu := by
  unfold State.startHolders
  split <;> exact ⟨rfl, rfl, rfl⟩

/-- An image installed sets the elements, ports and tables to their start values and leaves the slots (R21). -/
theorem enterStarting_records (s : State) (r : CheckResult) : Fresh (s.enterStarting r) ∧ (s.enterStarting r).rsu = s.rsu
    ∧ (s.enterStarting r).mdc.power = .running := by
  have hrep : ∀ {α : Type} (n k : Nat) (d : α), (List.replicate n d).getD k d = d := fun n k d =>
    getD_of_all_eq (fun _ hx => (List.mem_replicate.1 hx).2) k
  have hi : ∀ t : State, t.est = (s.install (readImage s.sds.stored.bytes)).est → t.bdu = (s.install (readImage s.sds.stored.bytes)).bdu →
      Fresh t := fun t he hb => {
    sec := fun k => by rw [State.sec, he]; exact hrep _ _ _
    pt := fun k => by rw [State.pt, he]; exact hrep _ _ _
    sig := fun k => by rw [State.sig, he]; exact hrep _ _ _
    port := fun p => by rw [State.port, hb]; exact hrep _ _ _
    entry := fun l e => by
      have hl : t.link l = Link.start := by rw [State.link, hb]; exact hrep _ _ _
      rw [State.entry, hl]; exact hrep _ _ _ }
  obtain ⟨he, hb, hr⟩ := startHolders_records (s.install (readImage s.sds.stored.bytes)) (readImage s.sds.stored.bytes).areas
  exact ⟨hi _ he hb, hr, rfl⟩

namespace Fresh
variable {s : State} (h : Fresh s)
include h

theorem pointsAgree : s.pointsAgree := (pointsAgree_iff s).2 fun k => by rw [h.pt]; exact ⟨rfl, rfl⟩

theorem ownersLive : s.ownersLive := by
  refine (ownersLive_iff s).2 ⟨fun k i ho => ?_, fun k i ho => ?_, fun k i ho => ?_⟩
  · rw [h.sec] at ho; cases ho
  · rw [h.pt] at ho; cases ho
  · rw [h.sig] at ho; cases ho

theorem countsHold : s.countsHold :=
  (countsHold_iff s).2 ⟨fun k => by rw [h.sec]; decide, fun k => by rw [h.pt]; decide, fun k => by rw [h.sig]; decide⟩

theorem positionsAgree : s.positionsAgree := by
  refine (positionsAgree_iff s).2 ⟨fun k => ?_, fun k i ho => ?_, fun l e x k hx => ?_, fun l e x hx => ?_⟩
  · rw [h.pt]; exact ⟨iff_of_true rfl rfl, iff_of_true rfl rfl, fun hn => absurd rfl hn⟩
  · rw [h.pt] at ho; cases ho
  · rw [h.entry] at hx; cases hx
  · rw [h.entry] at hx; cases hx

theorem viewsStand (hl : ∀ i, s.live i = false) : s.viewsStand :=
  ⟨fun i hi => by rw [hl] at hi; (cases hi), fun p hp => by rw [h.port] at hp; cases hp⟩

theorem allClaims (hc : ∀ i, (s.slot i).claims = []) : s.allClaims = [] := by
  refine List.eq_nil_iff_forall_not_mem.2 fun w hw => ?_
  rcases mem_allClaims.1 hw with ⟨i, hi⟩ | ⟨l, e, x, hx, -⟩
  · rw [hc] at hi; cases hi
  · rw [h.entry] at hx; cases hx

theorem countsExact (hc : ∀ i, (s.slot i).claims = []) : s.countsExact := by
  have ha := h.allClaims hc
  refine ⟨fun k _ => ?_, fun k _ => ?_, fun k _ => ?_, fun i _ => hc i, fun l e x hx => ?_, fun _ => ha⟩
  · rw [h.sec, ha]; rfl
  · rw [h.pt, ha]; rfl
  · rw [h.sig, ha]; rfl
  · rw [h.entry] at hx; cases hx

theorem claimsAsk (hc : ∀ i, (s.slot i).claims = []) : s.claimsAsk := fun k p hw => by
  rw [h.allClaims hc] at hw; cases hw

end Fresh

/-- In its start check the part has no live slot and no claims (R191). -/
theorem slot_claims_of_checking {s : State} (h : s.countsExact) (hp : s.mdc.power = .checking) (i : Nat) : (s.slot i).claims = [] := by
  have ha := h.checking hp
  by_contra hn
  obtain ⟨c, hc⟩ := List.exists_mem_of_ne_nil _ hn
  have := mem_allClaims.2 (.inl ⟨i, List.mem_map_of_mem hc⟩)
  rw [ha] at this; cases this

/-! #### What stands -/

theorem pointsAgree_standing : Standing State.pointsAgree where
  quiet h hq := hq.agree h
  change h _ hc := hc.pointsAgree h
  blank h := h.fresh.pointsAgree
  power _ h _ := h
  starting r _ _ := (enterStarting_records _ r).1.pointsAgree

theorem positionsAgree_standing : Standing State.positionsAgree where
  quiet h hq := (Change.quiet hq).positionsAgree h
  change h _ hc := hc.positionsAgree h
  blank h := h.fresh.positionsAgree
  power _ h _ := ⟨h.claim, h.lock, h.agree, h.slot, h.entry, h.undecided⟩
  starting r _ _ := (enterStarting_records _ r).1.positionsAgree

theorem ownersLive_standing : Standing State.ownersLive where
  quiet h hq := (Change.quiet hq).ownersLive h
  change h _ hc := hc.ownersLive h
  blank h := h.fresh.ownersLive
  power _ h _ := ⟨h.sec, h.pt, h.sig⟩
  starting r _ _ := (enterStarting_records _ r).1.ownersLive

theorem countsHold_standing : Standing State.countsHold where
  quiet h hq := (Change.quiet hq).countsHold h
  change h _ hc := hc.countsHold h
  blank h := h.fresh.countsHold
  power _ h _ := ⟨h.sec, h.pt, h.sig⟩
  starting r _ _ := (enterStarting_records _ r).1.countsHold

theorem viewsAgree_iff (s : State) : s.viewsAgree ↔ s.viewsStand ∧ (s.mdc.power = .checking → ∀ i, s.live i = false) :=
  ⟨fun h => ⟨⟨h.exit, h.acceptance⟩, h.checking⟩, fun ⟨⟨a, b⟩, c⟩ => ⟨a, b, c⟩⟩

theorem countsExact_iff (s : State) : s.countsExact ↔ s.countsStand ∧ (s.mdc.power = .checking → s.allClaims = []) :=
  ⟨fun h => ⟨⟨h.sec, h.pt, h.sig, h.free, h.undecided⟩, h.checking⟩, fun ⟨⟨a, b, c, d, e⟩, f⟩ => ⟨a, b, c, d, e, f⟩⟩

/-- A running part is not in its start check. -/
theorem Change.not_checking {s t : State} (h : Change s t) (hr : s.mdc.power = .running) : t.mdc.power ≠ .checking := by
  rw [h.power, hr]; decide

theorem viewsAgree_standing : Standing State.viewsAgree where
  quiet {s t} h hq := by
    obtain ⟨hv, hc⟩ := (viewsAgree_iff s).1 h
    exact (viewsAgree_iff t).2 ⟨(Change.quiet hq).viewsStand hv, fun hp i => (hq.live i).trans (hc (hq.power.symm.trans hp) i)⟩
  change {s t} h hr hc := (viewsAgree_iff t).2 ⟨hc.viewsStand ((viewsAgree_iff s).1 h).1, fun hp => absurd hp (hc.not_checking hr)⟩
  blank {s} h := (viewsAgree_iff s).2 ⟨h.fresh.viewsStand h.live, fun _ => h.live⟩
  power p h hp := ⟨h.exit, h.acceptance, fun e => absurd e hp⟩
  starting {s} r h hp := by
    obtain ⟨hf, hr, hrun⟩ := enterStarting_records s r
    have hl : ∀ i, (s.enterStarting r).live i = false := fun i => by
      rw [State.live, State.slot, hr]; exact h.checking hp i
    exact (viewsAgree_iff _).2 ⟨hf.viewsStand hl, fun _ => hl⟩

theorem countsExact_standing : Standing State.countsExact where
  quiet {s t} h hq := by
    obtain ⟨hv, hc⟩ := (countsExact_iff s).1 h
    exact (countsExact_iff t).2 ⟨(Change.quiet hq).countsStand hv, fun hp => hq.allClaims.trans (hc (hq.power.symm.trans hp))⟩
  change {s t} h hr hc := (countsExact_iff t).2 ⟨hc.countsStand ((countsExact_iff s).1 h).1, fun hp => absurd hp (hc.not_checking hr)⟩
  blank h := h.fresh.countsExact fun i => by rw [h.slot]; rfl
  power p h hp := ⟨h.sec, h.pt, h.sig, h.free, h.undecided, fun e => absurd e hp⟩
  starting {s} r h hp := by
    obtain ⟨hf, hr, -⟩ := enterStarting_records s r
    exact hf.countsExact fun i => by rw [State.slot, hr]; exact slot_claims_of_checking h hp i

/-- Asked positions stand together with what they rest on. -/
def State.asksStand (s : State) : Prop := s.positionsAgree ∧ s.countsExact ∧ s.claimsAsk

theorem asksStand_standing : Standing State.asksStand where
  quiet {s _} := fun ⟨hp, hc, ha⟩ hq =>
    ⟨positionsAgree_standing.quiet hp hq, countsExact_standing.quiet hc hq, (Change.quiet hq).claimsAsk hp ((countsExact_iff s).1 hc).1 ha⟩
  change {s _} := fun ⟨hp, hc, ha⟩ hr h =>
    ⟨h.positionsAgree hp, countsExact_standing.change hc hr h, h.claimsAsk hp ((countsExact_iff s).1 hc).1 ha⟩
  blank h := ⟨h.fresh.positionsAgree, countsExact_standing.blank h, h.fresh.claimsAsk fun i => by rw [h.slot]; rfl⟩
  power p := fun ⟨hp, hc, ha⟩ hn => ⟨positionsAgree_standing.power p hp hn, countsExact_standing.power p hc hn, ha⟩
  starting {s} r := fun ⟨hp, hc, _⟩ hn => by
    obtain ⟨hf, hr, -⟩ := enterStarting_records s r
    exact ⟨hf.positionsAgree, countsExact_standing.starting r hc hn,
      hf.claimsAsk fun i => by rw [State.slot, hr]; exact slot_claims_of_checking hc hn i⟩

/-! #### The statements -/

/-- Settles O9, by the induction over the events. -/
theorem pointsAgreeKept : Obligations.PointsAgreeKept :=
  ⟨fun _ _ => pointsAgree_standing.step, fun _ _ => positionsAgree_standing.step,
    fun _ _ hp hc ha ht => (asksStand_standing.step ⟨hp, hc, ha⟩ ht).2.2⟩

/-- Settles O10, by the induction over the events. -/
theorem ownersLiveKept : Obligations.OwnersLiveKept := ⟨fun _ _ => ownersLive_standing.step, fun _ _ => viewsAgree_standing.step⟩

/-- Settles O11, by the induction over the events. -/
theorem countsKept : Obligations.CountsKept := ⟨fun _ _ => countsHold_standing.step, fun _ _ => countsExact_standing.step⟩

end Sys2Proof.Machine

/-! ### The queries (R58, R166, R185, R187) -/

namespace Sys2Proof.Machine

/-- A count over the indices of a list, each read, is the count over its elements. -/
theorem length_filter_range_getD {α : Type} (l : List α) (d : α) (p : α → Bool) :
    ((List.range l.length).filter fun i => p (l.getD i d)).length = (l.filter p).length := by
  have e : l = (List.range l.length).map fun i => l.getD i d :=
    List.ext_getElem (by simp) fun i hi _ => by simp [hi]
  conv_rhs => rw [e, List.filter_map, List.length_map]
  rfl

/-- The answer to a query of an object: its record as it stands, UNKNOWN where it has none (R187). -/
theorem query_answer (s : State) (ref : Ref) : (s.query ref).2 = match s.record ref with
    | some r => (.done, .record r)
    | none => (.unknown, .none) := by
  unfold State.query
  cases s.record ref <;> rfl

theorem cmdGetElement_of_refused (s : State) {cls i : Nat} (h : readElem cls i = none) : s.cmdGetElement cls i = s.refuse .badParameter := by
  rw [State.cmdGetElement, h]

theorem cmdGetElement_of_read (s : State) {cls i : Nat} {e : ElemRef} (h : readElem cls i = some e) :
    s.cmdGetElement cls i = s.query e.ref := by
  rw [State.cmdGetElement, h]

theorem cmdGetPort_of_le (s : State) {p : Nat} (h : 8 ≤ p) : s.cmdGetPort p = s.refuse .badParameter := if_pos h
theorem cmdGetPort_of_lt (s : State) {p : Nat} (h : p < 8) : s.cmdGetPort p = s.query (.port p) := if_neg (not_le.2 h)
theorem cmdGetLink_of_le (s : State) {l : Nat} (h : 4 ≤ l) : s.cmdGetLink l = s.refuse .badParameter := if_pos h
theorem cmdGetLink_of_lt (s : State) {l : Nat} (h : l < 4) : s.cmdGetLink l = s.query (.link l) := if_neg (not_le.2 h)
theorem cmdGetInstance_of_le (s : State) {i : Nat} (h : 48 ≤ i) : s.cmdGetInstance i = s.refuse .badParameter := if_pos h
theorem cmdGetInstance_of_lt (s : State) {i : Nat} (h : i < 48) : s.cmdGetInstance i = s.query (.slot i) := if_neg (not_le.2 h)

/-- The class codes are 0 to 2 (R185). -/
theorem readElem_of_class {cls : Nat} (h : 2 < cls) (i : Nat) : readElem cls i = none := by
  have hc : readCls cls = none := by
    rw [readCls, coded, List.getElem?_eq_none h]
  simp [readElem, hc]

/-- A query that is refused is answered BAD_PARAMETER. -/
theorem replied_badParameter {s : State} (h : s.ready) (o : Originator) (tag : Nat) {c : Cmd} (hq : isQuery c = true)
    (e : s.handOver o c = s.refuse .badParameter) :
    ∃ t, Replied s (rowOf o tag c) (.reply tag (cmdCode c) o .badParameter .none) t := by
  obtain ⟨t, ht⟩ := replied_query (o := o) (tag := tag) h hq
  rw [e] at ht
  exact ⟨t, ht⟩

/-- A query of an object is answered with its record, with UNKNOWN where it has none. -/
theorem replied_record {s : State} (h : s.ready) (o : Originator) (tag : Nat) {c : Cmd} (hq : isQuery c = true) {ref : Ref}
    {x : Option Record} (e : s.handOver o c = s.query ref) (hx : s.record ref = x) :
    ∃ t, Replied s (rowOf o tag c) (match x with
      | some r => .reply tag (cmdCode c) o .done (.record r)
      | none => .reply tag (cmdCode c) o .unknown .none) t := by
  obtain ⟨t, ht⟩ := replied_query (o := o) (tag := tag) h hq
  rw [e, query_answer, hx] at ht
  refine ⟨t, ?_⟩
  cases x <;> exact ht

/-- Settles O54, by the answer of each query. -/
theorem queryRows : Obligations.QueryRows := by
  intro s o tag cls i h
  have elem : ∀ {c : Nat} {k : Cls}, readCls c = some k → i < classBound k → s.handOver o (.getElement c i) = s.query (ElemRef.ref ⟨k, i⟩) :=
    fun hc hi => cmdGetElement_of_read s (readElem_of_lt hc hi)
  have refused : ∀ {c : Nat} {k : Cls}, readCls c = some k → classBound k ≤ i → readElem c i = none := fun hc hi => readElem_of_le hc hi
  refine ⟨replied_record h o tag (c := .status) (ref := .system) rfl rfl rfl, fun hi => ?_,
    fun hi => replied_record h o tag rfl (elem (k := .sect) rfl hi) rfl,
    fun hi => replied_record h o tag rfl (elem (k := .point) rfl hi) rfl,
    fun hi => replied_record h o tag rfl (elem (k := .signal) rfl hi) rfl,
    fun hi => replied_badParameter h o tag (c := .getPort i) rfl (cmdGetPort_of_le s hi),
    fun hi => replied_record h o tag (c := .getPort i) rfl (cmdGetPort_of_lt s hi) rfl,
    fun hi => replied_badParameter h o tag (c := .getLink i) rfl (cmdGetLink_of_le s hi),
    fun hi => replied_record h o tag (c := .getLink i) rfl (cmdGetLink_of_lt s hi) rfl,
    fun hi => replied_badParameter h o tag (c := .getInstance i) rfl (cmdGetInstance_of_le s hi),
    fun hi => replied_record h o tag (c := .getInstance i) rfl (cmdGetInstance_of_lt s hi) rfl, ?_, ?_⟩
  · refine replied_badParameter h o tag (c := .getElement cls i) rfl (cmdGetElement_of_refused s ?_)
    rcases hi with hc | ⟨rfl, hi⟩ | ⟨rfl, hi⟩ | ⟨rfl, hi⟩
    · exact readElem_of_class hc i
    · exact refused (k := .sect) rfl hi
    · exact refused (k := .point) rfl hi
    · exact refused (k := .signal) rfl hi
  · exact ⟨rfl, rfl, rfl, fun hn => by simp [State.statusView, hn], fun a ha => by simp [State.statusView, ha], rfl, rfl, rfl,
      fun hc => by simp [State.statusView, hc], fun hc => by simp [State.statusView, hc], rfl, rfl, rfl, rfl,
      (length_filter_range_getD s.rsu.slots Slot.start fun k => decide (k.state ≠ .free)).symm, rfl⟩
  · exact ⟨rfl, rfl, rfl, rfl, rfl, rfl, rfl, (length_filter_range_getD (s.link i).table none Option.isSome).symm⟩

end Sys2Proof.Machine

/-! ### The cancellation of a cleared route (R110, R111) -/

namespace Sys2Proof.Machine

theorem occ_ne_clear_iff {o : Occ} : o ≠ .clear ↔ o = .occupied ∨ o = .disturbed := by cases o <;> decide

/-- When the approach of a slot with figures is occupied (R110). -/
theorem approachOccupied_iff {s : State} {i : Nat} {f : Figures} (hf : (s.slot i).figures = some f) :
    s.approachOccupied i = true ↔ f.short = true
      ∨ (∃ k ∈ (s.slotRoute i).chain.take f.k, (s.sec k).occ = .occupied ∨ (s.sec k).occ = .disturbed)
      ∨ ∃ p, p < s.bdu.ports.length ∧ (s.portDef p).sec ∈ (s.slotRoute i).chain.take f.k
          ∧ ((s.port p).inc = .waiting ∨ (s.port p).inc = .receiving ∨ (s.port p).inc = .completed) := by
  have hsec : ∀ k, (!s.secClear k) = true ↔ (s.sec k).occ = .occupied ∨ (s.sec k).occ = .disturbed := fun k => by
    rw [Bool.not_eq_true', ← Bool.not_eq_true, secClear_iff, ← occ_ne_clear_iff]
  simp only [State.approachOccupied, hf, Bool.or_eq_true, List.any_eq_true, hsec, Bool.and_eq_true, List.contains_iff_mem,
    incGranted_iff, List.mem_range, or_assoc]

/-- A record changed by what it is itself. -/
theorem State.modSlot_congr {s : State} {i : Nat} {f g : Slot → Slot} (h : i < s.rsu.slots.length → f (s.slot i) = g (s.slot i)) :
    s.modSlot i f = s.modSlot i g := by
  have e : s.rsu.slots.modify i f = s.rsu.slots.modify i g := by
    refine List.ext_getElem (by simp) fun j hj _ => ?_
    rw [List.getElem_modify, List.getElem_modify]
    split
    · rename_i hij
      subst hij
      have hi : i < s.rsu.slots.length := by simpa using hj
      have := h hi
      rwa [State.slot, List.getD_eq_getElem _ _ hi] at this
    · rfl
  unfold State.modSlot
  rw [e]

/-- The entry signal put to STOP is at STOP. -/
theorem stopEntry_stopEntry (s : State) (i : Nat) : (s.stopEntry i).stopEntry i = s.stopEntry i := by
  have hr : (s.stopEntry i).slotRoute i = s.slotRoute i := by rw [stopEntry_eq]; rfl
  have ho : ((s.stopEntry i).sig (s.slotRoute i).entry).owner = (s.sig (s.slotRoute i).entry).owner := by rw [stopEntry_sig]
  rw [State.stopEntry, hr, ho]
  unfold State.stopEntry
  simp only []
  split
  · unfold State.setAspect State.modSig
    simp only [List.modify_modify_eq]
    rfl
  · rfl

theorem stopEntry_slot (s : State) (i j : Nat) : (s.stopEntry i).slot j = s.slot j := by rw [stopEntry_eq]; rfl

/-- An end that has put the entry signal to STOP before is the end. -/
theorem endSlot_stopEntry (s : State) (i : Nat) (r : EndReason) : (s.stopEntry i).endSlot i r = s.endSlot i r := by
  have hr : (s.stopEntry i).slotRoute i = s.slotRoute i := by rw [stopEntry_eq]; rfl
  rw [endSlot_eq, endSlot_eq, stopEntry_stopEntry, stopEntry_slot, hr]

/-- The entry signal at STOP, as the statements write the records (log 17). -/
theorem stopEntry_est (s : State) (i : Nat) : s.stopEntry i = { s with
    est.signals := if (s.sig (s.slotRoute i).entry).owner = some i then
      s.est.signals.modify (s.slotRoute i).entry fun r => { r with commanded := .stop } else s.est.signals } := by
  unfold State.stopEntry
  simp only []
  split <;> rfl

/-- With the approach occupied the slot waits for its release time, and keeps what it holds (R111). -/
theorem cancelCleared_of_occupied {s : State} {i : Nat} (h : s.approachOccupied i = true) : s.cancelCleared i =
    (s.stopEntry i).modSlot i fun k =>
      { k with state := .approachLocked, holds := Holds.empty, timerMs := some (s.slot i).releaseMs } := by
  unfold State.cancelCleared
  simp only []
  rw [stopEntry_approachOccupied, if_pos h]
  exact State.modSlot_congr fun _ => by rw [stopEntry_slot]

/-- With the approach free the slot ends CANCELLED (R111). -/
theorem cancelCleared_of_free {s : State} {i : Nat} (h : s.approachOccupied i = false) : s.cancelCleared i = s.endSlot i .cancelled := by
  unfold State.cancelCleared
  simp only []
  rw [stopEntry_approachOccupied, h]
  exact endSlot_stopEntry s i _

/-- An owner given up is no owner any more. -/
theorem ite_none_ne {α : Type} [DecidableEq α] {x : Option α} {a : α} : (if x = some a then none else x) ≠ some a := by
  split
  · exact Option.some_ne_none a |>.symm
  · assumption

/-- Settles O29, with what `EndFreesAll` says of the end. -/
theorem cancelClearedEffect : Obligations.CancelClearedEffect := by
  intro s i
  refine ⟨fun f hf => approachOccupied_iff hf, fun hl => ?_⟩
  obtain ⟨-, -, hsec, hpt, hsig, -⟩ := endFreesAll s i .cancelled (lt_of_live hl)
  have aspect : ∀ g, ((s.cancelCleared i).sig g).commanded =
      if g = (s.slotRoute i).entry ∧ (s.sig g).owner = some i then .stop else (s.sig g).commanded := fun g => by
    by_cases h : s.approachOccupied i = true
    · rw [cancelCleared_of_occupied h]
      exact congrArg SignalRec.commanded (stopEntry_sig s i g)
    · rw [cancelCleared_of_free (Bool.eq_false_iff.2 h), hsig]
  refine ⟨fun h => ?_, fun h => ?_, fun ho => ?_, fun g hg => ?_⟩
  · rw [cancelCleared_of_occupied h, stopEntry_est]
    rfl
  · rw [cancelCleared_of_free h]
    obtain ⟨hfree, hreason⟩ := endSlot_slot (lt_of_live hl) .cancelled
    exact ⟨rfl, hfree, hreason, fun k => by rw [hsec]; exact ite_none_ne, fun k => by rw [hpt]; exact ite_none_ne,
      fun k => by rw [hsig]; exact ite_none_ne⟩
  · rw [aspect, if_pos ⟨rfl, ho⟩]
  · rw [aspect, if_neg fun h => hg h.1]

end Sys2Proof.Machine

/-! ### Hold causes (R73) -/

namespace Sys2Proof.Machine

theorem flankProven_iff (s : State) (i : Nat) (w : ClaimOn) : s.flankProven i w = true ↔ s.flankHolds i w := by
  cases w with
  | port p => exact flankGranted_iff s i p
  | point k p => exact elemIntact_iff s (.point k p)
  | signal k => exact elemIntact_iff s (.signal k)
  | sect k => exact elemIntact_iff s (.sect k)

theorem neighboursGrant_iff {s : State} {i : Nat} : s.neighboursGrant i = true ↔
    ¬∃ r ∈ (s.slot i).remote, r.status ≠ .granted ∨ (s.link r.link).state ≠ .up := by
  simp only [State.neighboursGrant, RemoteReq.granted, List.all_eq_true, Bool.and_eq_true, decide_eq_true_eq, linkUp_iff]
  push Not
  exact Iff.rfl

theorem haltedNow_iff {s : State} :
    s.haltedNow = true ↔ s.mdc.mode = .halted ∨ (s.mdc.mode = .loading ∧ s.sds.load.origin = some .halted) := by
  simp only [State.haltedNow, Bool.or_eq_true, Bool.and_eq_true, decide_eq_true_eq]

theorem sectionCause_iff {s : State} {i : Nat} {d : RouteDef} : s.sectionCause i d = true ↔
    (∃ k ∈ d.sections, (s.sec k).occ = .disturbed) ∨ (∃ k ∈ d.sections.drop 1, (s.sec k).occ = .occupied)
      ∨ ((s.slot i).state ≠ .cleared ∧ ∃ k ∈ d.sections.take 1, (s.sec k).occ = .occupied) := by
  simp only [State.sectionCause, Bool.or_eq_true, Bool.and_eq_true, List.any_eq_true, decide_eq_true_eq, or_assoc]

/-- The causes computed are the set that stands (R73). -/
theorem causes_causesAre (s : State) (i : Nat) : s.CausesAre i ((s.slot i).state ≠ .cleared) (s.causes i) where
  point := by simp [State.causes, ← atRest_iff]
  sect := sectionCause_iff
  flank := by simp [State.causes, ← intact_iff]
  neighbour := by rw [← not_iff_not, ← neighboursGrant_iff]; simp [State.causes]
  lamp := rfl
  noClear := rfl
  controller := sigCtrlLost_iff
  halted := haltedNow_iff

/-- One set of causes stands. -/
theorem State.CausesAre.unique {s : State} {i : Nat} {z : Prop} {h h' : Holds} (k : s.CausesAre i z h) (k' : s.CausesAre i z h') :
    h = h' := by
  cases h
  cases h'
  congr 1
  · exact Bool.eq_iff_iff.2 (k.point.trans k'.point.symm)
  · exact Bool.eq_iff_iff.2 (k.sect.trans k'.sect.symm)
  · exact Bool.eq_iff_iff.2 (k.flank.trans k'.flank.symm)
  · exact Bool.eq_iff_iff.2 (k.neighbour.trans k'.neighbour.symm)
  · exact k.lamp.trans k'.lamp.symm
  · exact k.noClear.trans k'.noClear.symm
  · exact Bool.eq_iff_iff.2 (k.controller.trans k'.controller.symm)
  · exact Bool.eq_iff_iff.2 (k.halted.trans k'.halted.symm)

theorem causes_eq_iff {s : State} {i : Nat} {z : Prop} (hz : z ↔ (s.slot i).state ≠ .cleared) (h : Holds) :
    s.causes i = h ↔ s.CausesAre i z h := by
  have hc := causes_causesAre s i
  rw [← propext hz] at hc
  exact ⟨fun e => e ▸ hc, hc.unique⟩

/-- `t` is `s` but for marks, aspects no claim entry of slot `i` names, queued references and what of the slots' records no hold cause
is read of. -/
structure SameCauses (s t : State) (i : Nat) : Prop where
  route : (t.slot i).route = (s.slot i).route
  claims : (t.slot i).claims = (s.slot i).claims
  remote : (t.slot i).remote = (s.slot i).remote
  occ : ∀ k, (t.sec k).occ = (s.sec k).occ
  reported : ∀ g, (t.sig g).reported = (s.sig g).reported
  lamp : ∀ g, (t.sig g).lamp = (s.sig g).lamp
  commanded : ∀ g, (∃ c ∈ (s.slot i).claims, c.what = .signal g) → (t.sig g).commanded = (s.sig g).commanded
  rest : t = { s with est.sections := t.est.sections, est.signals := t.est.signals, rsu.slots := t.rsu.slots, slu.noticeQ := t.slu.noticeQ }

namespace SameCauses
variable {s t u : State} {i : Nat}

theorem trans (h : SameCauses s t i) (k : SameCauses t u i) : SameCauses s u i where
  route := k.route.trans h.route
  claims := k.claims.trans h.claims
  remote := k.remote.trans h.remote
  occ j := (k.occ j).trans (h.occ j)
  reported j := (k.reported j).trans (h.reported j)
  lamp j := (k.lamp j).trans (h.lamp j)
  commanded g hg := (k.commanded g (by rwa [h.claims])).trans (h.commanded g hg)
  rest := by rw [k.rest, h.rest]

theorem modSlot (s : State) (i : Nat) {f : Slot → Slot} (hr : ∀ k, (f k).route = k.route := by intro _; rfl)
    (hc : ∀ k, (f k).claims = k.claims := by intro _; rfl) (hq : ∀ k, (f k).remote = k.remote := by intro _; rfl) :
    SameCauses s (s.modSlot i f) i := by
  have h : ∀ {β : Type} (g : Slot → β), (∀ k, g (f k) = g k) → g ((s.modSlot i f).slot i) = g (s.slot i) := fun g hg => by
    rw [State.modSlot_slot_at]
    split
    · exact hg _
    · rfl
  exact { route := h _ hr, claims := h _ hc, remote := h _ hq, occ := fun _ => rfl, reported := fun _ => rfl, lamp := fun _ => rfl
          commanded := fun _ _ => rfl, rest := rfl }

theorem setAspect (s : State) (i : Nat) {g : Nat} (a : Aspect)
    (hg : g < s.est.signals.length → ∀ c ∈ (s.slot i).claims, c.what ≠ .signal g) : SameCauses s (s.setAspect g a) i where
  route := rfl
  claims := rfl
  remote := rfl
  occ _ := rfl
  reported j := by rw [State.setAspect, State.modSig_sig_at]; split <;> rfl
  lamp j := by rw [State.setAspect, State.modSig_sig_at]; split <;> rfl
  commanded j := fun ⟨c, hc, hw⟩ => by
    rw [State.setAspect, State.modSig_sig_at]
    refine congrArg SignalRec.commanded (if_neg ?_)
    rintro ⟨rfl, hl⟩
    exact hg hl c hc hw
  rest := rfl

theorem markOccupied (old s : State) (i : Nat) (l : List Nat) : SameCauses s (markOccupied old s i l) i := by
  have h := each_mark_set s i (g := fun x => { x with marks.unexpected := true }) (f := fun r => { r with unexpected := true })
    (fun _ => rfl) (fun _ => rfl) (newlyOccupied old s i l)
  change MarksSet s i _ _ _ (Machine.markOccupied old s i l) at h
  have hs : ∀ {β : Type} (g : Slot → β), (∀ k : Slot, g { k with marks.unexpected := true } = g k) →
      g ((Machine.markOccupied old s i l).slot i) = g (s.slot i) := fun g hg => by
    rcases h.slot_cases with e | e <;> rw [e]
    exact hg _
  have hsig : ∀ g, (Machine.markOccupied old s i l).sig g = s.sig g := fun g => by rw [h.rest]; rfl
  exact { route := hs _ fun _ => rfl, claims := hs _ fun _ => rfl, remote := hs _ fun _ => rfl, occ := h.occ fun _ => rfl
          reported := fun g => by rw [hsig], lamp := fun g => by rw [hsig], commanded := fun g _ => by rw [hsig]
          rest := by rw [h.rest] }

variable (h : SameCauses s t i)
include h

theorem slotRoute : t.slotRoute i = s.slotRoute i := by
  rw [State.slotRoute, State.slotRoute, h.route, h.rest]; rfl

theorem points : t.est.points = s.est.points := by rw [h.rest]

theorem pendingOf : t.pendingOf i = s.pendingOf i := pendingOf_congr h.slotRoute h.claims h.points

theorem stands {c : Claim} (hc : c ∈ (s.slot i).claims) : t.stands i c.what ↔ s.stands i c.what :=
  stands_congr (fun k => by rw [State.pt, State.pt, h.points]) h.occ h.remote (fun l => by rw [h.rest]; rfl) (by rw [h.rest]; rfl)
    fun k hk => ⟨h.commanded k ⟨c, hc, hk⟩, h.reported k, h.lamp k⟩

/-- The hold causes that stand in one stand in the other. -/
theorem causesAre_of {z : Prop} {x : Holds} (k : s.CausesAre i z x) : t.CausesAre i z x := by
  have hpt : ∀ j, t.pt j = s.pt j := fun j => by rw [State.pt, State.pt, h.points]
  have hlink : ∀ l, t.link l = s.link l := fun l => by rw [h.rest]; rfl
  have hctrl : t.ctrlLost (s.slotRoute i).entry ↔ s.ctrlLost (s.slotRoute i).entry := by rw [h.rest]; exact Iff.rfl
  have hrestr : t.sigRestr (s.slotRoute i).entry = s.sigRestr (s.slotRoute i).entry := by rw [h.rest]; rfl
  have hmdc : t.mdc = s.mdc := by rw [h.rest]
  have hsds : t.sds = s.sds := by rw [h.rest]
  exact {
    point := by rw [k.point, h.slotRoute]; simp only [hpt]
    sect := by rw [k.sect, h.slotRoute]; simp only [h.occ]
    flank := by rw [k.flank, h.claims]; exact exists_congr fun c => and_congr_right fun hc => not_congr (h.stands hc).symm
    neighbour := by rw [k.neighbour, h.remote]; simp only [hlink]
    lamp := by rw [k.lamp, h.slotRoute, h.lamp]
    noClear := by rw [k.noClear, h.slotRoute, hrestr]
    controller := by rw [k.controller, h.slotRoute, hctrl]
    halted := by rw [k.halted, hmdc, hsds] }

theorem symm : SameCauses t s i where
  route := h.route.symm
  claims := h.claims.symm
  remote := h.remote.symm
  occ k := (h.occ k).symm
  reported g := (h.reported g).symm
  lamp g := (h.lamp g).symm
  commanded g hg := (h.commanded g (by rwa [h.claims] at hg)).symm
  rest := by rw [h.rest]

theorem causesAre_iff {z : Prop} {x : Holds} : t.CausesAre i z x ↔ s.CausesAre i z x :=
  ⟨h.symm.causesAre_of, h.causesAre_of⟩

end SameCauses
end Sys2Proof.Machine

/-! ### The setting timer, and a change in SETTING, CLEARING, CLEARED and HELD (R68 to R74) -/

namespace Sys2Proof.Machine
variable {old s : State} {i : Nat}

/-- The points not at rest where the route or a claim entry asks them (R67). -/
theorem mem_pendingOf {p : Nat} : p ∈ s.pendingOf i ↔ (∃ q ∈ (s.slotRoute i).points, q.1 = p ∧ (s.pt p).pos ≠ q.2.rest)
    ∨ ∃ c ∈ (s.slot i).claims, (c.what = .point p .normal ∧ (s.pt p).pos ≠ .normal)
      ∨ (c.what = .point p .reverse ∧ (s.pt p).pos ≠ .reverse) := by
  have hneed : p ∈ s.pendingOf i ↔ ∃ q, (q ∈ (s.slotRoute i).points ∨ q ∈ claimedPoints (s.slot i).claims) ∧ q.1 = p
      ∧ (s.pt p).pos ≠ q.2.rest := by
    rw [State.pendingOf, mem_eraseDups_iff _ le_rfl]
    simp only [List.mem_map, List.mem_filter, List.mem_append, Bool.not_eq_true', ← Bool.not_eq_true, atRest_iff]
    refine exists_congr fun q => ⟨fun ⟨⟨hq, hr⟩, e⟩ => ⟨hq, e, e ▸ hr⟩, fun ⟨hq, e, hr⟩ => ⟨⟨hq, e ▸ hr⟩, e⟩⟩
  rw [hneed]
  constructor
  · rintro ⟨⟨k, x⟩, hq | hq, rfl, hr⟩
    · exact .inl ⟨_, hq, rfl, hr⟩
    · obtain ⟨c, hc, hw⟩ := mem_claimedPoints.1 hq
      cases x
      · exact .inr ⟨c, hc, .inl ⟨hw, hr⟩⟩
      · exact .inr ⟨c, hc, .inr ⟨hw, hr⟩⟩
  · rintro (⟨q, hq, rfl, hr⟩ | ⟨c, hc, ⟨hw, hr⟩ | ⟨hw, hr⟩⟩)
    · exact ⟨q, .inl hq, rfl, hr⟩
    · exact ⟨(p, .normal), .inr (mem_claimedPoints.2 ⟨c, hc, hw⟩), rfl, hr⟩
    · exact ⟨(p, .reverse), .inr (mem_claimedPoints.2 ⟨c, hc, hw⟩), rfl, hr⟩

theorem pendingOf_nodup (s : State) (i : Nat) : (s.pendingOf i).Nodup := nodup_eraseDups _ le_rfl

/-- An entry signal in force is held by no claim entry: it is owned, and what is owned is not held (R35, R86). -/
theorem entry_unclaimed (ho : s.clearedOwned) (hc : s.countsExact) (hs : (s.slot i).state = .setting ∨ (s.slot i).state = .clearing
      ∨ (s.slot i).state = .cleared ∨ (s.slot i).state = .held) (hg : (s.slotRoute i).entry < s.est.signals.length) :
    ∀ c ∈ (s.slot i).claims, c.what ≠ .signal (s.slotRoute i).entry := by
  intro c hcl hw
  obtain ⟨-, -, hfree⟩ := ho.owned _ i (ho.entry i hs hg)
  have hcount := hc.sig _ hg
  rw [hfree] at hcount
  exact countOn_ne_zero (mem_allClaims.2 (.inl ⟨i, List.mem_map_of_mem hcl⟩)) (by rw [hw]; rfl) hcount.symm

/-- The slot goes HELD with the causes that stand, its entry signal at STOP (R73). -/
theorem hold_eq {h : Holds} (hi : i < s.rsu.slots.length) (hc : s.CausesAre i True h)
    (hg : (s.slotRoute i).entry < s.est.signals.length → ∀ c ∈ (s.slot i).claims, c.what ≠ .signal (s.slotRoute i).entry) :
    s.hold i = { s with
      rsu.slots := s.rsu.slots.modify i fun k => { k with state := .held, holds := h, timerMs := none }
      est.signals := s.est.signals.modify (s.slotRoute i).entry fun r => { r with commanded := .stop } } := by
  have hsame := (SameCauses.setAspect s i .stop hg).trans (SameCauses.modSlot _ i (f := fun k => { k with state := .held, timerMs := none }))
  have hstate : (((s.setAspect (s.slotRoute i).entry .stop).modSlot i fun k => { k with state := .held, timerMs := none }).slot i).state
      = .held := by
    rw [State.modSlot_slot_at, if_pos ⟨rfl, hi⟩]
  have hcauses := (causes_eq_iff (z := True) (iff_of_true trivial (by rw [hstate]; decide)) h).2 (hsame.causesAre_of hc)
  unfold State.hold
  simp only []
  rw [hcauses, State.modSlot, State.modSlot]
  simp only [List.modify_modify_eq]
  rfl

/-- No section of a list is OCCUPIED, so none has become so. -/
theorem markOccupied_of_none {l : List Nat} (h : ∀ k ∈ l, (s.sec k).occ ≠ .occupied) : markOccupied old s i l = s := by
  have hn : newlyOccupied old s i l = [] := List.eq_nil_iff_forall_not_mem.2 fun k hk => by
    obtain ⟨hl, -, -, ho⟩ := mem_newlyOccupied.1 hk
    exact h k hl ho
  rw [markOccupied, hn]
  rfl

theorem causesAre_empty_occ {z : Prop} (h : s.CausesAre i z Holds.empty) : ∀ k ∈ (s.slotRoute i).sections.drop 1, (s.sec k).occ ≠ .occupied :=
  fun k hk ho => Bool.noConfusion (h.sect.2 (.inr (.inl ⟨k, hk, ho⟩)))

theorem causesAre_empty_occ_zero (h : s.CausesAre i True Holds.empty) : ∀ k ∈ (s.slotRoute i).sections, (s.sec k).occ ≠ .occupied := by
  intro k hk ho
  rw [← List.take_append_drop 1 (s.slotRoute i).sections, List.mem_append] at hk
  rcases hk with hk | hk
  · exact Bool.noConfusion (h.sect.2 (.inr (.inr ⟨trivial, k, hk, ho⟩)))
  · exact causesAre_empty_occ h k hk ho

theorem sections_drop_one {d : RouteDef} (h : d.path ≠ []) : d.sections.drop 1 = d.beyondEntry := by
  obtain ⟨k, l, e⟩ := List.exists_cons_of_ne_nil h
  rw [RouteDef.sections, RouteDef.beyondEntry, e]
  rfl

theorem refreshPending_slot (hi : i < s.rsu.slots.length) :
    (s.refreshPending i).slot i = { s.slot i with pendingPts := s.pendingOf i } := by
  rw [State.refreshPending, State.modSlot_slot_at, if_pos ⟨rfl, hi⟩]

/-- What the failure of a setting is read of (R71). -/
theorem failCause_refreshPending (hi : i < s.rsu.slots.length) : (s.refreshPending i).failCause i =
    if (s.pendingOf i).any fun p => (s.slotRoute i).points.any fun q => q.1 = p then .points
    else if !(s.pendingOf i).isEmpty || !((s.slot i).claims.all fun c => s.flankProven i c.what) then .flank
    else if !s.neighboursGrant i then .neighbour
    else if (s.slotRoute i).sections.any fun k => decide ((s.sec k).occ = .disturbed) then .fault
    else .signal := by
  have hslot := refreshPending_slot hi
  have hroute : (s.refreshPending i).slotRoute i = s.slotRoute i := slotRoute_modSlot s i i fun _ => rfl
  have hflank : ∀ w, (s.refreshPending i).flankProven i w = s.flankProven i w := fun w => by
    cases w with
    | port p => simp only [State.flankProven, State.flankGranted, hslot]
    | point k p => rfl
    | signal k => rfl
    | sect k => rfl
  have hneighbour : (s.refreshPending i).neighboursGrant i = s.neighboursGrant i := by
    simp only [State.neighboursGrant, hslot]
    rfl
  simp only [State.failCause, hroute, hslot, hflank, hneighbour]
  rfl

/-- The first cause of a failure that stands (R71). -/
theorem failCause_cases (hi : i < s.rsu.slots.length) :
    let d := s.slotRoute i
    let pend := s.pendingOf i
    let points := ∃ p ∈ pend, p ∈ d.points.map Prod.fst
    let flank := pend ≠ [] ∨ ∃ c ∈ (s.slot i).claims, ¬s.flankHolds i c.what
    let neighbour := ∃ r ∈ (s.slot i).remote, r.status ≠ .granted ∨ (s.link r.link).state ≠ .up
    let fault := ∃ k ∈ d.sections, (s.sec k).occ = .disturbed
    let is (c : FailCause) : Prop := (s.refreshPending i).failCause i = c
    (points → is .points) ∧ (¬points → flank → is .flank) ∧ (¬points → ¬flank → neighbour → is .neighbour)
      ∧ (¬points → ¬flank → ¬neighbour → fault → is .fault) ∧ (¬points → ¬flank → ¬neighbour → ¬fault → is .signal) := by
  intro d pend points flank neighbour fault is
  have hp : ((s.pendingOf i).any fun p => (s.slotRoute i).points.any fun q => q.1 = p) = true ↔ points := by
    simp [points, pend, d]
  have hf : (!(s.pendingOf i).isEmpty || !((s.slot i).claims.all fun c => s.flankProven i c.what)) = true ↔ flank := by
    simp [flank, pend, ← flankProven_iff]
  have hn : (!s.neighboursGrant i) = true ↔ neighbour := by
    rw [Bool.not_eq_true', ← Bool.not_eq_true, neighboursGrant_iff, not_not]
  have hd : ((s.slotRoute i).sections.any fun k => decide ((s.sec k).occ = .disturbed)) = true ↔ fault := by
    simp [fault, d]
  simp only [is, failCause_refreshPending hi]
  refine ⟨fun h => if_pos (hp.2 h), fun h1 h => ?_, fun h1 h2 h => ?_, fun h1 h2 h3 h => ?_, fun h1 h2 h3 h => ?_⟩
  · rw [if_neg (mt hp.1 h1), if_pos (hf.2 h)]
  · rw [if_neg (mt hp.1 h1), if_neg (mt hf.1 h2), if_pos (hn.2 h)]
  · rw [if_neg (mt hp.1 h1), if_neg (mt hf.1 h2), if_neg (mt hn.1 h3), if_pos (hd.2 h)]
  · rw [if_neg (mt hp.1 h1), if_neg (mt hf.1 h2), if_neg (mt hn.1 h3), if_neg (mt hd.1 h)]

/-- The test of R69 passed in SETTING: the entry signal clears (R69). -/
theorem tryClear_refreshPending (hi : i < s.rsu.slots.length) : (s.refreshPending i).tryClear i =
    if s.clearTest i then { s with
      rsu.slots := s.rsu.slots.modify i fun k =>
        { k with state := .clearing, figures := some (s.figuresOf (s.slotRoute i)), pendingPts := s.pendingOf i }
      est.signals := s.est.signals.modify (s.slotRoute i).entry fun r =>
        { r with commanded := if (s.slot i).kind = some .shunt then .restricted else .proceed } }
    else s.refreshPending i := by
  have hroute : (s.refreshPending i).slotRoute i = s.slotRoute i := slotRoute_modSlot s i i fun _ => rfl
  have hpend : (s.refreshPending i).pendingOf i = s.pendingOf i := pendingOf_modSlot s i i (fun _ => rfl) fun _ => rfl
  have hslot := refreshPending_slot hi
  have htest : (s.refreshPending i).clearTest i = s.clearTest i := by
    rw [Bool.eq_iff_iff, clearTest_iff hroute, clearTest_iff rfl, hpend, hslot]
    exact and_congr_right fun _ => and_congr (forall₂_congr fun c hc => (SameCauses.modSlot s i).stands hc) Iff.rfl
  unfold State.tryClear
  rw [htest]
  split
  · unfold State.setClearing
    simp only []
    rw [hroute, hslot, clearAspect_eq]
    simp only [State.refreshPending, State.modSlot, State.setAspect, State.modSig, List.modify_modify_eq]
    rfl
  · rfl

/-! #### What marks leave of the slot -/

theorem markOccupied_slots_length (old s : State) (i : Nat) (l : List Nat) :
    (markOccupied old s i l).rsu.slots.length = s.rsu.slots.length := (Handed.markOccupied old s i l).slots

theorem markOccupied_state (old s : State) (i : Nat) (l : List Nat) :
    ((markOccupied old s i l).slot i).state = (s.slot i).state := by
  have h := each_mark_set s i (g := fun x => { x with marks.unexpected := true }) (f := fun r => { r with unexpected := true })
    (fun _ => rfl) (fun _ => rfl) (newlyOccupied old s i l)
  change MarksSet s i _ _ _ (markOccupied old s i l) at h
  rcases h.slot_cases with e | e <;> rw [e]

/-- The slot goes HELD after marks, or a new list of pending points, as it goes HELD before. -/
theorem hold_of_same {t : State} {h : Holds} (k : SameCauses s t i) (hi : i < t.rsu.slots.length) (hc : s.CausesAre i True h)
    (hg : (s.slotRoute i).entry < s.est.signals.length → ∀ c ∈ (s.slot i).claims, c.what ≠ .signal (s.slotRoute i).entry)
    (hsig : t.est.signals.length = s.est.signals.length) : t.hold i = { t with
      rsu.slots := t.rsu.slots.modify i fun k => { k with state := .held, holds := h, timerMs := none }
      est.signals := t.est.signals.modify (s.slotRoute i).entry fun r => { r with commanded := .stop } } := by
  rw [← k.slotRoute]
  exact hold_eq hi (k.causesAre_of hc) (by rw [k.slotRoute, k.claims, hsig]; exact hg)

/-! #### CLEARING -/

theorem reactClearing_refreshed (hs : (s.slot i).state = .clearing) (h : Holds) :
    ((markOccupied old s i (s.slotRoute i).sections).refreshPending i).causes i = h ↔ s.CausesAre i True h := by
  have hi : i < (markOccupied old s i (s.slotRoute i).sections).rsu.slots.length :=
    markOccupied_slots_length old s i _ ▸ lt_of_state (by rw [hs]; decide)
  rw [causes_eq_iff (z := True)]
  · exact ((SameCauses.markOccupied old s i _).trans (SameCauses.modSlot _ i)).causesAre_iff
  · rw [refreshPending_slot hi, markOccupied_state, hs]
    decide

/-- No cause stands: the proving of the entry signal alone decides (R70). -/
theorem reactClearing_of_free {P : Prop} [Decidable P] (hP : P ↔ (s.sig (s.slotRoute i).entry).proven = true)
    (hs : (s.slot i).state = .clearing) (hc : s.CausesAre i True Holds.empty) : reactClearing old s i = { s with
      rsu.slots := s.rsu.slots.modify i fun k => { k with
        pendingPts := s.pendingOf i
        state := if P then .cleared else .clearing
        timerMs := if P then none else k.timerMs } } := by
  have hmark := markOccupied_of_none (old := old) (s := s) (i := i) (causesAre_empty_occ_zero hc)
  have hcauses := (reactClearing_refreshed (old := old) hs Holds.empty).2 hc
  have hroute : (s.refreshPending i).slotRoute i = s.slotRoute i := slotRoute_modSlot s i i fun _ => rfl
  rw [hmark] at hcauses
  unfold reactClearing
  simp only [hmark]
  have hsig : ∀ g, (s.refreshPending i).sig g = s.sig g := fun _ => rfl
  rw [if_pos hcauses, State.tryProve, hroute, hsig]
  by_cases hp : P
  · rw [if_pos (hP.1 hp)]
    simp only [if_pos hp, State.refreshPending, State.modSlot, List.modify_modify_eq]
    rfl
  · rw [if_neg (mt hP.2 hp)]
    simp only [if_neg hp]
    exact State.modSlot_congr fun _ => by rw [← hs]

/-- A cause stands: HELD with those that do (R73). -/
theorem reactClearing_of_cause (hs : (s.slot i).state = .clearing) (hn : ¬s.CausesAre i True Holds.empty) (ho : s.clearedOwned)
    (hx : s.countsExact) {h : Holds} (hc : s.CausesAre i True h) : ∃ u, Marked old s i (s.slotRoute i).sections u
      ∧ reactClearing old s i = { u with
        rsu.slots := u.rsu.slots.modify i fun k => { k with state := .held, holds := h, timerMs := none, pendingPts := s.pendingOf i }
        est.signals := u.est.signals.modify (s.slotRoute i).entry fun r => { r with commanded := .stop } } := by
  have hi : i < s.rsu.slots.length := lt_of_state (by rw [hs]; decide)
  have hmark := SameCauses.markOccupied old s i (s.slotRoute i).sections
  have hlen := markOccupied_slots_length old s i (s.slotRoute i).sections
  have hsig : (markOccupied old s i (s.slotRoute i).sections).est.signals.length = s.est.signals.length :=
    (Handed.markOccupied old s i _).signals
  refine ⟨_, markOccupied_marked old s i _ hi, ?_⟩
  unfold reactClearing
  simp only []
  rw [if_neg (mt (reactClearing_refreshed hs _).1 hn)]
  generalize markOccupied old s i (s.slotRoute i).sections = u at hmark hlen hsig
  have hsame : SameCauses s (u.refreshPending i) i := hmark.trans (SameCauses.modSlot u i)
  rw [hold_of_same hsame (by rw [State.refreshPending, State.modSlot, List.length_modify, hlen]; exact hi) hc
    (entry_unclaimed ho hx (.inr (.inl hs))) hsig]
  simp only [State.refreshPending, State.modSlot, List.modify_modify_eq, hmark.pendingOf]
  rfl

/-! #### CLEARED and HELD, where no train enters -/

theorem reactCleared_marked (hs : (s.slot i).state = .cleared) (l : List Nat) (h : Holds) :
    (markOccupied old s i l).causes i = h ↔ s.CausesAre i False h := by
  rw [causes_eq_iff (z := False)]
  · exact (SameCauses.markOccupied old s i l).causesAre_iff
  · rw [markOccupied_state, hs]
    decide

theorem reactCleared_of_free (hs : (s.slot i).state = .cleared) (hp : (s.slotRoute i).path ≠ []) (he : ¬entersIn old s i)
    (hc : s.CausesAre i False Holds.empty) : reactCleared old s i = s := by
  have hcauses := (reactCleared_marked (old := old) hs (s.slotRoute i).beyondEntry Holds.empty).2 hc
  have hmark : markOccupied old s i (s.slotRoute i).beyondEntry = s :=
    markOccupied_of_none fun k hk => causesAre_empty_occ hc k (sections_drop_one hp ▸ hk)
  rw [reactCleared, if_neg (mt entered_iff.1 he)]
  exact (if_pos hcauses).trans hmark

theorem reactCleared_of_cause (hs : (s.slot i).state = .cleared) (he : ¬entersIn old s i) (hn : ¬s.CausesAre i False Holds.empty)
    (ho : s.clearedOwned) (hx : s.countsExact) {h : Holds} (hc : s.CausesAre i True h) :
    ∃ u, Marked old s i (s.slotRoute i).beyondEntry u ∧ reactCleared old s i = { u with
      rsu.slots := u.rsu.slots.modify i fun k => { k with state := .held, holds := h, timerMs := none }
      est.signals := u.est.signals.modify (s.slotRoute i).entry fun r => { r with commanded := .stop } } := by
  have hi : i < s.rsu.slots.length := lt_of_state (by rw [hs]; decide)
  refine ⟨_, markOccupied_marked old s i _ hi, ?_⟩
  rw [reactCleared, if_neg (mt entered_iff.1 he)]
  refine (if_neg (mt (reactCleared_marked hs _ _).1 hn)).trans ?_
  exact hold_of_same (SameCauses.markOccupied old s i _) (markOccupied_slots_length old s i _ ▸ hi) hc
    (entry_unclaimed ho hx (.inr (.inr (.inl hs)))) (Handed.markOccupied old s i _).signals

theorem reactHeld_of_still (hs : (s.slot i).state = .held) (he : ¬entersIn old s i) {h : Holds} (hc : s.CausesAre i True h) :
    ∃ u, Marked old s i (s.slotRoute i).beyondEntry u
      ∧ reactHeld old s i = { u with rsu.slots := u.rsu.slots.modify i fun k => { k with holds := h } } := by
  have hi : i < s.rsu.slots.length := lt_of_state (by rw [hs]; decide)
  have hcauses : (markOccupied old s i (s.slotRoute i).beyondEntry).causes i = h := by
    rw [causes_eq_iff (z := True)]
    · exact (SameCauses.markOccupied old s i _).causesAre_of hc
    · rw [markOccupied_state, hs]
      decide
  refine ⟨_, markOccupied_marked old s i _ hi, ?_⟩
  rw [reactHeld, if_neg (mt entered_iff.1 he)]
  simp only [hcauses]
  rfl

/-! #### SETTING -/

theorem newlyOccupied_isEmpty {l : List Nat} : (newlyOccupied old s i l).isEmpty = true ↔ ¬∃ k ∈ l, hitIn old s i l k := by
  rw [List.isEmpty_iff, List.eq_nil_iff_forall_not_mem]
  simp only [mem_newlyOccupied, not_exists, not_and]
  exact ⟨fun h k _ => h k, fun h k hk => h k hk.1 hk⟩

theorem anyRefused_iff {k : Slot} : k.anyRefused = true ↔ ∃ r ∈ k.remote, r.status = .refused := by
  simp only [Slot.anyRefused, List.any_eq_true, decide_eq_true_eq]

theorem operational_iff : s.operational = true ↔ s.mdc.mode = .operational := decide_eq_true_iff

/-- Settles O31: the expiry of the setting timer by the cause of a failure that stands first, a change by the state of the slot. -/
theorem settingExpiryRow : Obligations.SettingExpiryRow := by
  refine ⟨fun s i hp => ?_, fun old s i => ?_⟩
  · intro d pend points flank neighbour fault fails
    have expires := fun b => acted_of_act_eq (i := .settingTimerExpiry i) (b := b)
      (fun t => if (t.slot i).timerMs.isSome then t.settingExpiry i else t) hp rfl
    refine ⟨fun ht hs => ?_, fun ht hs => expires _ ?_, fun ht h1 h2 => expires _ ?_, fun ht => expires _ (if_neg (by rw [ht]; decide))⟩
    · obtain ⟨c1, c2, c3, c4, c5⟩ := failCause_cases (lt_of_state (s := s) (i := i) (by rw [hs]; decide))
      have is : ∀ c, (s.refreshPending i).failCause i = c → fails c := fun c hc => expires _ ((if_pos ht).trans (by
        rw [State.settingExpiry, hs]
        simp only [hc]))
      exact ⟨fun a => is _ (c1 a), fun a b => is _ (c2 a b), fun a b c => is _ (c3 a b c), fun a b c e => is _ (c4 a b c e),
        fun a b c e => is _ (c5 a b c e)⟩
    · refine (if_pos ht).trans ?_
      rw [State.settingExpiry, hs]
    · refine (if_pos ht).trans ?_
      unfold State.settingExpiry
      split
      · exact absurd ‹_› h1
      · exact absurd ‹_› h2
      · rfl
  · intro d pend entry free noCause stopped clears proven refused hit
    refine ⟨⟨pendingOf_nodup s i, fun p => mem_pendingOf⟩, fun hs => ?_, fun hs => ?_, fun hpath hs he => ?_, fun hs he h hc => ?_⟩
    · have hi := lt_of_state (s := s) (i := i) (by rw [hs]; decide)
      have hreact : react old s i = reactSetting old s i := by rw [react, hs]
      have hclears : s.clearTest i = true ↔ clears := by
        rw [clearTest_iff rfl, operational_iff]
        simp only [clears, and_assoc]
        exact Iff.rfl
      have spared : ¬hit → react old s i = if (s.slot i).anyRefused then s.endSlot i (.settingFailed .neighbour)
          else (s.refreshPending i).tryClear i := fun hn => hreact.trans (if_pos (newlyOccupied_isEmpty.2 hn))
      have kept : ¬hit → ¬refused → react old s i = (s.refreshPending i).tryClear i := fun hn hr =>
        (spared hn).trans (if_neg (mt anyRefused_iff.1 hr))
      refine ⟨fun h => ⟨_, markOccupied_marked old s i _ hi, hreact.trans (if_neg ?_)⟩,
        fun hn hr => (spared hn).trans (if_pos (anyRefused_iff.2 hr)), fun hn hr hc => ?_, fun hn hr hc => ?_⟩
      · exact fun he => newlyOccupied_isEmpty.1 he h
      · rw [kept hn hr, tryClear_refreshPending hi, if_pos (hclears.2 hc)]
        obtain ⟨hpend, -⟩ := hc
        rw [show s.pendingOf i = [] from hpend]
      · rw [kept hn hr, tryClear_refreshPending hi, if_neg (mt hclears.1 hc)]
        rfl
    · have hreact : react old s i = reactClearing old s i := by rw [react, hs]
      have hproven : proven ↔ entry.proven = true := by
        rw [proven_iff]
        cases hc : entry.commanded <;> simp [proven, hc, Aspect.reported]
      exact ⟨fun hc => hreact.trans (reactClearing_of_free hproven hs hc), fun hn ho hx h hc => hreact ▸ reactClearing_of_cause hs hn ho hx hc⟩
    · have hreact : react old s i = reactCleared old s i := by rw [react, hs]
      exact ⟨fun hc => hreact.trans (reactCleared_of_free hs hpath he hc), fun hn ho hx h hc => hreact ▸ reactCleared_of_cause hs he hn ho hx hc⟩
    · have hreact : react old s i = reactHeld old s i := by rw [react, hs]
      exact hreact ▸ reactHeld_of_still hs he hc

end Sys2Proof.Machine

/-! ### Sizes and route numbers: what an operation does not add to (R55, R59, R79, R139, R163)

`Within` says of an operation that no slot becomes live or takes another route, the store and each link's request list gain nothing,
and the lists of the supervisory line keep their sizes. All operations have it but the starts and those that accept or store a route
request. -/

namespace Sys2Proof.Machine

/-- The lists of the supervisory line hold no more than their size, LOAD_END or ACTIVATE in progress alone (R167, R181, R182, R184). -/
structure Slu.sized (u : Slu) : Prop where
  holders : u.holders.length = 8
  inputQ : u.inputQ.length ≤ 4
  respQ : u.respQ.length ≤ 8
  kept : u.inProgress.isSome → u.respQ.length ≤ 7
  lasting : ∀ q, u.inProgress = some q → lastingCmd q.cmd
  noticeQ : u.noticeQ.Nodup
  noticeCount : u.noticeCount < 256

/-- A link's table has 16 entries, its request list at most 16; its tag and its sequence are in range (R139, R141, R163). -/
def Link.sized (k : Link) : Prop := k.table.length = 16 ∧ k.outgoing.length ≤ 16 ∧ k.nextTag < 256 ∧ k.nextSeq < 16

theorem Link.start_sized : Link.start.sized := by unfold Link.sized; decide

theorem linksHold_iff {s : State} : s.linksHold ↔ ∀ l, (s.link l).sized := forall_mem_iff_getD Link.start_sized _

/-- The link keeps its sizes and gains no request. -/
structure Link.Within (k k' : Link) : Prop where
  sized : k.sized → k'.sized
  outgoing : k'.outgoing.length ≤ k.outgoing.length

theorem Link.Within.refl (k : Link) : k.Within k := ⟨id, le_rfl⟩
theorem Link.Within.trans {a b c : Link} (h : a.Within b) (k : b.Within c) : a.Within c := ⟨k.sized ∘ h.sized, k.outgoing.trans h.outgoing⟩

/-- The slot does not become live and takes no other route. -/
def Slot.Within (k k' : Slot) : Prop := k'.state ≠ .free → k.state ≠ .free ∧ k'.route = k.route

theorem Slot.Within.refl (k : Slot) : k.Within k := fun h => ⟨h, rfl⟩

theorem Slot.Within.trans {a b c : Slot} (h : a.Within b) (k : b.Within c) : a.Within c := fun hc =>
  have ⟨hb, hr⟩ := k hc
  ⟨(h hb).1, hr.trans (h hb).2⟩

/-- Nothing is taken: no slot, no place in the store, no place in a request list. -/
structure Within (s t : State) : Prop where
  slots : t.rsu.slots.length = s.rsu.slots.length
  slot : ∀ i, (s.slot i).Within (t.slot i)
  store : (t.rsu.store.map StoreEntry.route).Sublist (s.rsu.store.map StoreEntry.route)
  links : t.bdu.links.length = s.bdu.links.length
  link : ∀ l, (s.link l).Within (t.link l)
  slu : s.slu.sized → t.slu.sized

namespace Within

theorem refl (s : State) : Within s s := ⟨rfl, fun _ => .refl _, .refl _, rfl, fun _ => .refl _, id⟩

theorem trans {s t u : State} (h : Within s t) (k : Within t u) : Within s u :=
  ⟨k.slots.trans h.slots, fun i => (h.slot i).trans (k.slot i), k.store.trans h.store, k.links.trans h.links,
    fun l => (h.link l).trans (k.link l), k.slu ∘ h.slu⟩

theorem ite {s t u : State} {c : Prop} [Decidable c] (h : Within s t) (k : Within s u) : Within s (if c then t else u) := by
  split
  · exact h
  · exact k

theorem each {α : Type} (s : State) (l : List α) (f : State → α → State) (h : ∀ t x, Within t (f t x)) : Within s (s.each l f) := by
  suffices ∀ t, Within s t → Within s (l.foldl f t) from this s (refl s)
  induction l with
  | nil => exact fun t ht => ht
  | cons x l ih => exact fun t ht => ih _ (ht.trans (h t x))

/-! #### Writing records -/

section
variable (s : State)

theorem modSec (k : Nat) (f : SectionRec → SectionRec) : Within s (s.modSec k f) := { refl s with }
theorem modPt (k : Nat) (f : PointRec → PointRec) : Within s (s.modPt k f) := { refl s with }
theorem modSig (k : Nat) (f : SignalRec → SignalRec) : Within s (s.modSig k f) := { refl s with }
theorem modPort (p : Nat) (f : Port → Port) : Within s (s.modPort p f) := { refl s with }
theorem modCtrl (a : Nat) (f : Ctrl → Ctrl) : Within s (s.modCtrl a f) := { refl s with }
theorem due (b : Bool) : Within s { s with releaseDue := b } := { refl s with }
theorem releaseEvent : Within s s.releaseEvent := due s true

/-- A slot that keeps its route and is live only where it was. -/
theorem modSlotAt (i : Nat) (f : Slot → Slot) (h : ∀ k, s.rsu.slots[i]? = some k → k.Within (f k)) : Within s (s.modSlot i f) :=
  { refl s with
    slots := List.length_modify _ _ _
    slot := fun _ => getD_modify Slot.Within .refl _ _ _ _ _ h }

theorem modSlot (i : Nat) {f : Slot → Slot} (h : ∀ k : Slot, k.Within (f k) := by exact fun _ h => ⟨h, rfl⟩) : Within s (s.modSlot i f) :=
  modSlotAt s i f fun k _ => h k

/-- A live slot goes on in another state. -/
theorem restate {i : Nat} (hl : s.live i = true) {f : Slot → Slot} (h : ∀ k, (f k).route = k.route := by exact fun _ => rfl) :
    Within s (s.modSlot i f) :=
  modSlotAt s i f fun k hk _ => by
    rw [State.live, decide_eq_true_eq, State.slot, List.getD_eq_getElem?_getD, hk] at hl
    exact ⟨hl, h k⟩

theorem modLink (l : Nat) {f : Link → Link} (h : ∀ k : Link, k.Within (f k) := by exact fun _ => ⟨id, le_rfl⟩) : Within s (s.modLink l f) :=
  { refl s with
    links := List.length_modify _ _ _
    link := fun _ => getD_modify Link.Within .refl _ _ _ _ _ fun k _ => h k }

theorem setEntry (l e : Nat) (x : Option RemoteEntry) : Within s (s.setEntry l e x) :=
  modLink s l fun _ => ⟨fun ⟨ht, ho⟩ => ⟨(List.length_set ..).trans ht, ho⟩, le_rfl⟩

theorem leaveStore (n : Nat) (r : Removal) : Within s (s.leaveStore n r) := { refl s with store := List.filter_sublist.map _ }

theorem setLine {u : Slu} (h : s.slu.sized → u.sized) : Within s { s with slu := u } := { refl s with slu := h }

theorem note (r : Ref) : Within s (s.note r) := by
  rw [note_eq]
  exact setLine s fun h => { h with noticeQ := (Handed.note s r).nodup h.noticeQ }

theorem setRx (x : Rx) : Within s (s.setRx x) := setLine s fun h => { h with }
theorem setHolder (a : Nat) (x : Holder) : Within s (s.setHolder a x) :=
  setLine s fun h => { h with holders := (List.length_set ..).trans h.holders }
theorem setGate (o : Originator) (g : Option Gate) : Within s (s.setGate o g) := by
  cases o <;> exact setLine s fun h => { h with }

end
end Within
end Sys2Proof.Machine

/-! ### What an act hands on takes nothing -/

namespace Sys2Proof.Machine
namespace Within

section
variable (s : State)

/-! #### Locks, counts, movements, aspects -/

theorem freeSec (k : Nat) (o : Owner) : Within s (s.freeSec k o) :=
  ite (((by exact modSec s k _ : Within s _).trans (releaseEvent _)).trans (note _ _)) (refl s)
theorem freePt (k : Nat) (o : Owner) : Within s (s.freePt k o) :=
  ite (((by exact modPt s k _ : Within s _).trans (releaseEvent _)).trans (note _ _)) (refl s)
theorem freeSig (k i : Nat) : Within s (s.freeSig k i) :=
  ite (((by exact modSig s k _ : Within s _).trans (releaseEvent _)).trans (note _ _)) (refl s)

theorem addCount (c : ClaimOn) : Within s (s.addCount c) := by cases c <;> exact { refl s with }
theorem takeCount (c : ClaimOn) : Within s (s.takeCount c) := by cases c <;> exact { refl s with }

theorem noteClaimed (c : ClaimOn) : Within s (s.noteClaimed c) := by
  cases c with
  | point k p => exact note s _
  | signal k => exact note s _
  | sect k => exact note s _
  | port p => exact refl s

theorem dropCount (c : ClaimOn) : Within s (s.dropCount c) :=
  (ite ((takeCount s c).trans (releaseEvent _)) (takeCount s c)).trans (noteClaimed _ c)

theorem dropAll (cs : List Claim) : Within s (s.each cs fun t c => t.dropCount c.what) := each s _ _ fun t _ => dropCount t _

theorem moveIfOther (k : Nat) (p : Pos) : Within s (s.moveIfOther k p) := ite (modPt s k _) (refl s)

theorem placeCounts (cs : List Claim) : Within s (s.placeCounts cs) := each s _ _ fun t _ => addCount t _

theorem beginClaimMoves (cs : List Claim) : Within s (s.beginClaimMoves cs) := by
  rw [beginClaimMoves_eq]
  exact each s _ _ fun t q => moveIfOther t _ _

theorem stopEntry (i : Nat) : Within s (s.stopEntry i) := ite (modSig s _ _) (refl s)

/-! #### Claims and requests given up -/

theorem withdraw (i : Nat) (r : RemoteReq) : Within s (s.withdraw i r) := by
  unfold State.withdraw
  split
  · exact modPort s _ _
  · refine modLink s _ fun k => ?_
    have hle := List.length_filter_le (fun o => !(decide (o.tag = r.tag) && decide (o.slot = i))) k.outgoing
    exact ⟨fun ⟨ht, ho, hk⟩ => ⟨ht, hle.trans ho, hk⟩, hle⟩

theorem withdrawWhere (i : Nat) (f : RemoteReq → Bool) : Within s (s.withdrawWhere i f) :=
  (each s _ _ fun t r => withdraw t i r).trans (modSlot _ i)

theorem releaseClaims (i : Nat) (f : Claim → Bool) : Within s (s.releaseClaims i f) :=
  ite (refl s) (((dropAll s _).trans (modSlot _ i)).trans (withdrawWhere _ i _))

theorem freeLocks (i : Nat) : Within s (s.freeLocks i) :=
  ((each s _ _ fun t k => freeSec t k _).trans (each _ _ _ fun t k => freePt t k _)).trans (each _ _ _ fun t k => freeSig t k i)

theorem settleConflict (p : Nat) : Within s (s.settleConflict p) := ite (modPort s p _) (refl s)

theorem endSlot (i : Nat) (r : EndReason) : Within s (s.endSlot i r) := by
  have h := ((((stopEntry s i).trans (freeLocks _ i)).trans (dropAll _ (s.slot i).claims)).trans
    (each _ (s.slot i).remote (fun t q => t.withdraw i q) fun t q => withdraw t i q)).trans
    (modSlot _ i (f := fun k => k.ended r) fun _ hn => absurd rfl hn)
  unfold State.endSlot
  exact ite (h.trans (settleConflict _ _)) h

theorem releaseOverlap (i : Nat) : Within s (s.releaseOverlap i) := by
  unfold State.releaseOverlap
  exact (((((each s _ _ fun t k => freeSec t k _).trans (each _ _ _ fun t k => freePt t k _)).trans (releaseClaims _ i _)).trans
    (withdrawWhere _ i _)).trans (modSlot _ i)).trans (note _ _)

/-! #### Marks, pending points -/

theorem refreshPending (i : Nat) : Within s (s.refreshPending i) := modSlot s i

theorem watchClaims (old : State) (i : Nat) : Within s (Machine.watchClaims old s i) :=
  ite ((modSlot s i).trans (note _ _)) (modSlot s i)

theorem markUnexpected (i k : Nat) : Within s (s.markUnexpected i k) := ((modSlot s i).trans (modSec _ k _)).trans (note _ _)
theorem markSequence (i k : Nat) : Within s (s.markSequence i k) := ((modSlot s i).trans (modSec _ k _)).trans (note _ _)
theorem markVanished (i k : Nat) : Within s (s.markVanished i k) := ((modSlot s i).trans (modSec _ k _)).trans (note _ _)
theorem markPassed (i : Nat) : Within s (s.markPassed i) := (modSlot s i).trans (note _ _)
theorem markOccupied (old : State) (i : Nat) (l : List Nat) : Within s (Machine.markOccupied old s i l) :=
  each s _ _ fun t k => markUnexpected t i k

theorem tryVanished (old : State) (i : Nat) (d : RouteDef) (h : Nat) : Within s (Machine.tryVanished old s i d h) := by
  unfold Machine.tryVanished
  split
  · exact markVanished s i _
  · exact refl s

/-! #### The passage -/

theorem releaseSection (i : Nat) (d : RouteDef) (r : Nat) : Within s (s.releaseSection i d r) := by
  unfold State.releaseSection
  exact (((freeSec s _ _).trans (each _ _ _ fun t _ => freePt t _ _)).trans (releaseClaims _ i _)).trans (modSlot _ i)

theorem releaseFrom (i : Nat) (d : RouteDef) (h fuel r : Nat) : Within s (s.releaseFrom i d h fuel r) := by
  induction fuel generalizing s r with
  | zero => exact refl s
  | succ n ih => exact ite ((releaseSection s i d r).trans (ih _ _)) (refl s)

theorem tryBerth (i : Nat) (d : RouteDef) (h : Nat) : Within s (s.tryBerth i d h) := by
  unfold State.tryBerth
  split
  · rename_i hc
    exact ite (endSlot s i _) (restate s (by rw [State.live, hc.1]; rfl))
  · exact refl s

theorem tryLast (i : Nat) (d : RouteDef) (h : Nat) : Within s (s.tryLast i d h) := ite (endSlot s i _) (refl s)

theorem evaluateFrom (old : State) (i : Nat) (d : RouteDef) (h r : Nat) : Within s (Machine.evaluateFrom old s i d h r) := by
  unfold Machine.evaluateFrom
  split
  · exact (each s _ _ fun t x => markSequence t i x).trans (tryVanished _ old i d h)
  · exact (((tryVanished s old i d h).trans (releaseFrom _ i _ _ _ _)).trans (tryBerth _ i _ _)).trans (tryLast _ i _ _)

theorem evaluate (old : State) (i : Nat) : Within s (Machine.evaluate old s i) := by
  unfold Machine.evaluate
  split
  · have hm := fun n => (modSlot s i (f := fun k => { k with head := some n })).trans
      (ite (c := n < (s.slotRoute i).path.length) (markOccupied _ old i (s.slotRoute i).overlapSecs) (refl _))
    exact (hm _).trans (ite (refl _) (evaluateFrom _ old i _ _ _))
  · exact refl s

end

section
variable {s : State} {i : Nat} (hl : s.live i = true)
include hl

theorem setClearing : Within s (s.setClearing i) := (restate s hl).trans (modSig _ _ _)
theorem tryClear : Within s (s.tryClear i) := ite (setClearing hl) (refl s)
theorem tryProve : Within s (s.tryProve i) := ite (restate s hl) (refl s)
theorem beginRelease : Within s (s.beginRelease i) := restate s hl

theorem hold : Within s (s.hold i) := by
  have h1 : (s.setAspect (s.slotRoute i).entry .stop).live i = true := hl
  exact ((modSig s _ _).trans (restate _ h1)).trans (modSlot _ i)

theorem cancelCleared : Within s (s.cancelCleared i) :=
  ite ((stopEntry s i).trans (restate _ (((Quiet.stopEntry s i).live i).trans hl))) ((stopEntry s i).trans (endSlot _ i _))

theorem takeEntry : Within s (s.takeEntry i) := by
  have h1 : (s.setAspect (s.slotRoute i).entry .stop).live i = true := hl
  exact ((modSig s _ _).trans (freeSig _ _ i)).trans ((restate _ (Keeps.freeSig h1 _).live).trans (note _ _))

theorem enter (old : State) : Within s (Machine.enter old s i) := by
  unfold Machine.enter
  refine ((takeEntry hl).trans ?_).trans (evaluate _ old i)
  split
  · exact markSequence _ i _
  · exact refl _

/-! #### What a change does to a slot -/

theorem markPassedEnter (old : State) : Within s (Machine.enter old (s.markPassed i) i) :=
  (markPassed s i).trans (enter (((Quiet.markPassed s i).live i).trans hl) old)

theorem reactSetting (old : State) : Within s (Machine.reactSetting old s i) :=
  ite (ite (endSlot s i _) ((refreshPending s i).trans (tryClear (((Quiet.refreshPending s i).live i).trans hl))))
    ((markOccupied s old i _).trans (endSlot _ i _))

theorem reactClearing (old : State) : Within s (Machine.reactClearing old s i) := by
  have h := (markOccupied s old i (s.slotRoute i).sections).trans (refreshPending _ i)
  have h1 := (((Quiet.markOccupied s old i (s.slotRoute i).sections).trans (Quiet.refreshPending _ i)).live i).trans hl
  exact ite (h.trans (tryProve h1)) (h.trans (hold h1))

theorem reactCleared (old : State) : Within s (Machine.reactCleared old s i) := by
  have h := markOccupied s old i (s.slotRoute i).beyondEntry
  exact ite (enter hl old) (ite h (h.trans (hold (((Quiet.markOccupied s old i _).live i).trans hl))))

theorem reactHeld (old : State) : Within s (Machine.reactHeld old s i) :=
  ite (markPassedEnter hl old) ((markOccupied s old i _).trans (modSlot _ i))

theorem reactApproach (old : State) : Within s (Machine.reactApproach old s i) := ite (markPassedEnter hl old) (markOccupied s old i _)

end

section
variable (s : State)

theorem reactRelease (old : State) (i : Nat) : Within s (Machine.reactRelease old s i) :=
  ite (refl s) ((ite (markPassed s i) (refl s)).trans (markOccupied _ old i _))

theorem live_of_state {s : State} {i : Nat} {x : SlotState} (hs : (s.slot i).state = x) (hx : x ≠ .free) : s.live i = true := by
  rw [State.live, hs, decide_eq_true hx]

theorem react (old : State) (i : Nat) : Within s (Machine.react old s i) := by
  unfold Machine.react
  split <;> rename_i hs
  · exact refl s
  · exact reactSetting (live_of_state hs (by decide)) old
  · exact reactClearing (live_of_state hs (by decide)) old
  · exact reactCleared (live_of_state hs (by decide)) old
  · exact reactHeld (live_of_state hs (by decide)) old
  · exact reactApproach (live_of_state hs (by decide)) old
  · exact reactRelease s old i
  · exact ite (evaluate s old i) (refl s)
  · exact ite (evaluate s old i) (refl s)

/-! #### What a change does to a port and to the tables -/

theorem freeAcceptance (p : Nat) : Within s (s.freeAcceptance p) := freeSec s _ _

theorem endReceiving (p : Nat) : Within s (s.endReceiving p) := (freeAcceptance s p).trans (modPort _ p _)

theorem portEdges (old : State) (p : Nat) : Within s (Machine.portEdges old s p) := by
  unfold Machine.portEdges
  refine ite (refl s) ?_
  split
  · exact ite (endReceiving s p) (ite (modPort s p _) (refl s))
  · exact ite (endReceiving s p) (refl s)
  · exact refl s

theorem watchTables : Within s s.watchTables :=
  { refl s with
    links := List.length_map _
    link := fun l => by
      simp only [State.link, State.watchTables, List.getD_eq_getElem?_getD, List.getElem?_map]
      rcases s.bdu.links[l]? with _ | k
      · exact .refl _
      · exact ⟨fun ⟨ht, hk⟩ => ⟨(List.length_map _).trans ht, hk⟩, le_rfl⟩ }

theorem handOn (old : State) : Within s (Machine.handOn old s) :=
  (((each s _ _ fun t i => watchClaims t old i).trans (each _ _ _ fun t i => react t old i)).trans
    (each _ _ _ fun t p => portEdges t old p)).trans (watchTables _)

/-! #### Notices and telegrams -/

theorem noteIf (n : Nat) (c : Nat → Bool) (r : Nat → Ref) : Within s (s.noteIf n c r) := each s _ _ fun t _ => note t _
theorem noteAll : Within s s.noteAll := each s _ _ fun t r => note t r

theorem noteChanges (old : State) : Within s (Machine.noteChanges old s) :=
  (((((((noteIf s _ _ .sect).trans (noteIf _ _ _ .point)).trans (noteIf _ _ _ .signal)).trans (noteIf _ _ _ .port)).trans
    (noteIf _ _ _ .link)).trans (noteIf _ _ _ .slot)).trans (ite (note _ .store) (refl _))).trans (ite (note _ .system) (refl _))

theorem send (l : Nat) : Within s (s.send l) :=
  modLink s l fun _ => ⟨fun ⟨ht, ho, hn, _⟩ => ⟨ht, ho, hn, Nat.mod_lt _ (by decide)⟩, le_rfl⟩

theorem sendChanges : Within s s.sendChanges := each s _ _ fun t l => ite (send t l) (refl t)

end
end Within
end Sys2Proof.Machine

/-! ### What the field bus, the neighbours and the commands of the host bring takes nothing -/

namespace Sys2Proof.Machine
namespace Within
variable (s : State)

/-! #### The field bus -/

theorem reportPoint (k : Nat) (x : Option Pos) : Within s (s.reportPoint k x) := ite ((modPt s k _).trans (releaseEvent _)) (modPt s k _)
theorem losePoint (k : Nat) : Within s (s.losePoint k) := ite ((modPt s k _).trans (releaseEvent _)) (modPt s k _)

theorem takeReports (a : Nat) (codes : List Nat) : Within s (s.takeReports a codes) :=
  ((each s _ _ fun t k => modSec t k _).trans (each _ _ _ fun t k => reportPoint t k _)).trans (each _ _ _ fun t k => modSig t k _)

theorem loseController (a : Nat) : Within s (s.loseController a) :=
  (((modCtrl s a _).trans (each _ _ _ fun t k => modSec t k _)).trans (each _ _ _ fun t k => losePoint t k)).trans
    (each _ _ _ fun t k => modSig t k _)

theorem loseUnknown : Within s s.loseUnknown := each s _ _ fun t a => loseController t a

theorem missPoll (a : Nat) : Within s (s.missPoll a) := by
  unfold State.missPoll
  simp only
  split
  · exact ite ((modCtrl s a _).trans (loseController _ a)) (modCtrl s a _)
  · exact modCtrl s a _

theorem missAnswer : Within s s.missAnswer := by
  unfold State.missAnswer
  split
  · exact missPoll s _
  · exact refl s

theorem takeAnswer (bs : List Byte) : Within s (s.takeAnswer bs) := by
  unfold State.takeAnswer
  split
  · exact ite ((modCtrl s _ _).trans (takeReports _ _ _)) (missPoll s _)
  · exact refl s

theorem sendPoll : Within s s.sendPoll := by
  rw [sendPoll_eq]
  exact { refl s with }

theorem endPoll : Within s s.endPoll := { refl s with }

/-! #### Timers -/

theorem throwExpiry (k : Nat) : Within s (s.throwExpiry k) := ite (refl s) ((modPt s k _).trans (releaseEvent _))

theorem expireEntry (n : Nat) : Within s (s.expireEntry n) := ite ((leaveStore s n _).trans (note _ _)) (refl s)

theorem settingExpiry (i : Nat) : Within s (s.settingExpiry i) := by
  unfold State.settingExpiry
  split
  · exact (refreshPending s i).trans (endSlot _ i _)
  · exact cancelCleared (live_of_state ‹_› (by decide))
  · exact refl s

/-! #### Acceptances, directions -/

theorem withdrawIncoming (p : Nat) : Within s (s.withdrawIncoming p) := by
  unfold State.withdrawIncoming
  split
  · exact (freeAcceptance s p).trans (modPort _ p _)
  · exact modPort s p _
  · exact modPort s p _
  · exact modPort s p _
  · exact refl s

theorem decideIncoming (p tag : Nat) : Within s (s.decideIncoming p tag) :=
  ite (by exact (modSec s _ _).trans (modPort _ p _)) (modPort s p _)

theorem takeIncoming (p : Nat) (x : Option Nat) : Within s (s.takeIncoming p x) := by
  cases x with
  | none => exact withdrawIncoming s p
  | some tag => exact ite (refl s) (ite ((withdrawIncoming s p).trans (decideIncoming _ p tag)) (withdrawIncoming s p))

theorem decideDirection (p : Nat) : Within s (s.decideDirection p) :=
  ite (refl s) (ite ((modPort s p _).trans (modPort _ p _)) ((modPort s p _).trans (modPort _ p _)))

theorem takeNbView (p : Nat) (v : NbView) : Within s (s.takeNbView p v) := ite (ite (decideDirection s p) (refl s)) (modPort s p _)

theorem takeAccAns (p : Nat) (a : AccAns) (tag : Option Nat) : Within s (s.takeAccAns p a tag) := by
  unfold State.takeAccAns
  simp only
  split
  · exact (modPort s p _).trans (modSlot _ _)
  · exact modPort s p _

theorem takePortEntry (p : Nat) (e : PortEntry) : Within s (s.takePortEntry p e) :=
  ((((modPort s p _).trans (takeNbView _ p _)).trans (modPort _ p _)).trans (takeAccAns _ p _ _)).trans (takeIncoming _ p _)

theorem missPortEntry (p : Nat) : Within s (s.missPortEntry p) := (takeAccAns s p _ _).trans (takeIncoming _ p _)

theorem takeAnswers (l : Nat) (as : List AnsItem) : Within s (s.takeAnswers l as) := each s _ _ fun t _ => modSlot t _

/-! #### Requests of a neighbour -/

theorem releaseEntry (l e : Nat) : Within s (s.releaseEntry l e) := by
  unfold State.releaseEntry
  split
  · exact refl s
  · rename_i x _
    have h : ∀ y, Within s y → Within s ((y.each x.claims fun t c => t.dropCount c.what).setEntry l e none) := fun y hy =>
      (hy.trans (dropAll y x.claims)).trans (setEntry _ l e none)
    split
    · exact h _ (freeSec s _ _)
    · exact h _ (freePt s _ _)
    · exact h _ (refl s)

theorem settle (l e tag : Nat) (a : Ask) : Within s (s.settle l e tag a) := by
  unfold State.settle
  simp only
  split
  · exact (show Within s (s.windowRefusal l a _) from ite (modLink s l) (refl s)).trans (setEntry _ l e _)
  · exact (show Within s _ from modSec s _ _).trans (setEntry _ l e _)
  · exact ((show Within s _ from modPt s _ _).trans (moveIfOther _ _ _)).trans (setEntry _ l e _)
  · exact ((placeCounts s _).trans (beginClaimMoves _ _)).trans (setEntry _ l e _)

theorem takeRequest (l : Nat) (q : Nat × Ask) : Within s (s.takeRequest l q) := by
  unfold State.takeRequest
  split
  · exact ite (settle s l _ _ _) (refl s)
  · split
    · exact refl s
    · exact ite (settle s l _ _ _) (setEntry s l _ _)

theorem takeRequests (l : Nat) (reqs : List (Nat × Ask)) : Within s (s.takeRequests l reqs) :=
  ((each s _ _ fun t e => releaseEntry t l e).trans (each _ _ _ fun t e => releaseEntry t l e)).trans
    (each _ _ _ fun t q => takeRequest t l q)

theorem clearRemote (l : Nat) : Within s (s.clearRemote l) :=
  (each s _ _ fun t e => releaseEntry t l e).trans (each _ _ _ fun t p => withdrawIncoming t p)

/-! #### Telegrams -/

theorem actStatus (l : Nat) (ports : List PortEntry) (reqs : List (Nat × Ask)) (as : List AnsItem) :
    Within s (s.actStatus l ports reqs as) := by
  refine ((each s _ _ fun t x => ?_).trans (takeAnswers _ l as)).trans (takeRequests _ l reqs)
  split
  · exact takePortEntry t _ _
  · exact missPortEntry t _

theorem reconcile (p : Nat) (v : NbView) : Within s (s.reconcile p v) := by
  have h := modPort s p fun q => { q with nbView := v }
  unfold State.reconcile
  refine ite h ?_
  split
  · exact h.trans (modPort _ p _)
  · exact h.trans (modPort _ p _)
  · exact h.trans (modPort _ p _)
  · exact h

theorem actHello (l : Nat) (seen : Bool) (ps : List HelloPort) : Within s (s.actHello l seen ps) :=
  ite (((modLink s l).trans (each _ _ _ fun t _ => reconcile t _ _)).trans (modLink _ l)) (modLink s l)

theorem leaveUp (l : Nat) : Within s (s.leaveUp l) :=
  ite (refl s) ((each s _ _ fun t p => (modPort t p _).trans (note _ _)).trans (note _ _))

theorem disturb (l : Nat) : Within s (s.disturb l) := (leaveUp s l).trans (modLink _ l)
theorem enterHello (l : Nat) : Within s (s.enterHello l) := (leaveUp s l).trans (modLink _ l)

theorem actTelegram (l : Nat) (b : TelBody) : Within s (s.actTelegram l b) := by
  unfold State.actTelegram
  split
  · exact refl s
  · exact disturb s l
  · exact actHello s l _ _
  · exact (enterHello s l).trans (actHello _ l _ _)
  · exact actStatus s l _ _ _
  · exact ite ((modLink s l).trans (actStatus _ l _ _ _)) (refl s)
  · exact enterHello s l

theorem receive (l : Nat) (bs : List Byte) : Within s (s.receive l bs) := by
  have h := fun q => show Within s (s.noteSequence l q) from modLink s l
  unfold State.receive
  refine ite (refl s) ?_
  split
  · exact refl s
  · exact refl s
  · exact disturb s l
  · exact ite (h _) ((h _).trans (actTelegram _ l _))

/-! #### Modes -/

theorem enterOperational : Within s s.enterOperational := by
  unfold State.enterOperational
  refine trans ?_ (noteAll _)
  exact (loseUnknown s).trans { refl s.loseUnknown with }

theorem tryOperational : Within s s.tryOperational := ite (enterOperational s) (refl s)

theorem enterHalted (r : HaltReason) : Within s (s.enterHalted r) := by
  have hstop : Within s s.loseUnknown.stopSignals := (loseUnknown s).trans { refl s.loseUnknown with }
  have hlinks := fun ls => hstop.trans (each s.loseUnknown.stopSignals ls (fun t l => t.disturb l) disturb)
  unfold State.enterHalted
  exact (hlinks _).trans { refl _ with }

theorem startingCrc (crc : Crc32) : Within s (s.startingCrc crc) :=
  ite (refl s) (ite ((show Within s { s.countPass with mdc.startCrc := .matched } from { refl s with }).trans (tryOperational _))
    (enterHalted s _))

theorem startupExpiry : Within s s.startupExpiry :=
  ite (refl s) ((show Within s { s with mdc.startupMs := none, mdc.startupExpired := true } from { refl s with }).trans (tryOperational _))

theorem verifyExpiry : Within s s.verifyExpiry := ite (refl s) { refl s with }

theorem verifyEnd (crc : Crc32) : Within s (s.verifyEnd crc) :=
  ite (refl s) (ite ((show Within s { s.countPass with sds.verifyMs := some 600000, sds.verifyPass := false } from { refl s with }).trans
    (note _ _)) (enterHalted s _))

theorem afterPollEnd {t : State} (h : Within s t) : Within s t.endPoll.tryOperational := (h.trans (endPoll t)).trans (tryOperational _)

/-! #### Commands of the host -/

theorem cmdLoadBegin (o : Originator) (n : Nat) : Within s (s.cmdLoadBegin o n).1 := by
  unfold State.cmdLoadBegin
  iterate 2 (split; exact refl s)
  exact { refl s with }

theorem cmdLoadSegment (o : Originator) (n : Nat) (bs : List Byte) : Within s (s.cmdLoadSegment o n bs).1 := by
  unfold State.cmdLoadSegment
  iterate 2 (split; exact refl s)
  exact { refl s with }

theorem endLoadChecks (len : Nat) (crc : Crc32) : Within s (s.endLoadChecks len crc).1 := by
  unfold State.endLoadChecks
  simp only []
  split <;> exact { refl s with }

theorem cmdReclear (o : Originator) (n : Nat) : Within s (s.cmdReclear o n).1 := by
  unfold State.cmdReclear
  split
  · exact refl s
  · exact refl s
  · rename_i i _ hi
    iterate 2 (split; exact refl s)
    exact (setClearing (liveSlot_some hi).2.1).trans ((modSlot _ i).trans (refreshPending _ i))

theorem cancelLive (i : Nat) : Within s (s.cancelLive i).1 := by
  unfold State.cancelLive
  simp only []
  split <;> rename_i hs
  · exact endSlot s i _
  · exact cancelCleared (live_of_state hs (by decide))
  · exact cancelCleared (live_of_state hs (by decide))
  · exact cancelCleared (live_of_state hs (by decide))
  all_goals exact refl s

theorem cmdCancelRoute (o : Originator) (n : Nat) : Within s (s.cmdCancelRoute o n).1 := by
  unfold State.cmdCancelRoute
  split
  · exact refl s
  · exact cancelLive s _
  · split
    · exact (leaveStore s _ _).trans (note _ _)
    · exact refl s

theorem cmdMovePoint (o : Originator) (k p : Nat) : Within s (s.cmdMovePoint o k p).1 := by
  unfold State.cmdMovePoint
  split
  · exact refl s
  · iterate 3 (split; exact refl s)
    split
    · exact refl s
    · exact modPt s k _

theorem addRestriction (x : Restriction) : Within s (s.addRestriction x) := by cases x <;> exact { refl s with }
theorem removeRestriction (x : Restriction) : Within s (s.removeRestriction x) := by cases x <;> exact { refl s with }

theorem cmdAddRestriction (o : Originator) (a b c d : Nat) : Within s (s.cmdAddRestriction o a b c d).1 := by
  unfold State.cmdAddRestriction
  iterate 2 (split; exact refl s)
  exact addRestriction s _

theorem cmdRequestDirection (o : Originator) (p : Nat) : Within s (s.cmdRequestDirection o p).1 := by
  unfold State.cmdRequestDirection
  split
  · exact refl s
  · simp only
    iterate 7 (split; exact refl s)
    exact modPort s p _

theorem cmdGiveControl (o : Originator) (a h : Nat) : Within s (s.cmdGiveControl o a h).1 := by
  unfold State.cmdGiveControl
  split
  · exact refl s
  · iterate 3 (split; exact refl s)
    exact setHolder s a _

theorem cmdPrepare (o : Originator) (x : Inner) : Within s (s.cmdPrepare o x).1 := by
  unfold State.cmdPrepare
  iterate 3 (split; exact setGate s o none)
  exact setGate s o _

theorem forcedRelease (i : Nat) : Within s (s.forcedRelease i) := by
  have hstop : s.live i = true → Within s ((s.stopEntry i).beginRelease i) := fun hl =>
    (stopEntry s i).trans (beginRelease (((Quiet.stopEntry s i).live i).trans hl))
  unfold State.forcedRelease
  split <;> rename_i hs
  · exact endSlot s i .forced
  · exact hstop (live_of_state hs (by decide))
  · exact hstop (live_of_state hs (by decide))
  · exact hstop (live_of_state hs (by decide))
  · exact beginRelease (live_of_state hs (by decide))
  · exact beginRelease (live_of_state hs (by decide))
  · exact beginRelease (live_of_state hs (by decide))
  · exact refl s
  · exact refl s

theorem innerAct (o : Originator) (x : Inner) : Within s (s.innerAct o x).1 := by
  cases x with
  | restoreSection k => exact modSec s k _
  | forcedRelease i r => exact forcedRelease s i
  | removeRestriction a b c =>
    show Within s (s.removeNow a b c)
    unfold State.removeNow
    split
    · exact removeRestriction s _
    · exact refl s
  | forceDirection p => exact modPort s p _
  | clearRemoteClaims l => exact clearRemote s l
  | takeControl a => exact setHolder s a _
  | restart k => exact refl s
  | other c p => exact refl s

theorem cmdExecute (o : Originator) (x : Inner) : Within s (s.cmdExecute o x).1 := by
  unfold State.cmdExecute
  split
  · exact setGate s o none
  · exact (setGate s o none).trans (innerAct _ o x)

/-! #### The supervisory line -/

/-- A response is placed where none may stand in progress and the queue has room. -/
theorem respond (f : Frame) (hp : s.slu.inProgress = none) (hr : s.slu.respQ.length < 8) : Within s (s.respond f) :=
  setLine s fun h => { h with
    respQ := by rw [List.length_append]; exact hr
    kept := fun hk => by rw [show s.slu.inProgress = none from hp] at hk; cases hk }

theorem faultReport (f : Faults) (h : Option (Nat × Nat × Nat)) : Within s (s.faultReport f h) := by
  unfold State.faultReport
  simp only []
  split
  · exact refl s
  · rename_i hn
    rw [not_or, not_and] at hn
    obtain ⟨hroom, hseven⟩ := hn
    refine setLine s fun h => { h with respQ := ?_, kept := fun hp => ?_ }
    · rw [List.length_append]; exact not_le.1 hroom
    · have hkept := h.kept hp
      have hne : s.slu.respQ.length ≠ 7 := fun e => hseven e hp
      rw [List.length_append]
      exact Nat.lt_of_le_of_ne hkept hne

theorem enqueue (q : QCmd) : Within s (s.enqueue q) := by
  unfold State.enqueue
  split
  · exact faultReport s _ _
  · rename_i hn
    exact setLine s fun h => { h with inputQ := by rw [List.length_append]; exact not_le.1 hn }

theorem sendNotice (l : List Ref) (hl : s.slu.noticeQ.Nodup → l.Nodup) : Within s (s.sendNotice l) := by
  induction l with
  | nil => exact setLine s fun h => { h with noticeQ := List.nodup_nil }
  | cons r l ih =>
    have hl' : s.slu.noticeQ.Nodup → l.Nodup := fun h => (List.nodup_cons.1 (hl h)).2
    unfold State.sendNotice
    split
    · exact setLine s fun h => { h with noticeQ := hl' h.noticeQ, noticeCount := Nat.mod_lt _ (by decide) }
    · exact ih hl'

theorem arbiter : Within s s.arbiter := by
  unfold State.arbiter
  split
  · exact refl s
  · rename_i f rest _ hr
    have hle : rest.length ≤ s.slu.respQ.length := by rw [hr]; exact Nat.le_succ _
    exact setLine s fun h => { h with respQ := hle.trans h.respQ, kept := fun hp => hle.trans (h.kept hp) }
  · split
    · exact sendNotice s _ id
    · exact refl s

end Within
end Sys2Proof.Machine

/-! ### What an accepted route request takes (R59, R62, R65, R97, R163) -/

namespace Sys2Proof.Machine

/-! #### The requests posted -/

/-- Each link has its sizes, and room for the requests `ps` posts on it. -/
def State.roomFor (s : State) (ps : List (RemoteWhat × Nat)) : Prop :=
  ∀ l, l < s.bdu.links.length → (s.link l).sized ∧ (s.link l).outgoing.length + (asksOn ps l).length ≤ 16

theorem post_link (s : State) (i : Nat) (w : RemoteWhat) (l j : Nat) : (s.post i w l).link j =
    if l = j ∧ j < s.bdu.links.length then { s.link j with
      nextTag := (s.freshTag l + 1) % 256
      outgoing := (s.link j).outgoing ++ (asksOn [(w, l)] j).map fun a => OutReq.mk (s.freshTag l) a i }
    else s.link j := by
  cases w with
  | acceptance p =>
    rw [show asksOn [(.acceptance p, l)] j = [] from rfl, List.map_nil, List.append_nil]
    exact State.modLink_link_at ..
  | ask a =>
    change (((s.modLink l fun k => { k with nextTag := (s.freshTag l + 1) % 256 }).modLink l
      fun k => { k with outgoing := k.outgoing ++ [OutReq.mk (s.freshTag l) a i] }).modSlot i _).link j = _
    rw [State.modSlot_link, State.modLink_link_at, State.modLink_link_at, State.modLink_links, List.length_modify]
    split
    · rename_i h
      rw [show asksOn [(.ask a, l)] j = [a] by simp [asksOn, h.1]]; rfl
    · rfl

theorem post_links_length (s : State) (i : Nat) (w : RemoteWhat) (l : Nat) :
    (s.post i w l).bdu.links.length = s.bdu.links.length := (Quiet.post s i w l).links_length

theorem asksOn_cons (x : RemoteWhat × Nat) (ps : List (RemoteWhat × Nat)) (l : Nat) : asksOn (x :: ps) l = asksOn [x] l ++ asksOn ps l :=
  List.filterMap_append (l := [x])

/-- Posting a request uses the room kept for it. -/
theorem State.roomFor.post {s : State} {w : RemoteWhat} {l : Nat} {ps : List (RemoteWhat × Nat)} (h : s.roomFor ((w, l) :: ps)) (i : Nat) :
    (s.post i w l).roomFor ps := by
  intro j hj
  obtain ⟨⟨ht, ho, hn, hq⟩, hr⟩ := h j (post_links_length s i w l ▸ hj)
  rw [asksOn_cons, List.length_append, ← Nat.add_assoc] at hr
  rw [post_link]
  split
  · simp only [Link.sized, List.length_append, List.length_map]
    exact ⟨⟨ht, (Nat.le_add_right _ _).trans hr, Nat.mod_lt _ (by decide), hq⟩, hr⟩
  · exact ⟨⟨ht, ho, hn, hq⟩, by omega⟩

theorem State.roomFor.each_post {s : State} {ps : List (RemoteWhat × Nat)} (h : s.roomFor ps) (i : Nat) :
    (s.each ps fun t x => t.post i x.1 x.2).roomFor [] := by
  induction ps generalizing s with
  | nil => exact h
  | cons x ps ih => exact ih (h.post i)

theorem State.roomFor.linksHold {s : State} {ps : List (RemoteWhat × Nat)} (h : s.roomFor ps) : s.linksHold := by
  refine linksHold_iff.2 fun l => ?_
  by_cases hl : l < s.bdu.links.length
  · exact (h l hl).1
  · rw [State.link, List.getD_eq_default _ _ (not_lt.1 hl)]
    exact Link.start_sized

/-- The room check counts what an acceptance posts (R62). -/
theorem asksOn_postsOf (s : State) (d : RouteDef) (cs : List Claim) (l : Nat) : (asksOn (s.postsOf d cs) l).length = s.postsOn d cs l := by
  have hcount : ∀ {α : Type} (g : α → Nat) (f : α → Ask) (xs : List α),
      (asksOn (xs.map fun x => (.ask (f x), g x)) l).length = (xs.filter fun x => decide (g x = l)).length := fun g f xs => by
    rw [asksOn, List.filterMap_map, List.length_filterMap_eq_countP, List.countP_eq_length_filter]
    refine congrArg List.length (List.filter_congr fun x _ => ?_)
    by_cases hx : g x = l <;> simp [hx]
  have hexit : asksOn (if d.kind = .exit then [(RemoteWhat.acceptance d.exit, (s.portDef d.exit).link)] else []) l = [] := by
    split <;> rfl
  have happ : ∀ a b, asksOn (a ++ b) l = asksOn a l ++ asksOn b l := fun a b => List.filterMap_append
  rw [State.postsOf, happ, happ, hexit, List.append_nil, List.length_append, hcount (fun p => (s.portDef p).link)
    (fun p => ⟨true, .port, p, none⟩), hcount RemoteItem.link (fun x => ⟨false, x.cls.target, x.idx, some x.state⟩), State.postsOn,
    Nat.add_comm]

/-- An accepted request has found room for what it posts (R62). -/
theorem routeChecks_hasRoom {s : State} {o : Originator} {route i : Nat} {retry : Bool} {cs : List Claim} {d : RouteDef}
    (h : s.routeChecks o route retry = .accepted i cs) (hd : s.routeDef? route = some d) : s.hasRoom d cs = true := by
  obtain ⟨-, h8⟩ := routeChecks_found h hd
  obtain ⟨hf, ht, hs⟩ := check8_found h8
  unfold State.check8 at h8
  simp only [hf, ht, hs] at h8
  by_contra hn
  rw [if_neg hn] at h8
  cases h8

/-! #### The slot taken -/

namespace Within
variable (s : State)

theorem takeOver (j : Nat) (d : RouteDef) : Within s (s.takeOver j d) := by
  unfold State.takeOver
  exact ((((each s _ _ fun t k => freeSec t k _).trans (each _ _ _ fun t k => freePt t k _)).trans
    (each _ _ _ fun t (c : Claim) => takeCount t c.what)).trans (modSlot _ j)).trans (withdrawWhere _ j _)

theorem handedOver (o : Originator) (d : RouteDef) (i : Nat) : Within (s.modSlot i fun _ => d.freshSlot o) (s.handedOver o d i) := by
  unfold State.handedOver
  cases s.donor d with
  | none => exact refl _
  | some j => exact (takeOver _ j d).trans (note _ _)

theorem lockRoute (i : Nat) (d : RouteDef) : Within s (s.lockRoute i d) := by
  unfold State.lockRoute
  exact ((((each s _ _ fun t _ => modSec t _ _).trans (each _ _ _ fun t _ => modSec t _ _)).trans
    (each _ _ _ fun t _ => modPt t _ _)).trans (each _ _ _ fun t _ => modPt t _ _)).trans (modSig _ _ _)

theorem noteMoved (old : State) (gone : List ClaimOn) : Within s (s.noteMoved old gone) := each s _ _ noteClaimed
theorem takenToZero (gone : List ClaimOn) : Within s (s.takenToZero gone) := ite (releaseEvent s) (refl s)

end Within

/-- The state of an acceptance before it posts its requests: all is locked, claimed and begun (R65). -/
def State.claimed (s : State) (o : Originator) (d : RouteDef) (i : Nat) (cs : List Claim) : State :=
  let m := (((((s.handedOver o d i).lockRoute i d).placeCounts cs).noteMoved s (s.needOf d).absent).takenToZero (s.needOf d).absent).each
    (claimedPoints cs ++ d.points) fun t q => t.moveIfOther q.1 q.2
  m.modSlot i fun k => { k with claims := m.placed cs }

theorem prepared_eq_claimed (s : State) (o : Originator) (d : RouteDef) (i : Nat) (cs : List Claim) : s.prepared o d i cs =
    (((s.claimed o d i cs).each (s.postsOf d cs) fun t x => t.post i x.1 x.2).modSlot i fun k =>
      { k with timerMs := some (s.settingTimeout * 1000) }).refreshPending i := rfl

theorem Within.claimed (s : State) (o : Originator) (d : RouteDef) (i : Nat) (cs : List Claim) :
    Within (s.modSlot i fun _ => d.freshSlot o) (s.claimed o d i cs) := by
  have h := ((((Within.handedOver s o d i).trans (Within.lockRoute _ i d)).trans (Within.placeCounts _ cs)).trans
    (Within.noteMoved _ s (s.needOf d).absent)).trans (Within.takenToZero _ (s.needOf d).absent)
  unfold State.claimed
  exact (h.trans (Within.each _ _ _ fun t (q : Nat × Pos) => Within.moveIfOther t q.1 q.2)).trans (Within.modSlot _ i)

section
variable {s : State} {o : Originator} {route i : Nat} {retry : Bool} {cs : List Claim} {d : RouteDef}
  (h : s.routeChecks o route retry = .accepted i cs) (hd : s.routeDef? route = some d)
include h hd

/-- After its requests are posted an acceptance takes nothing more. -/
theorem acceptRoute_posted : Within ((s.claimed o d i cs).each (s.postsOf d cs) fun t x => t.post i x.1 x.2) (s.acceptRoute o d i cs) := by
  have hl : (s.prepared o d i cs).live i = true :=
    ((routeChecks_admitted h hd).prepared_changes o (by rw [number_of_routeDef hd, hd])).live
  rw [acceptRoute_eq]
  refine .trans ?_ ((Within.tryClear hl).trans (Within.note _ _))
  rw [prepared_eq_claimed]
  exact (Within.modSlot _ i).trans (Within.refreshPending _ i)

/-- Slot `i` is live with its route; no other slot becomes live. -/
theorem acceptRoute_slot (j : Nat) : Slot.Within ((s.modSlot i fun _ => d.freshSlot o).slot j) ((s.acceptRoute o d i cs).slot j) := by
  refine ((Within.claimed s o d i cs).slot j).trans (.trans ?_ ((acceptRoute_posted h hd).slot j))
  have hq := (Quiet.each (s.claimed o d i cs) (s.postsOf d cs) (fun t x => t.post i x.1 x.2) fun t x => Quiet.post t i x.1 x.2)
  exact fun hn => ⟨of_decide_eq_true ((hq.live j).symm.trans (decide_eq_true hn)), hq.route j⟩

theorem acceptRoute_linksHold (hs : s.linksHold) : (s.acceptRoute o d i cs).linksHold := by
  have hw := Within.claimed s o d i cs
  have hroom := hasRoom_iff.1 (routeChecks_hasRoom h hd)
  have hlen : (s.claimed o d i cs).bdu.links.length = s.bdu.links.length := hw.links
  have hposts : (s.claimed o d i cs).roomFor (s.postsOf d cs) := fun l hl => by
    have hk : (s.claimed o d i cs |>.link l).sized := (hw.link l).sized (linksHold_iff.1 hs l)
    have ho : ((s.claimed o d i cs).link l).outgoing.length ≤ (s.link l).outgoing.length := (hw.link l).outgoing
    refine ⟨hk, ?_⟩
    rw [asksOn_postsOf]
    rcases hroom l (hlen ▸ hl) with h0 | hle
    · rw [h0]; exact hk.2.1
    · exact (Nat.add_le_add_right ho _).trans hle
  have hposted := linksHold_iff.1 (hposts.each_post i).linksHold
  exact linksHold_iff.2 fun l => ((acceptRoute_posted h hd).link l).sized (hposted l)

end

end Sys2Proof.Machine

/-! ### Sizes and route numbers are kept

`Bounded` says of an operation that it keeps the sizes of all queues and tables, and that it brings in no route number that stands
already: an operation that is `Within` does, and so does one that accepts or stores a route request. -/

namespace Sys2Proof.Machine

/-- What `queuesHold` says of the lists between two events, the line aside. -/
structure State.sized (s : State) : Prop where
  slots : s.rsu.slots.length = 48
  store : s.rsu.store.length ≤ 16
  slu : s.slu.sized

/-- Sizes, and route numbers once each, are kept. -/
structure Bounded (s t : State) : Prop where
  sized : s.sized → t.sized
  links : s.linksHold → t.linksHold
  store : s.storeAgrees → t.storeAgrees

namespace Bounded

theorem refl (s : State) : Bounded s s := ⟨id, id, id⟩
theorem trans {s t u : State} (h : Bounded s t) (k : Bounded t u) : Bounded s u :=
  ⟨k.sized ∘ h.sized, k.links ∘ h.links, k.store ∘ h.store⟩

theorem each {α : Type} (s : State) (l : List α) (f : State → α → State) (h : ∀ t x, Bounded t (f t x)) : Bounded s (s.each l f) := by
  suffices ∀ t, Bounded s t → Bounded s (l.foldl f t) from this s (refl s)
  induction l with
  | nil => exact fun t ht => ht
  | cons x l ih => exact fun t ht => ih _ (ht.trans (h t x))

end Bounded

theorem State.storeAgrees.not_live {s : State} (h : s.storeAgrees) {n i : Nat} (hn : n ∈ s.rsu.store.map StoreEntry.route)
    (hl : s.live i = true) : (s.slot i).route ≠ some n := by
  obtain ⟨e, he, rfl⟩ := List.mem_map.1 hn
  exact h.apart e he i hl

theorem Slot.Within.live {s t : State} {i j : Nat} (h : (s.slot i).Within (t.slot j)) (hl : t.live j = true) :
    s.live i = true ∧ (t.slot j).route = (s.slot i).route :=
  have ⟨hs, hr⟩ := h (of_decide_eq_true hl)
  ⟨decide_eq_true hs, hr⟩

theorem Within.storeAgrees {s t : State} (h : Within s t) (hs : s.storeAgrees) : t.storeAgrees where
  once := hs.once.sublist h.store
  apart e he i hl hr := by
    obtain ⟨hls, hrs⟩ := (h.slot i).live hl
    exact hs.not_live (h.store.subset (List.mem_map_of_mem he)) hls (hrs ▸ hr)
  live i j n hi hj hri hrj := by
    obtain ⟨hli, hei⟩ := (h.slot i).live hi
    obtain ⟨hlj, hej⟩ := (h.slot j).live hj
    exact hs.live i j n hli hlj (hei ▸ hri) (hej ▸ hrj)

theorem Within.bounded {s t : State} (h : Within s t) : Bounded s t where
  sized hs := {
    slots := h.slots.trans hs.slots
    store := by simpa using h.store.length_le.trans (by simpa using hs.store)
    slu := h.slu hs.slu }
  links hs := linksHold_iff.2 fun l => (h.link l).sized (linksHold_iff.1 hs l)
  store := h.storeAgrees

/-! #### A route accepted -/

/-- A slot takes a route that no live slot has and the store holds no longer. -/
theorem storeAgrees_taken {s t : State} {i n : Nat} {k : Slot} (hslot : ∀ j, Slot.Within ((s.modSlot i fun _ => k).slot j) (t.slot j))
    (hk : k.route = some n) (hstore : (t.rsu.store.map StoreEntry.route).Sublist (s.rsu.store.map StoreEntry.route))
    (hn : ∀ e ∈ t.rsu.store, e.route ≠ n) (hfree : ¬∃ j, s.live j = true ∧ (s.slot j).route = some n) (hs : s.storeAgrees) :
    t.storeAgrees := by
  have hlive : ∀ j, t.live j = true → (j = i ∧ (t.slot j).route = some n) ∨ (s.live j = true ∧ (t.slot j).route = (s.slot j).route) :=
    fun j hj => by
      obtain ⟨hl, hr⟩ := (hslot j).live hj
      rw [State.live, State.modSlot_slot_at] at hl
      rw [State.modSlot_slot_at] at hr
      split at hl
      · rename_i hij
        rw [if_pos hij] at hr
        exact .inl ⟨hij.1.symm, hr.trans hk⟩
      · rename_i hij
        rw [if_neg hij] at hr
        exact .inr ⟨hl, hr⟩
  refine ⟨hs.once.sublist hstore, fun e he j hj hr => ?_, fun j j' m hj hj' hr hr' => ?_⟩
  · rcases hlive j hj with ⟨-, hrn⟩ | ⟨hl, hrs⟩
    · exact hn e he (Option.some.inj (hr.symm.trans hrn))
    · exact hs.not_live (hstore.subset (List.mem_map_of_mem he)) hl (hrs ▸ hr)
  · rcases hlive j hj with ⟨rfl, hrn⟩ | ⟨hl, hrs⟩ <;> rcases hlive j' hj' with ⟨rfl, hrn'⟩ | ⟨hl', hrs'⟩
    · rfl
    · exact absurd ⟨j', hl', hrs'.symm.trans (hr'.trans (hr.symm.trans hrn))⟩ hfree
    · exact absurd ⟨j, hl, hrs.symm.trans (hr.trans (hr'.symm.trans hrn'))⟩ hfree
    · exact hs.live j j' m hl hl' (hrs ▸ hr) (hrs' ▸ hr')

theorem Handed.sized {s t : State} (h : Handed s t) (hs : s.sized) : t.sized where
  slots := h.slots.trans hs.slots
  store := h.store.length_le.trans hs.store
  slu := {
    holders := h.holders ▸ hs.slu.holders
    inputQ := h.inputQ ▸ hs.slu.inputQ
    respQ := h.respQ ▸ hs.slu.respQ
    kept := by rw [h.inProgress, h.respQ]; exact hs.slu.kept
    lasting := by rw [h.inProgress]; exact hs.slu.lasting
    noticeQ := h.nodup hs.slu.noticeQ
    noticeCount := h.noticeCount ▸ hs.slu.noticeCount }

/-- A request that none of checks 1 to 4 refuses is no duplicate (R59). -/
theorem routeChecks_fresh {s : State} {o : Originator} {route : Nat} {retry : Bool} {v : Verdict8} (hv : s.routeChecks o route retry = v)
    (h : v ≠ .refused .notOperational none ∧ v ≠ .refused .unknown none ∧ v ≠ .refused .notInControl none ∧ v ≠ .refused .duplicate none) :
    s.duplicate route retry = false := by
  subst hv
  obtain ⟨h1, h2, h3, h4⟩ := h
  obtain ⟨c1, c2, c3⟩ := routeChecks_cases s o route retry
  cases hop : s.operational with
  | false => exact absurd (c1 hop) h1
  | true =>
    cases hd : s.routeDef? route with
    | none => exact absurd (c2 hop hd) h2
    | some d =>
      obtain ⟨c4, c5⟩ := c3 d hop hd
      obtain ⟨c6, -⟩ := c5 (by_contra fun hn => h3 (c4 hn))
      exact Bool.eq_false_iff.2 fun hu => h4 (c6 hu)

theorem Bounded.accepted {s t : State} {o : Originator} {route i : Nat} {retry : Bool} {cs : List Claim} {d : RouteDef}
    (h : s.routeChecks o route retry = .accepted i cs) (hd : s.routeDef? route = some d) (hw : Within (s.acceptRoute o d i cs) t)
    (hn : ∀ e ∈ t.rsu.store, e.route ≠ route) : Bounded s t where
  sized hs := hw.bounded.sized ((Handed.acceptRoute s o d i cs (routeChecks_operational h)).sized hs)
  links hs := hw.bounded.links (acceptRoute_linksHold h hd hs)
  store := by
    have hdup : s.duplicate route retry = false := routeChecks_fresh h (by simp)
    refine storeAgrees_taken (fun j => (acceptRoute_slot h hd j).trans (hw.slot j)) ?_ ?_ hn (duplicate_iff.1 hdup).1
    · exact congrArg some (number_of_routeDef hd)
    · exact hw.store.trans ((Handed.acceptRoute s o d i cs (routeChecks_operational h)).store.map _)

/-! #### A route stored -/

theorem Bounded.stored {s : State} {e : StoreEntry} (hlen : s.rsu.store.length < 16) (hd : s.duplicate e.route false = false) :
    Bounded s { s with rsu.store := s.rsu.store ++ [e] } := by
  obtain ⟨hfree, hstore⟩ := duplicate_iff.1 hd
  have hnew : ∀ x ∈ s.rsu.store, x.route ≠ e.route := fun x hx hr => absurd (hstore ⟨x, hx, hr⟩) (by decide)
  refine ⟨fun hs => { hs with store := by rw [List.length_append]; exact hlen }, id, fun hs => { hs with once := ?_, apart := ?_ }⟩
  · rw [List.map_append, List.map_singleton, ← List.concat_eq_append, List.nodup_concat]
    refine ⟨fun hm => ?_, hs.once⟩
    obtain ⟨x, hx, hr⟩ := List.mem_map.1 hm
    exact hnew x hx hr
  · intro x hx j hl hr
    rcases List.mem_append.1 hx with hx | hx
    · exact hs.apart x hx j hl hr
    · rw [List.mem_singleton.1 hx] at hr
      exact hfree ⟨j, hl, hr⟩

namespace Bounded

theorem cmdSetRoute (s : State) (o : Originator) (route store lifetime : Nat) : Bounded s (s.cmdSetRoute o route store lifetime).1 := by
  unfold State.cmdSetRoute
  split
  · exact refl s
  · split
    · rename_i i cs d hc hd
      have hdup : s.duplicate route false = false := routeChecks_fresh hc (by simp)
      have hstore := (duplicate_iff.1 hdup).2
      refine accepted hc hd (.refl _) fun e he hr => ?_
      exact absurd (hstore ⟨e, (Handed.acceptRoute s o d i cs (routeChecks_operational hc)).store.subset he, hr⟩) (by decide)
    · rename_i e hc
      split
      · rename_i hroom
        exact stored hroom.2 (routeChecks_fresh hc (by simp))
      · exact refl s
    · exact refl s
    · exact refl s

/-! #### What follows an act -/

theorem retryEntry (s : State) (e : StoreEntry) : Bounded s (s.retryEntry e) := by
  unfold State.retryEntry
  split
  · rename_i i cs d hc hd
    refine accepted hc hd ((Within.leaveStore _ _ _).trans (Within.note _ _)) fun x hx => ?_
    rw [note_eq] at hx
    simpa using (List.mem_filter.1 hx).2
  · exact refl s

theorem retryLoop (n : Nat) (s : State) : Bounded s (State.retryLoop n s) := by
  induction n generalizing s with
  | zero => exact (Within.due s false).bounded
  | succ n ih =>
    unfold State.retryLoop
    split
    · have hpass := each { s with releaseDue := false } s.rsu.store State.retryEntry retryEntry
      exact ((Within.due s false).bounded.trans hpass).trans ((Within.handOn _ _).bounded.trans (ih _))
    · exact (Within.due s false).bounded

theorem finish (old s : State) : Bounded s (Machine.finish old s) :=
  ((((Within.handOn s old).trans (Within.handOn _ _)).bounded).trans (retryLoop 18 _)).trans
    ((Within.noteChanges _ old).trans (Within.sendChanges _)).bounded

theorem handOver (s : State) (o : Originator) (c : Cmd) : Bounded s (s.handOver o c).1 := by
  cases c with
  | loadBegin n => exact (Within.cmdLoadBegin s o n).bounded
  | loadSegment n bs => exact (Within.cmdLoadSegment s o n bs).bounded
  | setRoute a b c => exact cmdSetRoute s o a b c
  | reclear a => exact (Within.cmdReclear s o a).bounded
  | cancelRoute a => exact (Within.cmdCancelRoute s o a).bounded
  | movePoint a b => exact (Within.cmdMovePoint s o a b).bounded
  | addRestriction a b c d => exact (Within.cmdAddRestriction s o a b c d).bounded
  | requestDirection a => exact (Within.cmdRequestDirection s o a).bounded
  | giveControl a b => exact (Within.cmdGiveControl s o a b).bounded
  | prepare x => exact (Within.cmdPrepare s o x).bounded
  | execute x => exact (Within.cmdExecute s o x).bounded
  | status => rw [handOver_query s o _ rfl]; exact refl s
  | getElement a b => rw [handOver_query s o _ rfl]; exact refl s
  | getPort a => rw [handOver_query s o _ rfl]; exact refl s
  | getLink a => rw [handOver_query s o _ rfl]; exact refl s
  | getInstance a => rw [handOver_query s o _ rfl]; exact refl s
  | readTable a b => rw [handOver_query s o _ rfl]; exact refl s
  | _ => exact refl s

end Bounded
end Sys2Proof.Machine

/-! ### Sizes, route numbers and the line between acts (R55, R79, R139, R181 to R184) -/

namespace Sys2Proof.Machine

/-! #### Starts (R18, R191, R192) -/

/-- A start empties the tables; what it keeps of the line has its size. -/
theorem Bounded.started {s t : State} (hr : t.rsu = Rsu.start) (hb : t.bdu.links = []) (hu : s.slu.sized → t.slu.sized) : Bounded s t where
  sized hs := ⟨by rw [hr]; rfl, by rw [hr]; exact Nat.zero_le _, hu hs.slu⟩
  links _ := by unfold State.linksHold; rw [hb]; exact fun k hk => absurd hk List.not_mem_nil
  store _ := by
    have hfree : ∀ i, t.live i = true → False := fun i hi => by
      rw [State.live, State.slot, hr, Rsu.start, getD_of_all_eq (fun x hx => List.eq_of_mem_replicate hx) i] at hi
      exact of_decide_eq_true hi rfl
    exact ⟨by rw [hr]; exact List.nodup_nil, fun _ _ i hi => (hfree i hi).elim, fun i _ _ hi => (hfree i hi).elim⟩

theorem Slu.sized.warm {u : Slu} (h : u.sized) : u.warm.sized :=
  { h with
    kept := fun hp => by cases hp
    lasting := fun _ hp => by cases hp
    noticeQ := List.nodup_singleton _
    noticeCount := Nat.zero_lt_succ _ }

theorem Bounded.warmStart (s : State) (c : StartCause) : Bounded s (s.warmStart c) := started rfl rfl Slu.sized.warm
theorem Bounded.blankStart (s : State) : Bounded s s.blankStart := started rfl rfl Slu.sized.warm

theorem coldStart_sized (x : Stored) (n : Nat) (l : List Instr) : (State.coldStart x n l).slu.sized where
  holders := rfl
  inputQ := Nat.zero_le _
  respQ := Nat.zero_le _
  kept hp := by cases hp
  lasting _ hp := by cases hp
  noticeQ := List.nodup_singleton _
  noticeCount := Nat.zero_lt_succ _

theorem Bounded.coldNow (s : State) : Bounded s s.coldNow := started rfl rfl fun _ => coldStart_sized _ _ _
theorem Bounded.unpowered (s : State) : Bounded s s.unpowered := started rfl rfl fun _ => coldStart_sized s.storedNow s.freeCount s.pending

/-! #### The holders an image gives (R10, R15, R167) -/

theorem chunks_length (k n : Nat) (bs : List Byte) : (chunks k n bs).length = n := by
  induction n generalizing bs with
  | zero => rfl
  | succ n ih => exact congrArg (· + 1) (ih _)

theorem cutImage_areas {bs : List Byte} {r : RawImage} (h : cutImage bs = some r) : r.areas.length = 8 := by
  unfold cutImage at h
  simp only [] at h
  split at h
  · cases h
  · obtain ⟨⟨routes, rest⟩, -, h⟩ := bind_some h
    cases h
    exact chunks_length _ _ _

/-- Where none of a class is refused, each record reads. -/
theorem filterMap_length_of_unread {α : Type} {c : RecClass} {read : List Byte → Option α} {l : List (List Byte)}
    (h : unread c read l = []) : (l.filterMap read).length = l.length := by
  rw [List.length_filterMap_eq_countP, List.countP_eq_length]
  intro x hx
  obtain ⟨p, hp, rfl⟩ := mem_numbered_snd.2 hx
  unfold unread at h
  rw [List.map_eq_nil_iff, List.filter_eq_nil_iff] at h
  simpa [Option.isSome_iff_ne_none] using h p hp

/-- Check 3 leaves each of the eight areas a holder. -/
theorem areas_length {bs : List Byte} (h : failRanges bs = none) : (readImage bs).areas.length = 8 := by
  unfold failRanges at h
  split at h
  · cases h
  unfold readImage
  cases hc : cutImage bs with
  | none => rw [hc] at h; cases h
  | some r =>
    rw [hc] at h
    have hl := List.head?_eq_none_iff.mp h
    simp only [List.append_eq, List.append_eq_nil_iff] at hl
    obtain ⟨⟨-, hareas⟩, -⟩ := hl
    rw [badAreas, List.append_eq_nil_iff] at hareas
    exact (filterMap_length_of_unread hareas.1).trans (cutImage_areas hc)

theorem firstFailing_eq_zero {l : List (Nat × Option (RecClass × Nat))} (h : (firstFailing l).code = 0) (hl : ∀ x ∈ l, x.1 ≠ 0) :
    ∀ x ∈ l, x.2 = none := by
  induction l with
  | nil => exact fun x hx => absurd hx List.not_mem_nil
  | cons y l ih =>
    obtain ⟨c, e⟩ := y
    cases e with
    | none => exact List.forall_mem_cons.2 ⟨rfl, ih h fun x hx => hl x (List.mem_cons_of_mem _ hx)⟩
    | some r => exact absurd h (hl _ List.mem_cons_self)

theorem failRanges_of_check {x : Stored} (h : x.check.code = 0) : failRanges x.bytes = none := by
  refine firstFailing_eq_zero h (fun y hy => ?_) (3, failRanges x.bytes) (by simp [checkList])
  simp only [checkList, List.mem_cons, List.not_mem_nil, or_false] at hy
  rcases hy with rfl | rfl | rfl | rfl | rfl | rfl | rfl | rfl | rfl | rfl <;> exact Nat.succ_ne_zero _

/-- A start check that passes installs links at their start values and eight holders. -/
theorem Bounded.enterStarting {s : State} (h : s.sds.stored.check.code = 0) (r : CheckResult) : Bounded s (s.enterStarting r) := by
  rw [enterStarting_eq]
  refine ⟨fun hs => { hs with slu := { hs.slu with holders := ?_ } }, fun _ k hk => ?_, fun hs => ⟨hs.once, hs.apart, hs.live⟩⟩
  · show (if s.mdc.cause = .cold then _ else _ : List Holder).length = 8
    split
    · exact areas_length (failRanges_of_check h)
    · exact hs.slu.holders
  · rw [List.eq_of_mem_replicate hk]
    exact Link.start_sized

theorem Within.enterUnconfigured (s : State) (r : CheckResult) : Within s (s.enterUnconfigured r) := by
  unfold State.enterUnconfigured
  rw [startHolders_eq]
  refine { Within.refl s with slu := fun h => { h with holders := ?_ } }
  show (if s.mdc.cause = .cold then _ else _ : List Holder).length = 8
  split
  · rfl
  · exact h.holders

/-! #### Commands taken (R181, R182) -/

theorem mayTake_iff {s : State} : s.mayTake = true ↔ s.mdc.power = .running ∧ s.slu.inProgress = none ∧ s.slu.respQ.length < 8 := by
  rw [State.mayTake, Bool.and_eq_true, Bool.and_eq_true, decide_eq_true_eq, decide_eq_true_eq, Option.isNone_iff_eq_none, and_assoc]
  exact Iff.rfl

/-- The sizes and the route numbers are kept, and no release event is left (R80). -/
structure Calm (s t : State) : Prop extends Bounded s t where
  due : s.releaseDue = false → t.releaseDue = false

namespace Calm

theorem trans {s t u : State} (h : Calm s t) (k : Calm t u) : Calm s u := ⟨h.toBounded.trans k.toBounded, k.due ∘ h.due⟩
theorem within {s t : State} (h : Within s t) (hd : t.releaseDue = s.releaseDue) : Calm s t := ⟨h.bounded, fun hs => hd.trans hs⟩
theorem finish {s u : State} (old : State) (h : Bounded s u) : Calm s (Machine.finish old u) :=
  ⟨h.trans (.finish old u), fun _ => finish_settled old u⟩

theorem refl (s : State) : Calm s s := within (.refl s) rfl

theorem arbiter (s : State) : Calm s s.arbiter := by
  refine within (.arbiter s) ?_
  obtain ⟨a, b, c, d, h⟩ := arbiter_keeps s
  rw [h]

theorem respond {s : State} (f : Frame) (hp : s.slu.inProgress = none) (hr : s.slu.respQ.length < 8) : Calm s (s.respond f) :=
  within (.respond s f hp hr) rfl

/-- LOAD_END or ACTIVATE stays in progress. -/
theorem work {s : State} (q : QCmd) (hq : lastingCmd q.cmd = true) (hr : s.slu.respQ.length < 8) : Calm s { s with slu.inProgress := some q } :=
  within (Within.setLine s fun h => { h with
    kept := fun _ => Nat.le_of_lt_succ hr
    lasting := fun p hp => by cases hp; exact hq }) rfl

/-- The command in progress is answered. -/
theorem endWork {s : State} (f : Frame) (hp : s.slu.inProgress.isSome) : Calm s ({ s with slu.inProgress := none }.respond f) :=
  within (Within.setLine s fun h => { h with
    respQ := by rw [List.length_append]; exact Nat.succ_le_succ (h.kept hp)
    kept := fun hn => by cases hn
    lasting := fun _ hn => by cases hn }) rfl

theorem warmStart (s : State) (c : StartCause) : Calm s (s.warmStart c) := ⟨.warmStart s c, fun _ => rfl⟩

section
variable {s : State} (q : QCmd) (hp : s.slu.inProgress = none) (hr : s.slu.respQ.length < 8)
include hp hr

theorem answerNow : Calm s (s.answerNow q) := by
  unfold State.answerNow
  split
  · refine (respond (.reply q.tag (cmdCode q.cmd) q.originator .done .none) hp hr).trans ?_
    unfold State.restartNow
    split
    · exact warmStart _ _
    · exact ⟨.blankStart _, fun _ => rfl⟩
  · have hk := (lineKept_handOver s q.originator q.cmd).trans (Handed.finish s (s.handOver q.originator q.cmd).1).lineKept
    exact (finish s (.handOver s q.originator q.cmd)).trans (respond _ (hk.inProgress.trans hp) (hk.respQ ▸ hr))

theorem runCmd : Calm s (s.runCmd q) := by
  unfold State.runCmd
  split
  · rename_i hq
    split
    · exact respond _ hp hr
    · exact work q (by rw [hq]; rfl) hr
  · rename_i hq
    split
    · exact work q (by rw [hq]; rfl) hr
    · exact respond _ hp hr
  · split
    · exact respond _ hp hr
    · exact answerNow q hp hr

end

/-- The oldest command waiting is taken. -/
theorem takeFirst {s : State} {q : QCmd} {rest : List QCmd} (hq : s.slu.inputQ = q :: rest) (hm : s.mayTake = true) :
    Calm s ({ s with slu.inputQ := rest }.runCmd q).arbiter := by
  obtain ⟨-, hp, hr⟩ := mayTake_iff.1 hm
  have hpop : Calm s { s with slu.inputQ := rest } := within (Within.setLine s fun h =>
    { h with inputQ := (Nat.le_succ _).trans (show (q :: rest).length ≤ 4 from hq ▸ h.inputQ) }) rfl
  exact (hpop.trans (runCmd q hp hr)).trans (arbiter _)

theorem takeCommands (n : Nat) (s : State) : Calm s (State.takeCommands n s) := by
  induction n generalizing s with
  | zero => exact refl s
  | succ n ih =>
    unfold State.takeCommands
    split
    · exact refl s
    · rename_i q rest hq
      split
      · rename_i hm
        exact (takeFirst hq hm).trans (ih _)
      · exact refl s

theorem settleLine (s : State) : Calm s s.settleLine := (arbiter s).trans (takeCommands _ _)

end Calm

/-! #### The line (R183) -/

/-- The line is served, and a command waits only behind one in progress or a full response queue. -/
def State.lineHolds (s : State) : Prop :=
  s.mdc.power = .running → s.served ∧ (s.slu.inputQ ≠ [] → s.slu.inProgress.isSome ∨ s.slu.respQ.length = 8)

theorem sendNotice_served (s : State) (l : List Ref) (hr : s.slu.respQ = []) : (s.sendNotice l).served := by
  induction l with
  | nil => exact fun _ => ⟨hr, rfl⟩
  | cons r l ih =>
    unfold State.sendNotice
    split
    · exact fun h => by cases h
    · exact ih

/-- The arbiter leaves no free line with something to send. -/
theorem served_arbiter (s : State) (h : s.arbiter.mdc.power = .running) : s.arbiter.served := by
  have hpow : s.arbiter.mdc.power = s.mdc.power := by
    obtain ⟨a, b, c, d, e⟩ := arbiter_keeps s
    rw [e]
  rw [hpow] at h
  unfold State.arbiter
  split
  · rename_i hl
    exact fun hn => by rw [hl] at hn; cases hn
  · exact fun hn => by cases hn
  · rename_i hl hr
    rw [if_pos h]
    exact sendNotice_served s _ hr

theorem takeCommands_lineHolds (n : Nat) {s : State} (hs : s.sized) (hv : s.mdc.power = .running → s.served)
    (hn : s.slu.inputQ.length < n) : (State.takeCommands n s).lineHolds := by
  induction n generalizing s with
  | zero => exact absurd hn (Nat.not_lt_zero _)
  | succ n ih =>
    unfold State.takeCommands
    split
    · rename_i hq
      exact fun hpow => ⟨hv hpow, fun h => absurd hq h⟩
    · rename_i q rest hq
      split
      · rename_i hm
        refine ih ((Calm.takeFirst hq hm).sized hs) (served_arbiter _) ?_
        rw [arbiter_inputQ, runCmd_inputQ]
        rw [hq] at hn
        exact Nat.lt_of_succ_lt_succ hn
      · rename_i hm
        refine fun hpow => ⟨hv hpow, fun _ => ?_⟩
        by_cases hp : s.slu.inProgress = none
        · exact .inr (Nat.le_antisymm hs.slu.respQ (not_lt.1 fun hr => hm (mayTake_iff.2 ⟨hpow, hp, hr⟩)))
        · exact .inl (Option.isSome_iff_ne_none.2 hp)

theorem settleLine_lineHolds {s : State} (hs : s.sized) : s.settleLine.lineHolds :=
  takeCommands_lineHolds _ ((Calm.arbiter s).sized hs) (served_arbiter s) (by
    rw [arbiter_inputQ]
    exact Nat.lt_succ_of_le hs.slu.inputQ)

end Sys2Proof.Machine

/-! ### Every step keeps queues and tables within their sizes (R55, R59, R79, R139, R163, R181 to R184) -/

namespace Sys2Proof.Machine

/-- What an event makes of a state: sizes, route numbers and the line in order, no release event left. -/
structure Settled (s t : State) : Prop extends Calm s t where
  line : s.sized → s.lineHolds → t.lineHolds

namespace Settled

theorem refl (s : State) : Settled s s := ⟨.refl s, fun _ => id⟩

theorem trans {s t u : State} (h : Settled s t) (k : Settled t u) : Settled s u :=
  ⟨h.toCalm.trans k.toCalm, fun hs hl => k.line (h.sized hs) (h.line hs hl)⟩

/-- A row's effect under the row's conditions, else none. -/
theorem ite {s t : State} {c : Prop} [Decidable c] (h : c → Settled s t) : Settled s (if c then t else s) := by
  split
  · exact h ‹_›
  · exact refl s

/-- The act ends with the line. -/
theorem settle {s u : State} (h : Calm s u) : Settled s u.settleLine :=
  ⟨h.trans (.settleLine u), fun hs _ => settleLine_lineHolds (h.sized hs)⟩

/-- Nothing is sent or taken while the mode is not set. -/
theorem idle {s t : State} (h : Calm s t) (hp : t.mdc.power ≠ .running) : Settled s t := ⟨h, fun _ _ hr => absurd hr hp⟩

/-- What the line carries stays. -/
theorem still {s t : State} (h : Within s t) (hd : t.releaseDue = s.releaseDue) (hl : s.lineHolds → t.lineHolds) : Settled s t :=
  ⟨.within h hd, fun _ => hl⟩

theorem act {s : State} {f : State → State} (h : Bounded s (f s)) : Settled s (s.act f) := ite fun _ => settle (.finish s h)

theorem timed {s t : State} {i : Nat} {x : SlotState} (h : Within s t) : Bounded s (if s.timing i x then t else s) :=
  (Within.ite h (.refl s)).bounded

/-! #### Frames -/

theorem setRx (s : State) (x : Rx) : Settled s (s.setRx x) := still (.setRx s x) rfl id

theorem badFrame (s : State) (f : Faults) (h : Option (Nat × Nat × Nat)) (x : Rx) : Settled s (s.badFrame f h x) := by
  refine settle (.within ((Within.setRx s x).trans (Within.faultReport _ f h)) ?_)
  unfold State.faultReport
  simp only []
  split <;> rfl

theorem goodFrame (s : State) (q : QCmd) : Settled s (s.goodFrame q) := by
  refine settle (.within ((Within.setRx s .hunting).trans (Within.enqueue _ q)) ?_)
  unfold State.enqueue State.faultReport
  simp only []
  split
  · split <;> rfl
  · rfl

theorem completeFrame (s : State) (bs : List Byte) : Settled s (s.completeFrame bs) := by
  unfold State.completeFrame
  simp only []
  split
  · split
    · exact goodFrame s _
    · exact badFrame s _ _ _
  · exact badFrame s _ _ _

theorem arrive (s : State) (o : Originator) (tag : Nat) (c : Cmd) : Settled s (s.arrive o tag c) := by
  refine ite fun _ => ?_
  unfold State.submit
  split
  · exact refl s
  · split
    · exact goodFrame s _
    · exact badFrame s _ _ _

/-! #### Polls -/

theorem sendPoll (s : State) : Settled s s.sendPoll := by
  rw [sendPoll_eq]
  exact still { Within.refl s with } rfl id

theorem calm_afterPoll {s t : State} (h : Within s t) : Calm s (s.afterPoll t) := .finish s (Within.afterPollEnd s h).bounded

theorem frameInWait (s : State) (bs : List Byte) : Settled s (s.frameInWait bs) :=
  settle ((calm_afterPoll (.takeAnswer s bs)).trans (sendPoll _).toCalm)

theorem waitExpired (s : State) (arriving : Bool) : Settled s (s.waitExpired arriving) := by
  have hlate : ∀ t : State, Calm t { t with flu.poll := .lateFrame } := fun t => .within { Within.refl t with } rfl
  unfold State.waitExpired
  simp only []
  refine settle ((calm_afterPoll (.missAnswer s)).trans ?_)
  split
  · exact hlate _
  · exact (sendPoll _).toCalm

/-! #### Starts -/

theorem endCheck (s : State) : Calm s s.endCheck := by
  unfold State.endCheck
  simp only []
  split
  · rename_i h
    have hw := ((Within.note (s.enterStarting s.sds.stored.check) .system).trans (Within.sendPoll _)).trans (Within.sendChanges _)
    refine ⟨(Bounded.enterStarting h _).trans hw.bounded, fun hs => ?_⟩
    rw [(SentOnly.sendChanges _).eq, sendPoll_eq, note_eq, enterStarting_eq]
    exact hs
  · refine .within ((Within.enterUnconfigured s _).trans (Within.note _ _)) ?_
    rw [note_eq, State.enterUnconfigured, startHolders_eq]

theorem holdReset (s : State) : Settled s s.holdReset := by
  refine idle (.within (Within.trans (t := { s with mdc.power := .held, sds.stored := s.storedNow }) { Within.refl s with } ?_) rfl) ?_
  · exact Within.setLine _ fun h => { h with kept := fun hn => (by cases hn), lasting := fun _ hn => (by cases hn) }
  · exact fun h => by cases h

theorem resetLow (s : State) (us : Nat) : Settled s (s.resetLow us) := by
  have hf : Settled s { s with freeCount := s.freeCount + 1 } := still { Within.refl s with } rfl id
  unfold State.resetLow
  simp only []
  split
  · exact holdReset s
  · split
    · exact refl s
    · split
      · exact hf.trans (holdReset _)
      · exact hf

/-! #### Ends of the long commands -/

theorem finishLoadEnd {s : State} (q : QCmd) (len : Nat) (crc : Crc32) (hq : s.slu.inProgress.isSome) :
    Settled s (s.finishLoadEnd q len crc) := by
  have hp : (Machine.finish s (s.endLoadChecks len crc).1).slu.inProgress = s.slu.inProgress := by
    rw [(Handed.finish s _).inProgress]
    unfold State.endLoadChecks
    simp only []
    split <;> rfl
  exact settle ((Calm.finish s (Within.endLoadChecks s len crc).bounded).trans (.endWork _ (by rw [hp]; exact hq)))

theorem finishActivate {s : State} (q : QCmd) (crc : Crc32) (hq : s.slu.inProgress.isSome) : Settled s (s.finishActivate q crc) := by
  have hw : Calm s (s.writeStored crc) := .within { Within.refl s with } rfl
  have hend : Calm (s.writeStored crc) ({ s.writeStored crc with slu.inProgress := none }.reply q (s.activateRes crc) .none) :=
    .endWork _ hq
  exact settle ((hw.trans hend).trans (.warmStart _ _))

/-! #### Every event -/

theorem tick (s : State) : Settled s s.tick := by
  have hgetD : ∀ {α : Type} (l : List α) (d : α) (f : α → α) (k : Nat), f d = d → (l.map f).getD k d = f (l.getD k d) :=
    fun l d f k h => (congrArg ((l.map f).getD k) h.symm).trans (List.getD_map ..)
  have h : Within s s.tick := by
    unfold State.tick
    refine .ite (.refl s) ?_
    exact { Within.refl s with
      slots := List.length_map _
      slot := fun i => by
        rw [State.slot, State.slot, hgetD _ _ _ _ rfl]
        exact fun hn => ⟨hn, rfl⟩
      store := by rw [List.map_map]; exact .refl _
      links := List.length_map _
      link := fun l => by
        rw [State.link, State.link, hgetD _ _ _ _ rfl]
        exact ⟨id, le_rfl⟩
      slu := fun h => { h with } }
  refine still h ?_ ?_
  · unfold State.tick
    split <;> rfl
  · unfold State.tick
    split <;> exact id

theorem exec (i : Instr) {s t : State} (ht : Machine.exec i s = .next t) : Settled s t := by
  have next : ∀ {u v : State}, Settled s u → (Host.Outcome.next u : Host.Outcome State Fault Refusal) = .next v → Settled s v :=
    fun hu e => by cases e; exact hu
  have hsend : ∀ l, Settled s (s.send l) := fun l => still (.send s l) rfl id
  revert ht
  cases i with
  | powerOn => exact next (idle ⟨.coldNow s, fun _ => rfl⟩ fun h => by cases h)
  | powerLoss => exact next (idle ⟨.unpowered s, fun _ => rfl⟩ fun h => by cases h)
  | resetLineLow us => exact next (ite fun _ => resetLow s us)
  | resetLineRelease => exact next (ite fun _ => settle (.warmStart s _))
  | startCheckComplete => exact next (ite fun _ => settle (endCheck s))
  | startingCrcComplete crc => exact next (act (Within.startingCrc s crc).bounded)
  | startupTimerExpiry => exact next (act (Within.startupExpiry s).bounded)
  | verifyTimerExpiry => exact next (act (Within.verifyExpiry s).bounded)
  | verifyPassComplete crc => exact next (act (Within.verifyEnd s crc).bounded)
  | loadEndChecksComplete =>
    refine next ?_
    split
    · rename_i hq
      exact ite fun _ => finishLoadEnd _ _ _ (by rw [hq]; rfl)
    · exact refl s
  | activateWriteComplete crc =>
    refine next ?_
    split
    · rename_i hq
      exact ite fun _ => finishActivate _ _ (by rw [hq]; rfl)
    · exact refl s
  | supFrameComplete bs => exact next (ite fun _ => completeFrame s _)
  | supFrameLengthFault b => exact next (ite fun _ => badFrame s _ _ _)
  | supInterbyteGap bs b => exact next (ite fun _ => badFrame s _ _ _)
  | supDrainIdle => exact next (ite fun _ => setRx s _)
  | transmitLineFree => exact next (ite fun _ => settle (.within (Within.setLine s fun h => { h with }) rfl))
  | fieldAnswerReceived bs => exact next (ite fun _ => frameInWait s bs)
  | fieldFrameInvalid bs => exact next (ite fun _ => frameInWait s bs)
  | answerWaitExpiry b => exact next (ite fun _ => waitExpired s b)
  | fieldLineIdle => exact next (ite fun _ => sendPoll s)
  | throwTimerExpiry k => exact next (act (Within.throwExpiry s k).bounded)
  | settingTimerExpiry k => exact next (act (Within.ite (.settingExpiry s k) (.refl s)).bounded)
  | approachTimerExpiry k => exact next (act (timed (.endSlot s k _)))
  | releaseTimerExpiry k => exact next (act (timed (.endSlot s k _)))
  | overlapTimerExpiry k => exact next (act (timed (.releaseOverlap s k)))
  | storeEntryExpiry n => exact next (act (Within.expireEntry s n).bounded)
  | twoStepWindowExpiry o => exact next (ite fun _ => by cases o <;> exact still (.setGate s _ none) rfl id)
  | helloReceived l bs => exact next (act (Within.receive s l bs).bounded)
  | statusTelegramReceived l bs => exact next (act (Within.receive s l bs).bounded)
  | haltReceived l bs => exact next (act (Within.receive s l bs).bounded)
  | telegramDiscarded l bs => exact next (act (Within.receive s l bs).bounded)
  | sequenceJump l bs => exact next (act (Within.receive s l bs).bounded)
  | linkTimeout l => exact next (act (Within.ite (.disturb s l) (.refl s)).bounded)
  | telegramSendTimer l => exact next (ite fun _ => hsend l)
  | telegramChangeSpacing l => exact next (ite fun _ => hsend l)
  | _ => exact next (arrive s _ _ _)

/-- Every step: the command at the front, or the tick. -/
theorem step {s t : State} (ht : Machine.step s = .next t) : Settled s t := by
  unfold Machine.step at ht
  split at ht
  · cases ht; exact tick s
  · rename_i i rest _
    have hpop : Settled s { s with pending := rest } := still { Within.refl s with } rfl id
    exact hpop.trans (exec i ht)

end Settled

/-! #### The statement -/

theorem queuesHold_iff {s : State} : s.queuesHold ↔ s.sized ∧ s.lineHolds ∧ s.releaseDue = false := by
  refine ⟨fun h => ⟨⟨h.slots, h.store, ?_⟩, fun hp => ⟨h.served hp, h.waiting hp⟩, h.settled⟩, fun ⟨⟨hn, hs, hu⟩, hl, hd⟩ => ?_⟩
  · exact ⟨h.holders, h.inputQ, h.respQ, h.kept, h.lasting, h.noticeQ, h.noticeCount⟩
  · exact ⟨hn, hs, hu.holders, hu.inputQ, hu.respQ, hu.kept, hu.lasting, hu.noticeQ, hu.noticeCount, fun hp => (hl hp).1,
      fun hp => (hl hp).2, hd⟩

/-- Settles O5: each event is a chain of operations that take nothing, acceptances and storings that the checks of R59 let through,
and starts; the line it ends with is served, and takes commands while it may. -/
theorem capacitiesKept : Obligations.CapacitiesKept := by
  unfold Obligations.CapacitiesKept
  refine ⟨fun s t hq hl ht => ?_, fun s t hs ht => (Settled.step ht).store hs⟩
  obtain ⟨hsized, hline, hdue⟩ := queuesHold_iff.1 hq
  have h := Settled.step ht
  exact ⟨queuesHold_iff.2 ⟨h.sized hsized, h.line hsized hline, h.due hdue⟩, h.links hl⟩

end Sys2Proof.Machine
